-- ==== Sys2Proof/Word.lean ====
section
/-! DEFINITION. The word types of the AHN-256 block and their plainest forms (R12, R50, R74). -/

namespace Sys2Proof

/-- A byte of a memory structure, a mailbox or a command payload. -/
abbrev Byte := BitVec 8

/-- A register word (R36: 32-bit accesses). -/
abbrev Word := BitVec 32

/-- A 64-bit access, a doorbell (R114), a route entry (R147) or one half of a rights entry (R128). -/
abbrev DWord := BitVec 64

/-- A host domain H0 to H63. -/
abbrev HostId := BitVec 6

/-- A sparse table: pairs of index and value, indices strictly rising, no entry equal to what an
unlisted index reads as. The operations that keep this form stand in Machine/Ops.lean. -/
abbrev Tbl (α : Type) := List (Nat × α)

end Sys2Proof
end

