-- ==== Sys2Proof/Syntax.lean ====
section
/-! DEFINITION. The commands of the block: one constructor for each row of spec/opcode_table.json, with its operands. -/

namespace Sys2Proof

/-- What one well's page checker says of a page read (R386): clean, correctable with n bit errors, or
uncorrectable. A physical input of the step that reads the page. -/
inductive Verdict where
  | clean
  | corr (errors : Nat)
  | uncorr
deriving DecidableEq, Repr

/-- The two wells' verdicts on one page read (R387). -/
structure PageRead where
  a : Verdict
  b : Verdict
deriving DecidableEq, Repr

/-- The RWG registers (R93, R143), by page. -/
inductive GReg where
  | rulesetSel (page : BitVec 6)
  | coreMask (core : BitVec 8)
  | privClassLo (core : BitVec 8)
  | privClassHi (core : BitVec 8)
  | actDrop (core : BitVec 8)
deriving DecidableEq, Repr

/-- A page that has an arm slot (R59). -/
inductive GPage where
  | host (n : BitVec 6)
  | core (n : BitVec 8)
deriving DecidableEq, Repr

/-- The arbiter families that have a credit window (R179, R207, R263, R295). -/
inductive WindowKind where
  | target
  | bank
  | outbound
  | mailbox
deriving DecidableEq, Repr

/-- A pin whose asynchronous latch is set in standby (R277). -/
inductive StbySource where
  | zeroize (pair : BitVec 3)
  | discrepancy (pair : BitVec 3)
  | level (line : BitVec 6)
  | wake
deriving DecidableEq, Repr

/-- Where the record that asks for a cistern's append slot waits (R118, R244, R457, R246). -/
inductive AppendSource where
  | port (p : BitVec 4)
  | localQueue (slice : BitVec 2)
  | missQueue (slice : BitVec 2)
  | held (cistern : BitVec 15)
deriving DecidableEq, Repr

/-- Where a spillway record waits (R118, R220, R253): a port's normal FIFO, a port's fast fault queue
or the spillway's own list of records made inside the block. -/
inductive SpillSource where
  | normal (p : BitVec 4)
  | fast (p : BitVec 4)
  | inside
deriving DecidableEq, Repr

/-- One copy of a fuse word as its two margin reads (R348). -/
structure FuseCopy where
  low : Nat
  high : Nat
deriving DecidableEq, Repr

/-- A fuse copy that reads otherwise than before: an ageing of the array, a physical input (R350). -/
structure FuseDrift where
  word : Nat
  copy : BitVec 2
  reads : FuseCopy
deriving DecidableEq, Repr

/-- What an upset of the fast lane's three-copy state strikes (R216, R217): a fast-table entry, the fast state bank's cell of
a shared or a private INTID, or a core's fast register bank. -/
inductive UpsetCell where
  | table (intid : BitVec 12)
  | shared (intid : BitVec 12)
  | priv (core : BitVec 8) (intid : BitVec 6)
  | registers (core : BitVec 8)
deriving DecidableEq, Repr

/-- One copy of such state with bits flipped: a physical input. Bit i of `mask` is bit i of a fast-table entry; of the other
cells the manual numbers no bits, and any bit stands for one of the cell's flops. -/
structure Upset where
  cell : UpsetCell
  copy : BitVec 2
  mask : Word
deriving DecidableEq, Repr

/-- What a pass over whole stores finds at a page, by its physical index, that is not clean in both wells: the sweep of a warm
start-up (R397), the reading of a store digest (R315). -/
structure SweptPage where
  store : BitVec 3
  index : BitVec 16
  page : PageRead
deriving DecidableEq, Repr

/-- What a well's self-check finds that the environment decides (R361): the pages of its page-write journal that it does not read
clean, the disagreements of the full vote, and whether the ROM has its check value. -/
structure SelfCheck where
  pages : List SweptPage
  votes : Nat
  romOk : Bool
deriving DecidableEq, Repr

/-- The form of a register read: the view, and whether it is a 64-bit read of the pair (R34, R35). -/
structure ReadForm where
  view : BitVec 2
  wide : Bool
deriving DecidableEq, Repr

/-- An asynchronous pin of a group of 2^w as its row finds it: its number, and how many edges before the row's edge it changed
(R24). -/
structure Seen (w : Nat) where
  pin : BitVec w
  ago : Nat
deriving DecidableEq, Repr

/-- The PRESENCE input as its row finds it: its level, and how many edges before the row's edge it took that level (R24, R328). -/
structure Presence where
  level : Bool
  ago : Nat
deriving DecidableEq, Repr

/-- How a well's start-up step ends (R407): failed, or passed with the pages that its sweep found not clean (R397). -/
inductive StepEnd where
  | failed
  | passed (found : List SweptPage)
deriving DecidableEq, Repr

/-- What REPAIR finds of the joining well's supply: the edges that pass before it, and that well's power-good input (R370, R445). -/
structure Supply where
  dt : Nat
  powerGood : Bool
deriving DecidableEq, Repr

/-- An ALIVE line as its row finds it: the edges that pass before the row's edge, and how many edges of the merged clock the line
has not toggled at (R358). -/
structure Quiet where
  dt : Nat
  edges : Nat
deriving DecidableEq, Repr

/-- The end of start-up: the edges that pass before it, and whether the wells' fuse-shadow digests agree (R379). -/
structure Handshake where
  dt : Nat
  agree : Bool
deriving DecidableEq, Repr

/-- One turn of the fast-table sweep: the edges that pass before it, and the upsets that came since the last (R216, R217). -/
structure SweepTurn where
  dt : Nat
  upsets : List Upset
deriving DecidableEq, Repr

/-- The instruction that a value shifted into the test access port's instruction register decodes to
(R426; the manual gives no instruction encodings). -/
inductive TapCode where
  | bypass
  | idcode
  | privateTest (n : Nat)
deriving DecidableEq, Repr

/-- The commands: register-port accesses, boundary events and the block's own steps, one constructor
for each row of the table. `dt` is the number of FCLK edges that pass before the command's edge; `ago` is the number of edges
since the one at which a synchroniser's first stage captured the level or latch that is seen (R24). -/
inductive Instr where
  -- register port (R33 to R73, R86 to R102)
  | registerWrite (dt : Nat) (host : HostId) (addr : BitVec 22) (wide : Bool) (data : DWord)
  | pageLockWrite (dt : Nat) (host : HostId) (frame : BitVec 6) (view : BitVec 2) (value : Word)
  | guardArm (dt : Nat) (host : HostId) (reg : GReg) (value : Word)
  | guardTimeout (dt : Nat) (page : GPage)
  | coreMaskCommit (dt : Nat) (host : HostId) (core : BitVec 8) (complement : Word)
  | privClassCommit (dt : Nat) (host : HostId) (core : BitVec 8) (hi : Bool) (complement : Word)
  | actDropN (dt : Nat) (host : HostId) (core : BitVec 8) (complement : Word)
  | actDropF (dt : Nat) (host : HostId) (core : BitVec 8) (complement : Word)
  | rulesetSwap (dt : Nat) (host : HostId) (page : BitVec 6) (complement : Word)
  | counterWrite (dt : Nat) (host : HostId) (frame : BitVec 9) (idx : BitVec 6) (hi : Bool) (wide : Bool) (data : DWord)
  | counterLoRead (dt : Nat) (host : HostId) (frame : BitVec 9) (idx : BitVec 6) (view : BitVec 2) (wide : Bool)
  | snapReq (dt : Nat) (host : HostId) (value : Word)
  | dbFenceRead (dt : Nat) (host : HostId) (port : BitVec 4) (read : ReadForm)
  | dbFenceAnswer (dt : Nat)
  | dbFenceTimeout (dt : Nat)
  | windowRead (dt : Nat) (host : HostId) (rights : Bool) (word : BitVec 18) (wide : Bool)
  | windowReadAnswer (dt : Nat) (page : PageRead)
  | windowWrite (dt : Nat) (host : HostId) (rights : Bool) (word : BitVec 18) (wide : Bool) (data : DWord)
  | mailboxWrite (dt : Nat) (host : HostId) (mb : BitVec 6) (word : BitVec 12) (wide : Bool) (data : DWord)
  | mailboxSubmit (dt : Nat) (host : HostId) (mb : BitVec 6) (wide : Bool) (data : DWord) (presence : Presence) (page : PageRead)
  | ackN (dt : Nat) (host : HostId) (core : BitVec 8) (read : ReadForm) (page : PageRead)
  | ackF (dt : Nat) (host : HostId) (core : BitVec 8) (read : ReadForm) (page : PageRead)
  | eoiN (dt : Nat) (host : HostId) (core : BitVec 8) (value : Word) (page : PageRead)
  | eoiF (dt : Nat) (host : HostId) (core : BitVec 8) (value : Word) (page : PageRead)
  | sgiSend (dt : Nat) (host : HostId) (core : BitVec 8) (value : Word)
  | pendSet (dt : Nat) (host : HostId) (core : BitVec 8) (value : Word) (page : PageRead)
  | spillCtrlWrite (dt : Nat) (host : HostId) (view : BitVec 2) (value : Word)
  | spillConsumedWrite (dt : Nat) (host : HostId) (view : BitVec 2) (value : Word)
  | grpCfgWrite (dt : Nat) (host : HostId) (group : BitVec 10) (view : BitVec 2) (value : Word)
  | grpHoldWrite (dt : Nat) (host : HostId) (group : BitVec 10) (view : BitVec 2) (value : Word)
  | trimUserWrite (dt : Nat) (host : HostId) (second : Bool) (view : BitVec 2) (value : Word)
  | slowRegWrite (dt : Nat) (host : HostId) (view : BitVec 2) (value : Word)
  | twinInject (dt : Nat) (host : HostId) (value : Word)
  | ftRead (dt : Nat) (host : HostId) (view : BitVec 2)
  -- doorbells (R112 to R137, R155, R220)
  | doorbellAccept (dt : Nat) (port : BitVec 4) (data : DWord) (rid : BitVec 16) (np : Bool)
  | doorbellLookup (dt : Nat) (rights : Bool) (bank : BitVec 4) (page : PageRead)
  | doorbellEffect (dt : Nat) (port : BitVec 4) (page : PageRead)
  | fastDoorbellAccept (dt : Nat) (port : BitVec 4) (data : DWord) (rid : BitVec 16) (np : Bool)
  | fastDoorbellEffect (dt : Nat) (port : BitVec 4)
  | dbResponse (dt : Nat) (port : BitVec 4)
  | portMask (dt : Nat) (port : Seen 4)
  | portUnmask (dt : Nat) (port : Seen 4)
  -- stores, rekey and migration (R132 to R167)
  | shadowReserve (dt : Nat)
  | shadowRelease (dt : Nat)
  | routeItemWrite (dt : Nat) (page : PageRead)
  | rightsItemWrite (dt : Nat) (page : PageRead)
  | lockOverrun (dt : Nat)
  | monitorWindowClose (dt : Nat) (rights : Bool)
  | rekeyStart (dt : Nat) (rights : Bool)
  | migrationRowTick (dt : Nat) (rights : Bool)
  | migrationRowWrite (dt : Nat) (rights : Bool) (pages : List PageRead)
  -- sluice, fast lane and cores (R103, R174 to R228)
  | targetRound (dt : Nat) (target : BitVec 9)
  | windowBoundary (dt : Nat) (kind : WindowKind)
  | trickleHoldEnd (dt : Nat) (group : BitVec 10)
  | fastRound (dt : Nat) (target : BitVec 9)
  | coreSleepSeen (dt : Nat) (core : Seen 8)
  | coreWakeSeen (dt : Nat) (core : Seen 8)
  -- level and vault inputs (R265 to R279); wires 0 to 55 are LV_IN, 56 + 2n is VA_n, 57 + 2n is VB_n
  | levelInputChange (dt : Nat) (wire : BitVec 7) (high : Bool)
  | levelFilterEdge (dt : Nat) (wire : BitVec 7)
  | levelSet (dt : Nat) (line : BitVec 6)
  | discTamper (dt : Nat) (pair : BitVec 3)
  | vaultSet (dt : Nat) (pair : BitVec 3)
  | vaultSweep (dt : Nat)
  | zeroizeLatchSet (dt : Nat) (pair : BitVec 3)
  | zlatchSeen (dt : Nat) (pair : Seen 3)
  | stbyLatchSet (dt : Nat) (source : StbySource)
  -- cisterns and the outbound port (R232 to R264, R437, R438, R456)
  | cisternAppend (dt : Nat) (source : AppendSource) (page : PageRead)
  | level1Response (dt : Nat) (tag : BitVec 9) (ok : Bool) (entry : DWord)
  | descriptorResponse (dt : Nat) (tag : BitVec 9) (ok : Bool) (w0 w1 w2 w3 : DWord)
  | controlBlockResponse (dt : Nat) (tag : BitVec 9) (ok : Bool) (consumed producer : DWord)
  | headReadResponse (dt : Nat) (tag : BitVec 9) (ok : Bool) (consumed : DWord)
  | floatPoll (dt : Nat) (cistern : BitVec 15)
  | holdRefresh (dt : Nat) (cistern : BitVec 15)
  | holdLimitExpire (dt : Nat) (cistern : BitVec 15)
  | coalTimerExpire (dt : Nat) (cistern : BitVec 15)
  | outboundGrant (dt : Nat)
  | omRequestTaken (dt : Nat)
  | lineWriteResponse (dt : Nat) (tag : BitVec 9) (ok : Bool)
  | producerWriteResponse (dt : Nat) (tag : BitVec 9) (ok : Bool)
  | outboundTimeout (dt : Nat) (tag : BitVec 9)
  | outboundLateAnswer (dt : Nat) (tag : BitVec 9)
  | spillwayAppend (dt : Nat) (source : SpillSource)
  -- the keeper (R289 to R324)
  | mailboxRound (dt : Nat)
  | keeperServicePoint (dt : Nat)
  | engineOpDone (dt : Nat) (presence : Presence)
  | watchdogExpire (dt : Nat)
  | keeperRestartDone (dt : Nat) (romOk : Bool)
  | tokenExpire (dt : Nat) (mb : BitVec 6)
  | randomWaitTimeout (dt : Nat)
  | commandResume (dt : Nat)
  | nop (dt : Nat)
  | keeperInfo (dt : Nat)
  | tokenDrop (dt : Nat)
  | standbyEnter (dt : Nat)
  | standbyDrainDone (dt : Nat)
  | standbyDrainTimeout (dt : Nat)
  | vaultRearm (dt : Nat) (pins : BitVec 8)
  | routeWrite (dt : Nat)
  | fastWrite (dt : Nat)
  | groupWrite (dt : Nat) (pages : List PageRead)
  | routeRekey (dt : Nat)
  | rightsWrite (dt : Nat)
  | cisternOpen (dt : Nat)
  | cisternClose (dt : Nat)
  | cisternSync (dt : Nat)
  | cisternFlush (dt : Nat)
  | snapshot (dt : Nat)
  | scrub (dt : Nat)
  | strengthSet (dt : Nat)
  | imageSave (dt : Nat)
  | imageRestore (dt : Nat)
  | stage (dt : Nat)
  | approve (dt : Nat)
  | approvalVerified (dt : Nat)
  | stageStatus (dt : Nat)
  | stageCancel (dt : Nat)
  | stageExpire (dt : Nat)
  | commission (dt : Nat)
  | officerList (dt : Nat)
  | attest (dt : Nat) (found : List SweptPage)
  | certRead (dt : Nat)
  | sha256 (dt : Nat)
  | configDigest (dt : Nat) (found : List SweptPage)
  | twinStatus (dt : Nat)
  | repair (supply : Supply)
  | twinSwap (dt : Nat)
  | selfTest (dt : Nat) (passed : BitVec 5)
  | lifecycleAdvance (dt : Nat) (presence : Presence)
  | fuseResense (dt : Nat) (drift : List FuseDrift)
  | fuseResenseTick (dt : Nat) (drift : List FuseDrift)
  | fuseProgramDone (dt : Nat) (clean : Bool)
  -- stored-state integrity (R383 to R402)
  | scrubWalkerTick (dt : Nat) (store : BitVec 3)
  | scrubAccess (dt : Nat) (store : BitVec 3) (bank : BitVec 4) (page : PageRead)
  | pageRebuild (dt : Nat) (store : BitVec 3) (index : BitVec 16)
  | reencodePage (dt : Nat) (page : PageRead)
  -- twin wells (R352 to R382)
  | checkpoint (dt : Nat) (vecA vecB : List Byte)
  | twinFrameArrive (dt : Nat) (toB : Bool) (noise : List Byte)
  | sigCompare (dt : Nat)
  | hbLoss (dt : Nat) (well : Bool)
  | leadSilent (line : Quiet)
  | mirrorSilent (line : Quiet)
  | failoverFreeze (dt : Nat)
  | selfCheckReport (dt : Nat) (well : Bool) (found : SelfCheck)
  | selfCheckDeadline (dt : Nat)
  | failoverResume (dt : Nat)
  | repairDigestMatch (dt : Nat) (agree : Bool)
  | repairChunkStage (dt : Nat)
  | repairChunkOpen (dt : Nat) (well : Bool)
  | forwardedWrite (dt : Nat) (store : BitVec 3) (index : BitVec 16)
  | repairJoin (dt : Nat)
  | pwrGoodFall (dt : Nat) (well : Bool)
  -- resets and start-up (R403 to R413)
  | powerOnReset (dt : Nat)
  | porstRelease (dt : Nat) (goodA goodB : Bool)
  | warmReset (dt : Nat) (lowFor : Nat)
  | aonSupplyLoss (dt : Nat)
  | startupStepDone (dt : Nat) (well : Bool) (outcome : StepEnd)
  | startupStepTimeout (dt : Nat) (well : Bool)
  | ready (handshake : Handshake)
  -- random wire, slow plane, stray responses, images, test access
  | rndWord (dt : Nat) (word : DWord) (health : Bool)
  | rndKatTimeout (dt : Nat)
  | sclkEdge (dt : Nat)
  | omStrayResponse (dt : Nat) (tag : BitVec 9) (read : Bool) (failed : Bool)
  | imageSlotResponse (dt : Nat) (tag : BitVec 9) (ok : Bool) (data : List Byte)
  | repairRefillDone (dt : Nat)
  | fastTableSweep (turn : SweepTurn)
  | tapTckEdge (dt : Nat) (tms tdi trstN : Bool) (code : TapCode)
deriving DecidableEq, Repr

end Sys2Proof
end

