-- ==== Sys2Proof/Config.lean ====
section
/-! DEFINITION. What the manual fixes per ROM or leaves open: constants with no body, and the fixed figures of the block. -/

namespace Sys2Proof

/-- PATCH of the Sceonnu version, fixed per ROM (R288, KEEP_VERSION). Log entry 5. -/
opaque Config.romPatch : BitVec 16

/-- The four known-answer words of the platform's entropy source, held in keeper ROM; the manual
gives no values (R444). Log entry 5. -/
opaque Config.rndKat : Nat → DWord

/-- The bit a private test instruction shifts out in MANUFACTURE: Delmin's instructions are not
described (R426). A free value, applied to the shift count. Log entry 6. -/
opaque Config.privateTdo : Nat → Bool

/-- The bits that the instruction register shifts out after the two that IEEE 1149.1 fixes: the manual gives its length and its
capture value no words (R426, R445). A free value, applied to the shift count. Log entry 107. -/
opaque Config.irTdo : Nat → Bool

/-- The INTID in the flops of a fast presentation or active slot that holds nothing, which an upset of its valid bit brings up
(R217). A free value, applied to the core. Log entry 108. -/
opaque Config.staleSlot : Nat → BitVec 12

/-- The X.509 DER parse of the identity public key out of the certificate (R345 gives the standard,
not the byte layout): the two 32-byte coordinates as big-endian bytes. Log entry 7. -/
opaque Config.certKey : List Byte → List Byte

/-- The 64 data bytes of a page of a store whose page layout the manual does not give, as the re-pair stream carries them
(R372). A free value, applied to the store, the page and the edge. Log entry 34. -/
opaque Config.stagedPage : Nat → Nat → Nat → List Byte

/-- REPAIR_STAT.FAIL of an attempt that a trigger of the joining well ends: R369 ends it under R377, whose table gives
the trigger no code. A free value, applied to the trigger's code. Log entry 35. -/
opaque Config.joinFail : Nat → Byte

/-- FCLK edges per ICLK, KCLK, ZCLK and SCLK edge (R21). -/
def Config.iclk : Nat := 4
def Config.kclk : Nat := 2
def Config.zclk : Nat := 64
def Config.sclk : Nat := 1000000

/-- The outbound and fence timeout, in FCLK (R69, R456). -/
def Config.timeout : Nat := 65536

/-- One monitor window in FCLK (R159). -/
def Config.monWindow : Nat := 1250000

/-- The spacing of rekeys, the life of a token and the watchdog's memory, in SCLK (R160, R304, R319). -/
def Config.second : Nat := 1250

/-- The re-sense period in SCLK (R350). -/
def Config.resense : Nat := 524288

/-- Engine operation lengths in KCLK (R341). -/
def Config.verifyK : Nat := 1048576
def Config.signK : Nat := 786432
def Config.validateK : Nat := 262144

/-- The seven stores of R311, as the STORES bit numbers. -/
def Config.storePages : Nat → Nat
  | 0 => 16384
  | 1 => 16384
  | 2 => 640
  | 3 => 256
  | 4 => 1024
  | 5 => 4096
  | 6 => 4096
  | _ => 0

end Sys2Proof
end

