-- ==== Sys2Proof/Machine/State.lean ====
section
/-! DEFINITION. The block's state: every register, FIFO, buffer, counter, mode and pin the manual gives it, as plain data. -/

namespace Sys2Proof.Machine

/-- No meaning raises a fault: every effect of the manual is modelled as a next state. -/
inductive Fault where
  /-- Raised by nobody (safe): the closed type needs one constructor. -/
  | noneRaised
deriving DecidableEq, Repr

/-- The only refusal is that of a command that has no meaning yet. -/
inductive Refusal where
  /-- Raised by an arm of exec that has no meaning yet (safe: the machine stops). -/
  | notModelled (mnemonic : String)
deriving DecidableEq, Repr

/-- The clocks: the FCLK edge line (R21), the data plane's own clock, which a freeze stops (R360), the
SCLK count (R48), the slow-domain copies (R47) and the staged slow register with the edge of its last write (R49). -/
structure Clock where
  edge : Nat
  dp : Nat
  readyEdge : Nat
  ticks : Nat
  nextSclk : Nat
  sclkCount : Word
  refreshedAt : Nat
  rekeyAgeRt : Word
  rekeyAgeRg : Word
  resenseAge : Word
  dcStaged : BitVec 20
  dcWindow : BitVec 20
  slowPend : Bool
  dcAt : Option Nat
deriving DecidableEq, Repr

/-- One register access: as the port's signals give it (R435), or the keeper's own (R62). `byte` is the block offset; `presence`
is the level of the PRESENCE input with the edge since which it has it (R328). -/
structure Access where
  write : Bool
  wide : Bool
  byte : Nat
  host : HostId
  data : DWord
  page : PageRead
  presence : Bool
  presenceAt : Nat
  keeper : Bool
deriving DecidableEq, Repr

/-- Response codes of R37, by their values. -/
inductive Code where
  | ok
  | refused
  | unmapped
  | uncorrectable
deriving DecidableEq, Repr

/-- A response as driven on RS_CODE and RS_DATA (R435). -/
structure Response where
  code : Code
  data : DWord
deriving DecidableEq, Repr

/-- What holds the ordering point (R66): a fence read, with the word a 64-bit read returns above it, a window read, or a PEND_SET whose record has
no place, with the cistern of the route in force at its edge (R233) and the response code of its access (R457). -/
inductive Hold where
  | fence (host : HostId) (port : Nat) (bound : Nat) (since : Nat) (waited : Nat) (high : Word)
  | window (rights : Bool) (idx : Nat) (word : Nat) (wide : Bool)
  | pendSet (host : HostId) (intid : Nat) (cistern : Nat) (code : Code)
deriving DecidableEq, Repr

/-- An armed guard (R57, R59): the value, the arming host, the arming edge and the register's offset. -/
structure Arm where
  value : Word
  host : HostId
  edge : Nat
  offset : Nat
deriving DecidableEq, Repr

/-- A 48-bit counter with its wrap flag, its high-word latch and its snapshot holding pair (R50, R51, R55). -/
structure Counter where
  count : BitVec 48
  ovf : Bool
  latchHi : BitVec 16
  latchOvf : Bool
  heldCount : BitVec 48
  heldOvf : Bool
deriving DecidableEq, Repr

/-- The register front (R33 to R73): register values by block offset, lock words, PAGE_FAULT records
and arm slots by frame, counters, the snapshot count and the edge of the last snapshot (R55), the ordering point, and the last
response with its edge (R435). -/
structure RegFront where
  regs : Tbl Word
  locks : Tbl Word
  faults : Tbl Word
  arms : Tbl (Option Arm)
  counters : Tbl Counter
  snapSeq : Word
  snapAt : Option Nat
  injectWritten : Bool
  lastPass : Option Nat
  hold : Option Hold
  waiting : List Access
  response : Option Response
  responseAt : Nat
deriving DecidableEq, Repr

/-- Where a fast presentation's latency is counted from (R225, R228). -/
inductive Origin where
  | doorbell (edge : Nat)
  | level (edge : Nat)
  | software (edge : Nat)
deriving DecidableEq, Repr

/-- The state of one INTID (R78): pending and active bits, the DUP mark (R366), the edge from which it
is a candidate of a round (R193, R222), its latency origin and the edge of its last set (R85). -/
structure IntState where
  pending : Bool
  active : Bool
  dup : Bool
  candFrom : Nat
  origin : Option Origin
  setAt : Option Nat
deriving DecidableEq, Repr

/-- A presentation slot's content (R78): the INTID's key, its DUP mark, the edge of the load (R99, R222)
and, for a normal presentation, the group whose win made it (R192). A key is the INTID, or for private
INTID i of core n the number 131072 + 64 n + i. -/
structure Slot where
  intid : Nat
  dup : Bool
  loadAt : Nat
  group : Nat
deriving DecidableEq, Repr

/-- An active slot's content (R77): the INTID's key and the DUP with which it was acknowledged. -/
structure ActSlot where
  intid : Nat
  dup : Bool
deriving DecidableEq, Repr

/-- The changes of a core-edge line that lags its driver by 2 FCLK (R91): the level from each edge on,
newest first. -/
abbrev Line := List (Nat × Bool)

/-- A fast presentation whose line has not yet risen (R228): the edge of the rise, the origin and the key. -/
structure LatWait where
  rise : Nat
  origin : Origin
  intid : Nat
deriving DecidableEq, Repr

/-- One target's interface, T0 to T255 and the keeper T256 (R92, R93): mask and wake enables, the
banked enables and classes, the slots, the synchronised CORE_SLEEP, the fast pointer (R217), the
target arbiter's pointer and the per-target INTID pointer (R188), the edge from which a round of each class may
be held (R100, R101, R105), the latency measurements in progress, oldest first (R228), and the three core-edge lines. -/
structure Core where
  mask : BitVec 4
  privEn : DWord
  privClass : DWord
  presN : Option Slot
  presF : Option Slot
  actN : Option ActSlot
  actF : Option ActSlot
  asleep : Bool
  wake : Bool
  fptr : Nat
  ptr : Option Nat
  pp : Nat
  fromN : Nat
  fromF : Nat
  lat : List LatWait
  lineN : Line
  lineF : Line
  lineW : Line
deriving DecidableEq, Repr

/-- What a lookup read for a doorbell: the content, the edge from which it may be used, whether it came
from the commit shadow, whether its page was uncorrectable, and whether the lead found it so
(R121, R124, R132, R390). -/
structure Looked where
  value : BitVec 128
  avail : Nat
  shadow : Bool
  poison : Bool
  err : Bool
deriving DecidableEq, Repr

/-- A doorbell held in a FIFO (R112, R118), with what R132 fixes at its acceptance edge: the selection
stamp, the port's window, PORT_CTRL and RCACHE_CTRL, the class of its INTID and, for the fast channel,
the CAM and fast-table outcome. `decodedAt` is the edge of its decode. `divert` is the reason with which a record held for a full ring or a broken
cistern leaves for the spillway (R242, R246). -/
structure Doorbell where
  id : Nat
  data : DWord
  rid : BitVec 16
  np : Bool
  acc : Nat
  accEdge : Nat
  stamp : DWord
  outside : Bool
  noCache : Bool
  fastClass : Bool
  verdict : Nat
  decodedAt : Nat
  owner : HostId
  target : Nat
  route : Option Looked
  rights : Option Looked
  hit : Bool
  divert : Option (BitVec 6)
deriving DecidableEq, Repr

/-- A repeat-cache entry (R120), with the host its requester belongs to. -/
structure RepeatEntry where
  intid : Nat
  route : DWord
  rid : BitVec 16
  host : HostId
deriving DecidableEq, Repr

/-- A non-posted doorbell that awaits its response (R122, R126): a code fixed before it settles, its code
once it has settled with the FCLK edge of that, and whether the response is to be discarded. -/
structure Awaiting where
  id : Nat
  acc : Nat
  pre : Option (BitVec 2)
  code : Option (BitVec 2)
  settledAt : Nat
  discard : Bool
deriving DecidableEq, Repr

/-- A doorbell accepted and not settled (R69), with the hosts under whose previous selection it was accepted: those to
which its requester belonged at a commit that changed SET_B at or after its acceptance (R136). -/
structure Unsettled where
  id : Nat
  rid : BitVec 16
  acc : Nat
  fast : Bool
  olds : List Nat
deriving DecidableEq, Repr

/-- A record on its way (R234): its fields, and the port and doorbell that settle with it. -/
structure Rec where
  payload : Word
  intid : Nat
  reason : BitVec 6
  tag : Byte
  rid : BitVec 16
  source : Option (Nat × Nat)
deriving DecidableEq, Repr

/-- One ingress port (R111 to R142). -/
structure Port where
  pwrOk : Bool
  masked : Bool
  normal : List Doorbell
  fast : List Doorbell
  cache : List RepeatEntry
  awaiting : List Awaiting
  unsettled : List Unsettled
  nextId : Nat
  faultQueue : List Rec
  lastNormal : Option Nat
  lastFast : Option Nat
  resp : BitVec 2
  respAt : Option Nat
  errRid : Word
  errInfo : Word
deriving DecidableEq, Repr

/-- A commit-shadow entry (R132, R133): the store, the index, the content before the write and the
write edge; no edge while only reserved. -/
structure Shadow where
  rights : Bool
  idx : Nat
  old : BitVec 128
  edge : Option Nat
deriving DecidableEq, Repr

/-- The rights gate (R128 to R146): entries, every host's SET_B, the commit shadow, the last change of
each host's selection, and the host-page fault records. -/
structure Gate where
  rights : Tbl (BitVec 128)
  setB : DWord
  shadow : List Shadow
  swapAt : Tbl (Option Nat)
  faultRid : Tbl Word
  faultInfo : Tbl Word
  cacheEmptied : Option Nat
deriving DecidableEq, Repr

/-- A fast-table entry in its three copies (R211, R216). -/
structure Ft where
  c0 : Word
  c1 : Word
  c2 : Word
deriving DecidableEq, Repr

/-- A store's bank-hash keys, journal word, rekey state and conflict monitor (R152, R159 to R166). Row r's tick
is at `baseTick` + (r − `baseRow`) × P; `asked` is a rekey that ROUTE_REKEY has asked for, `keyReady` a fresh
key in the unused slot. -/
structure Hash where
  key0 : DWord
  key1 : DWord
  sel : Bool
  gen : BitVec 16
  migActive : Bool
  migRow : Nat
  tickAt : Nat
  baseTick : Nat
  baseRow : Nat
  reserved : Bool
  reqPend : Bool
  asked : Bool
  keyReady : Bool
  spacedAt : Nat
  since : Nat
  sat : Tbl Nat
  reads : Nat
  windowAt : Nat
  monLast : Word
deriving DecidableEq, Repr

/-- The route store and its mirrors (R147 to R173, R211, R458): SRAM routes, vault-route flops, fast
table with the entries whose voted value is written back at the next edge (R216), level and event mirror, page EPOCH
copies, and both stores' hash state. -/
structure Routes where
  entries : Tbl DWord
  vault : Tbl DWord
  fast : Tbl Ft
  mirror : Tbl (BitVec 16)
  epochs : Tbl (BitVec 3)
  rt : Hash
  rg : Hash
  sweepAt : Nat
  ftBack : List Nat
  ftVoteLast : Word
  latLast : Word
deriving DecidableEq, Repr

/-- A group's state from before the present edge, kept while further rounds of that edge use it (R185,
R186): credit, age, wait, pointer, whether it has won or lost a round at this edge, and the lowest target
it has won at. -/
structure GroupEdge where
  credit : Nat
  age : Nat
  wait : Nat
  next : Nat
  won : Bool
  lost : Bool
  low : Nat
deriving DecidableEq, Repr

/-- A source group (R175, R190, R210): configuration, live arbitration state, the running hold's start
and end, pointer. -/
structure Group where
  weight : Byte
  owner : HostId
  interval : BitVec 16
  credit : Nat
  age : Nat
  wait : Nat
  used : Bool
  holdFrom : Nat
  holdEnd : Nat
  next : Nat
  snap : Option GroupEdge
deriving DecidableEq, Repr

/-- The live state of one requester of a bank, cistern-input, outbound or mailbox arbiter (R175). -/
structure Requester where
  credit : Nat
  age : Nat
  wait : Nat
  used : Bool
deriving DecidableEq, Repr

/-- An arbiter that has been used since READY: its pointer and its requesters (R174, R184). -/
structure Arbiter where
  ptr : Nat
  reqs : Tbl Requester
deriving DecidableEq, Repr

/-- A scrub access in progress (R393): the physical page, its read, whether a SCRUB pass made it, and from g + 2 on whether it
was corrected and whether its HEAVY was 1. -/
structure ScrubNow where
  page : Nat
  read : PageRead
  owned : Bool
  found : Option (Bool × Bool)
deriving DecidableEq, Repr

/-- A locked sequence in progress (R194): memory and bank as in LOCK_LAST, owner code, grant edge, last edge, for a
data-plane update the unit that makes it, whether the sequence has ended, and of a scrub access what it reads. -/
structure Lock where
  memory : Nat
  bank : Nat
  owner : Nat
  grant : Nat
  lasts : Nat
  unit : Option Nat
  ended : Bool
  scrub : Option ScrubNow := none
deriving DecidableEq, Repr

/-- A data-plane unit's page update that waits for its bank (R453): the memory by its LOCK_LAST number, the unit's
requester index and the FCLK its locked sequence lasts past the grant edge (R156). -/
structure UnitAsk where
  memory : Nat
  unit : Nat
  lasts : Nat
deriving DecidableEq, Repr

/-- The sluice (R174 to R210): groups, pointer seed, window ends, arbiters in use, locked sequences, the
data-plane units' page updates that wait, oldest first, idle credits of the last boundaries, and the last grant edge of
each bank. -/
structure Sluice where
  groups : Tbl Group
  seed : DWord
  targetWindow : Nat
  targetLast : Nat
  bankWindow : Nat
  outWindow : Nat
  mbWindow : Nat
  arbiters : Tbl (Option Arbiter)
  locks : List Lock
  units : List UnitAsk
  lockLast : Word
  refill : Tbl (Option Nat)
  grants : Tbl (Option Nat)
deriving DecidableEq, Repr

/-- The progress of a cached cistern (R237, R240, R242). -/
inductive CState where
  | level1
  | descriptor
  | control
  | notOpen
  | opened
  | broken (reason : BitVec 6)
deriving DecidableEq, Repr

/-- A record in a line buffer (R234, R236, R247): its append index, TIME and content, and the edge of its append
(R256). -/
structure Buffered where
  index : Nat
  time : BitVec 31
  appended : Nat
  item : Rec
deriving DecidableEq, Repr

/-- A descriptor-cache entry (R238, R239, R243): descriptor words, producer word, known consumed count,
line buffer, unacknowledged appends by index and edge, indices with a notify due, coalescing, refreshes (one
awaited, one wanted besides, whether an append asked for it, the TOTAL at which one served an append), the held record with its edge, the edge and
line of the last grant of the buffer, and what a command has under way. `used` orders the entries by use; `slot` is the entry's place, two to a page. -/
structure Cached where
  slot : Nat
  st : CState
  w0 : DWord
  w1 : DWord
  w2 : DWord
  cross : BitVec 16
  total : Word
  consumed : Word
  dirty : Bool
  pinned : Bool
  buffer : List Buffered
  offered : Bool
  unacked : List (Nat × Nat)
  due : List Nat
  coal : Nat
  coalAt : Option Nat
  headOut : Bool
  wanted : Bool
  asked : Bool
  fresh : Option Word
  held : Option (Rec × Nat)
  granted : Option (Nat × Nat)
  closing : Bool
  syncing : Bool
  used : Nat
deriving DecidableEq, Repr

/-- What an outbound access is for (R240, R245, R247, R253, R254, R258, R372, R419). The cmd kinds are the
keeper's own fetches (R258, R259); `respill` rewrites a spillway line that had been acknowledged before a failover (R256). -/
inductive OutKind where
  | level1 (c : Nat)
  | descriptor (c : Nat)
  | control (c : Nat)
  | cmdLevel1 (c : Nat)
  | cmdDescriptor (c : Nat)
  | cmdControl (c : Nat)
  | head (c : Nat)
  | producer (c : Nat) (word : DWord)
  | line (c : Nat) (items : List Buffered)
  | spill (items : List Buffered)
  | respill (items : List Buffered)
  | staging (chunk unit : Nat) (write : Bool)
  | image (write : Bool) (offset : Nat)
deriving DecidableEq, Repr

/-- An outbound request (R241, R437): kind, byte address, host it is checked for, one unit or a line,
write data by byte address. -/
structure OutReq where
  kind : OutKind
  addr : Nat
  host : Nat
  line : Bool
  bytes : List (Nat × Byte)
deriving DecidableEq, Repr

/-- An access granted (R437, R438, R456): its request and tag, the data-plane edge at which its address
part was taken, and whether it has timed out. -/
structure OutAccess where
  req : OutReq
  tag : Nat
  takenAt : Option Nat
  timedOut : Bool
deriving DecidableEq, Repr

/-- The spillway's live state (R253); its registers stand in the register table. `granted` is the edge and line of the last
grant of its buffer. `inside` are the spillway
records made inside the block that wait for the spillway. -/
structure Spill where
  total : Word
  dead : Bool
  buffer : List Buffered
  offered : Bool
  lastAppend : Option Nat
  granted : Option (Nat × Nat)
  inside : List Rec
deriving DecidableEq, Repr

/-- The cistern pump and the outbound port (R232 to R264, R437, R438): the cache, the use stamp, BOOT_ID, the local and miss
queues by slice, the last append edge by cistern and by local queue, tier-1 requests oldest first, re-pair staging lines, the
lines that a broken entry leaves as it is opened again (`left`), rewrites after a failover, the access named by the beat on
the request channel, the line write whose second unit is still to be taken, the edge of the last beat, and the accesses
granted and not answered. -/
structure Pump where
  cache : Tbl (Option Cached)
  clock : Nat
  bootId : BitVec 16
  localQ : Tbl (List (Nat × Rec))
  missQ : Tbl (List (Nat × Rec))
  lastAppend : Tbl (Option Nat)
  lastLocal : Tbl (Option Nat)
  spill : Spill
  tier1 : List OutReq
  staging : List OutReq
  left : List (Nat × OutReq)
  rewrites : List OutReq
  beat : Option Nat
  second : Option Nat
  beatAt : Option Nat
  issued : List OutAccess
  walkLast : Word
deriving DecidableEq, Repr

/-- One sampled wire at its asserted sense (R266): the changes of its synchronised sample, those captured and not yet shown
among them, and the changes of its filtered value, newest first. -/
structure Wire where
  syn : Line
  fil : Line
deriving DecidableEq, Repr

/-- A vault pair's clocked state (R268): the edge at which the running disagreement began (its count is
the edges since, plus one), whether it has reached DISC, the changes of P_n, newest first, which wire came
first, whether its latch Z_n has been seen (R273), the edge at which it was seen while its set is still to be made, and
the last edge at which a set was made for it. -/
structure Pair where
  since : Option Nat
  tamper : Bool
  pl : Line
  firstB : Bool
  seen : Bool
  zAt : Option Nat
  setAt : Option Nat
deriving DecidableEq, Repr

/-- One well's STBY island (R270, R277): zeroize latches and enables, discrepancy latches, level
latches, WAKE latch, standby bit, the copies made at standby entry, and the last clocked values of HEALTH and FAULT. -/
structure Island where
  z : Byte
  zen : Byte
  q : Byte
  levels : BitVec 56
  wake : Bool
  standby : Bool
  lvEn : BitVec 56
  lvPol : BitVec 56
  wakeMask : BitVec 56
  health : Word
  fault : Bool
deriving DecidableEq, Repr

/-- Level and vault inputs and standby (R265 to R286). `dirty` lists the pairs to compute anew, each with the edge at which, and
whether its service begins there; `sweepAt` is the last edge of a sweep and `brokeAt` the last at which one broke locks. -/
structure Levels where
  wires : Tbl Wire
  levelSetAt : Tbl (Option Nat)
  pairs : Tbl Pair
  dirty : List (Nat × Nat × Bool)
  sweepAt : Option Nat
  brokeAt : Option Nat
  discLast : Word
  islandA : Island
  islandB : Island
  wakeCause : Word
  stbyOk : Bool
  rndHealth : Bool
  presence : Bool
deriving DecidableEq, Repr

/-- Mailbox states of R289. -/
inductive MbState where
  | idle
  | queued
  | running
  | done
deriving DecidableEq, Repr

/-- A mailbox (R289): its state and its 4 KiB of bytes, and what MB_STATE shows. -/
structure Mailbox where
  st : MbState
  bytes : Tbl Byte
  opcode : Byte
  seq : BitVec 16
deriving DecidableEq, Repr

/-- A submitted command as sampled at its submit edge (R290): header fields, payload, the change staged
at that edge (R336) and the synchronised PRESENCE (R328). -/
structure Cmd where
  host : Nat
  opcode : Byte
  flags : Byte
  len : Nat
  seq : BitVec 16
  top : Byte
  payload : List Byte
  stagedAt : Option Nat
  presence : Bool
  factoryClean : Bool
  unreadable : Bool
deriving DecidableEq, Repr

/-- What the running command is doing (R300): taken and not begun, writing items, waiting for random
words, for an engine operation, for another unit, or at a step boundary. -/
inductive Phase where
  | fresh
  | items
  | random
  | engine
  | waiting
deriving DecidableEq, Repr

/-- The command the keeper runs (R297): its phase, the items still to write with the count written, the
step, the edge of its first request for random words while it waits for them (R306), and the accumulators of the commands
that need them. -/
structure Run where
  cmd : Cmd
  phase : Phase
  todo : List (List Byte)
  written : Nat
  step : Nat
  granted : Option Nat
  marked : Bool
  askedAt : Option Nat
  acc : List Nat
deriving DecidableEq, Repr

/-- An entry of the engine queue (R296): a command, with the edge its engine operation began once it is
at the head and running. -/
structure EngineEntry where
  run : Run
  entered : Nat
  started : Option Nat
  lasts : Nat
  ended : Bool
deriving DecidableEq, Repr

/-- A live resume token (R302, R303) with the preempted command. -/
structure Token where
  tokenId : BitVec 16
  opcode : Byte
  step : Nat
  issued : Nat
  run : Run
deriving DecidableEq, Repr

/-- The staged change (R332). -/
structure Staged where
  stageId : Word
  kind : Byte
  body : List Byte
  nonce : List Byte
  windowEnd : Word
  slotDigest : List Byte
  userEpoch : Byte
  digest : List Byte
  approvals : List Nat
deriving DecidableEq, Repr

/-- An officer's public key (R326), as two integers. -/
structure PubKey where
  x : Nat
  y : Nat
deriving DecidableEq, Repr

/-- How a command's own fetch of a descriptor ended (R240, R258, R259): the control block was read, the
level-1 entry or descriptor is not valid, a read failed or was not permitted, or the descriptor is bad. -/
inductive FetchEnd where
  | read
  | notValid
  | failed
  | bad
deriving DecidableEq, Repr

/-- A fetch that the keeper makes for a command: the cistern, the descriptor words read, the control block,
and its end. -/
structure CmdFetch where
  cistern : Nat
  w0 : DWord
  w1 : DWord
  w2 : DWord
  consumed : DWord
  producer : DWord
  ended : Option FetchEnd
deriving DecidableEq, Repr

/-- The keeper (R287 to R351). `words` are the random words received for the waiting user (R306). -/
structure Keeper where
  boxes : Tbl Mailbox
  submitted : Tbl (Option Cmd)
  run : Option Run
  engine : List EngineEntry
  tokens : Tbl (Option Token)
  nextToken : BitVec 16
  words : List DWord
  wordsAt : Option Nat
  serviceAt : Nat
  held : Bool
  heldByRam : Bool
  restarting : Bool
  restartAt : Nat
  expiries : List Nat
  intLast : Word
  staged : Option Staged
  nextStage : Word
  endedStages : List Word
  officers : Tbl (Option PubKey)
  fetch : Option CmdFetch
  digesting : Bool
deriving DecidableEq, Repr

/-- What concerns one well alone (R17, R361, R389, R403): whether it is powered, running or held, its
poison map by store and page, its last signature, its frames, its self-check report, its start-up and the identifier of
its last re-pair attempt (R371). Of its frames: the edge from which the other well counts its heartbeat, whether a loss of it
has been raised since (R357), the edge of the last valid one (R380), and of the last checkpoint's whether it has arrived, with
what signature, and whether and when it failed its CRC first (R356). -/
structure Well where
  power : Bool
  held : Bool
  poison : Tbl Bool
  errs : Tbl Nat
  uncorrLast : Word
  sig : DWord
  sigK : Nat
  invertNext : Bool
  mutedUntil : Nat
  frameAt : Nat
  hbLost : Bool
  validAt : Option Nat
  frameIn : Bool
  frameSig : DWord
  resend : Bool
  resendAt : Nat
  report : Option Bool
  step : Nat
  stepAt : Nat
  failed : Nat
  repairId : Word
deriving DecidableEq, Repr

/-- An entry of the acknowledge journal (R365). -/
structure AckEntry where
  edge : Nat
  target : Nat
  fast : Bool
  intid : Nat
  origin : Option Origin
deriving DecidableEq, Repr

/-- A registered failover trigger (R359): its code and detection edge, and the wells that what was raised at that edge makes
unhealthy without a self-check, whatever code is recorded (R361, R364). -/
structure Trigger where
  cause : Nat
  edge : Nat
  leadBad : Bool
  mirrorBad : Bool
deriving DecidableEq, Repr

/-- PAIR_STATE of R316. -/
inductive PairState where
  | paired
  | divergent
  | repairing
  | untrusted
  | absent
deriving DecidableEq, Repr

/-- A failover sequence in progress (R363): freeze edge and, once the reports are in, decision edge and outcome;
`stage` is 0 before the decision edge, 1 from it on, 2 once the lead-select multiplexer has switched. `replays` are the
acknowledges still to be replayed and `replayed` how many have been (R366); `keeperOn` says that the keeper has not come to its
next service point yet (R360). -/
structure Failover where
  trigger : Trigger
  freeze : Nat
  decided : Option Nat
  promoted : Bool
  stage : Nat
  replays : List AckEntry
  replayed : Nat
  keeperOn : Bool
deriving DecidableEq, Repr

/-- A re-pair attempt (R371 to R377): the phase, key and identifier, the next chunk to stage and to
open, the number of slots, the pages that carry a FWD bit, the STRENGTHs of the start frame, the page writes on the link, each
with its page, the edge at which it lands and its POISON state, and the lines of slots read back, each with its chunk and line. -/
structure Repair where
  phase : Nat
  key : List Byte
  repairId : Word
  staged : Nat
  opened : Nat
  slots : Nat
  base : Nat
  refillAt : Option Nat
  fwd : Tbl Bool
  started : Nat
  strengths : List Nat
  flying : List (Nat × Nat × Bool)
  back : List (Nat × Nat × List Byte)
deriving DecidableEq, Repr

/-- The twin link and the lead-select unit (R352 to R382). Outbound lines acknowledged in the last two
checkpoint intervals are kept for the rewrites of R256; `answers` are the memory responses, and what the ports and cores
do at their own pins, held during a freeze (R360). `pageJournal` are the last 4,096 page writes, the newest first, and `votes`
the edges of the last 1,024 at which a TMR disagreement was counted (R361); `holdDue` is the well to be held in well reset and
the edge (R368), and `repairStatus` what the last re-pair attempt to end had REPAIR return (R377). -/
structure Twin where
  leadB : Bool
  pair : PairState
  untrusted : Bool
  trigger : Option Trigger
  failover : Option Failover
  fabricFault : Bool
  swapPend : Option Nat
  journal : List AckEntry
  pageJournal : List Nat
  votes : List Nat
  holdDue : Option (Bool × Nat)
  recent : List (Nat × OutAccess)
  answers : List Instr
  lastEvent : Word
  lastCompare : DWord
  comparedK : Nat
  repair : Option Repair
  retries : Nat
  failCause : Nat
  repairStatus : Nat
  wellA : Well
  wellB : Well
deriving DecidableEq, Repr

/-- The re-encode journal (R398); `olds` lists the stores whose STRENGTH has taken its new value and whose re-encode is still
to come, each with the strength that its pages have (R339, R399). -/
structure Reencode where
  store : Nat
  oldT : Nat
  newT : Nat
  next : Nat
  target : Nat
  rest : List Nat
  olds : Tbl (Option Nat)
  running : Bool
deriving DecidableEq, Repr

/-- A SCRUB pass under way (R394): the next page of each bank, by 16 × store + bank, and the summary's counts. -/
structure ScrubPass where
  stores : List Nat
  next : Tbl Nat
  pages : Nat
  corrected : Nat
  heavy : Nat
  uncorr : Nat
  first : Option Nat
deriving DecidableEq, Repr

/-- A store's background walker (R392). -/
structure Walker where
  next : Nat
  passes : BitVec 15
  wants : Bool
  tickedAt : Nat
deriving DecidableEq, Repr

/-- Stored-state integrity (R383 to R402). -/
structure Integrity where
  strength : Tbl Nat
  journal : Option Reencode
  walkers : Tbl Walker
  pass : Option ScrubPass
  errLast : Word
  rebuilds : List (Nat × Nat)
deriving DecidableEq, Repr

/-- The fuse array and the seal unit's one-time array (R345, R348, R414): words by number, each with
its copies as margin reads. The word numbers stand in Machine/Fuses.lean. -/
structure Fuses where
  array : Tbl (List FuseCopy)
  shadow : Tbl (List FuseCopy)
  lifecycleAdd : BitVec 2
  epochAdd : Nat
  programming : List (Nat × Nat)
  programmedAt : Nat
  afterTarget : Nat
  resenseTick : Nat
  resensing : Bool
  sensedAt : Nat
  sensed : Bool
deriving DecidableEq, Repr

/-- Where a sealed-image command stands (R417, R418). -/
inductive ImageStep where
  | headers
  | auth
  | seal
  | apply
deriving DecidableEq, Repr

/-- A sealed-image command in progress (R414 to R419): which command, the step, the slot being worked
on, the slots still to try, the two header lines read, the byte offset reached, the GCM accumulator,
the header in use, the plaintext not yet parsed (of a save, all of it as the save began), the section being
applied with its bytes left and taken and the sections done, the order key of the last register, the best slot
with its generation, whether a value the image carries has changed, whether the restore filled officer slots, and
whether an access of its own is awaited. -/
structure Image where
  restore : Bool
  step : ImageStep
  slot : Nat
  others : List Nat
  heads : List (List Byte)
  offset : Nat
  ghash : Nat
  header : List Byte
  plain : List Byte
  sectType : Nat
  sectLeft : Nat
  sectPos : Nat
  sectDone : Nat
  lastReg : Nat
  best : Option (Nat × Nat)
  changed : Bool
  filledOfficers : Bool
  asked : Bool
deriving DecidableEq, Repr

/-- What kind of reset start-up follows (R407, R411). -/
inductive ResetKind where
  | powerOn
  | warm
  | wakeUp
deriving DecidableEq, Repr

/-- Start-up, journals, images, trims and test access (R403 to R432). `tapInForce` is the delivery-wire
tap trim taken at the last READY (R421): 16 for the factory taps, else 8 plus the user's offset. -/
structure Startup where
  ready : Bool
  inReset : Bool
  kind : ResetKind
  releasedAt : Nat
  startStat : Word
  drawn : List DWord
  katWords : List DWord
  rndTest : Option Nat
  rndQuiet : Nat
  restoreJournal : Bool
  factoryStep : Nat
  imageLast : Word
  image : Option Image
  tapInForce : Nat
  refilled : Bool
  factoryDone : Bool
deriving DecidableEq, Repr

/-- The IEEE 1149.1 test access port (R426): controller state 0 to 15, the instruction in force, the
register being shifted, and the bits of the instruction register shifted out since its capture. -/
structure Tap where
  state : Nat
  inForce : TapCode
  shift : Word
  tdo : Option Bool
  shifts : Nat
  irShift : Nat
deriving DecidableEq, Repr

/-- The state from before the present FCLK edge, which every action sampled at that edge sees (R22). -/
structure Before where
  clock : Clock
  front : RegFront
  ints : Tbl IntState
  cores : Tbl Core
  ports : Tbl Port
  gate : Gate
  routes : Routes
  sluice : Sluice
  pump : Pump
  levels : Levels
  keeper : Keeper
  twin : Twin
  integrity : Integrity
  fuses : Fuses
  startup : Startup
deriving DecidableEq, Repr

/-- The block (R17: the state both wells hold is held once, what may differ stands in `twin.wellA` and
`twin.wellB`). `raised` are the fabric events of the command in progress; it is empty between commands. `ovfs` is how many
counters the present edge wraps: their event is raised once the edge is over, since a write at the edge may replace a count
that wrapped (R53).
`before` is the state from before the present edge, none where nothing has changed at it yet.
`pending` is the queue of waiting commands, first in first out. -/
structure State where
  clock : Clock
  front : RegFront
  ints : Tbl IntState
  cores : Tbl Core
  ports : Tbl Port
  gate : Gate
  routes : Routes
  sluice : Sluice
  pump : Pump
  levels : Levels
  keeper : Keeper
  twin : Twin
  integrity : Integrity
  fuses : Fuses
  startup : Startup
  tap : Tap
  raised : List Nat
  ovfs : Nat
  before : Option Before
  pending : List Instr
deriving DecidableEq, Repr

/-! ### The state right after reset

`State.reset` is the block while power-on reset is asserted, before PORST_N is released for the first time
(R403, R404, R441): registers at the reset values of their field maps, stores as the fill leaves them,
the STBY islands as the always-on supply's own reset leaves them (R272). Where the manual gives a flop no
reset value, the value is zero or empty (log entry 3). -/

/-- A core's interface at reset (R93, R107, R184): both classes masked, both wakes enabled, every slot empty. -/
def Core.reset : Core where
  mask := 15#4
  privEn := 0#64
  privClass := 0#64
  presN := none
  presF := none
  actN := none
  actF := none
  asleep := false
  wake := false
  fptr := 0
  ptr := none
  pp := 0
  fromN := 0
  fromF := 0
  lat := []
  lineN := []
  lineF := []
  lineW := []

/-- A port at reset (R127, R434): nothing held, DB_RESP IDLE, PORT_PWR_OK not yet seen high. -/
def Port.reset : Port where
  pwrOk := false
  masked := false
  normal := []
  fast := []
  cache := []
  awaiting := []
  unsettled := []
  nextId := 0
  faultQueue := []
  lastNormal := none
  lastFast := none
  resp := 0#2
  respAt := none
  errRid := 0#32
  errInfo := 0#32

/-- A counter at reset (R50). -/
def Counter.reset : Counter where
  count := 0#48
  ovf := false
  latchHi := 0#16
  latchOvf := false
  heldCount := 0#48
  heldOvf := false

/-- An INTID that is Inactive and has never been set (R78, R404). -/
def IntState.reset : IntState where
  pending := false
  active := false
  dup := false
  candFrom := 0
  origin := none
  setAt := none

/-- A group at power-on reset (R206). -/
def Group.reset : Group where
  weight := 0#8
  owner := 0#6
  interval := 0#16
  credit := 0
  age := 0
  wait := 0
  used := false
  holdFrom := 0
  holdEnd := 0
  next := 0
  snap := none

/-- A requester with no live arbitration state (R175, R206). -/
def Requester.reset : Requester where
  credit := 0
  age := 0
  wait := 0
  used := false

/-- A store's hash keys, journal word and monitor at power-on reset (R152, R171). -/
def Hash.reset : Hash where
  key0 := 0#64
  key1 := 0#64
  sel := false
  gen := 0#16
  migActive := false
  migRow := 0
  tickAt := 0
  baseTick := 0
  baseRow := 0
  reserved := false
  reqPend := false
  asked := false
  keyReady := false
  spacedAt := 0
  since := 0
  sat := []
  reads := 0
  windowAt := 0
  monLast := 0#32

/-- One fast-table entry whose three copies agree (R216). -/
def Ft.all (w : Word) : Ft := { c0 := w, c1 := w, c2 := w }

/-- The fast table after power-on reset: zero but for EN of entries 64 to 71 (R211, R218). -/
def fastReset : Tbl Ft :=
  [(64, Ft.all 0x80000000#32), (65, Ft.all 0x80000000#32), (66, Ft.all 0x80000000#32),
   (67, Ft.all 0x80000000#32), (68, Ft.all 0x80000000#32), (69, Ft.all 0x80000000#32),
   (70, Ft.all 0x80000000#32), (71, Ft.all 0x80000000#32)]

/-- A level or vault wire that has sampled nothing yet (R266, R409): deasserted. -/
def Wire.reset : Wire where
  syn := []
  fil := []

/-- A vault pair with no disagreement and not asserted (R268). -/
def Pair.reset : Pair where
  since := none
  tamper := false
  pl := []
  firstB := false
  seen := false
  zAt := none
  setAt := none

/-- A STBY island after the loss of the always-on supply (R272): no latch set; ZEN_n 1 (R270). -/
def Island.reset : Island where
  z := 0#8
  zen := 0xFF#8
  q := 0#8
  levels := 0#56
  wake := false
  standby := false
  lvEn := 0#56
  lvPol := 0#56
  wakeMask := 0#56
  health := 0#32
  fault := false

/-- A mailbox at reset (R289, R321). -/
def Mailbox.reset : Mailbox where
  st := .idle
  bytes := []
  opcode := 0#8
  seq := 0#16

/-- A well before power-on reset is released (R403, R407): not powered, not started. -/
def Well.reset : Well where
  power := false
  held := false
  poison := []
  errs := []
  uncorrLast := 0#32
  sig := 0xFFFFFFFFFFFFFFFF#64
  sigK := 0
  invertNext := false
  mutedUntil := 0
  frameAt := 0
  hbLost := false
  validAt := none
  frameIn := false
  frameSig := 0#64
  resend := false
  resendAt := 0
  report := none
  step := 0
  stepAt := 0
  failed := 0
  repairId := 0#32

/-- A store's walker at reset (R392). -/
def Walker.reset : Walker where
  next := 0
  passes := 0#15
  wants := false
  tickedAt := 0

/-- The clocks at reset (R21, R48): edge 0 is the first FCLK edge after release. -/
def Clock.reset : Clock where
  edge := 0
  dp := 0
  readyEdge := 0
  ticks := 0
  nextSclk := 0
  sclkCount := 0#32
  refreshedAt := 0
  rekeyAgeRt := 0#32
  rekeyAgeRg := 0#32
  resenseAge := 0#32
  dcStaged := 0#20
  dcWindow := 0#20
  slowPend := false
  dcAt := none

/-- The register front at reset (R42, R50, R63): every register at its reset value. -/
def RegFront.reset : RegFront where
  regs := []
  locks := []
  faults := []
  arms := []
  counters := []
  snapSeq := 0#32
  snapAt := none
  injectWritten := false
  lastPass := none
  hold := none
  waiting := []
  response := none
  responseAt := 0

/-- The rights gate at reset: every entry zero (R397), every host on half A (R143). -/
def Gate.reset : Gate where
  rights := []
  setB := 0#64
  shadow := []
  swapAt := []
  faultRid := []
  faultInfo := []
  cacheEmptied := none

/-- The route store at reset (R149, R397). -/
def Routes.reset : Routes where
  entries := []
  vault := []
  fast := fastReset
  mirror := []
  epochs := []
  rt := Hash.reset
  rg := Hash.reset
  sweepAt := 64
  ftBack := []
  ftVoteLast := 0#32
  latLast := 0#32

/-- The sluice at reset (R206, R207). -/
def Sluice.reset : Sluice where
  groups := []
  seed := 0#64
  targetWindow := 0
  targetLast := 0
  bankWindow := 0
  outWindow := 0
  mbWindow := 0
  arbiters := []
  locks := []
  units := []
  lockLast := 0#32
  refill := []
  grants := []

/-- The spillway's live state at reset (R253, R260). -/
def Spill.reset : Spill where
  total := 0#32
  dead := false
  buffer := []
  offered := false
  lastAppend := none
  granted := none
  inside := []

/-- The cistern pump at reset (R257). -/
def Pump.reset : Pump where
  cache := []
  clock := 0
  bootId := 0#16
  localQ := []
  missQ := []
  lastAppend := []
  lastLocal := []
  spill := Spill.reset
  tier1 := []
  staging := []
  left := []
  rewrites := []
  beat := none
  second := none
  beatAt := none
  issued := []
  walkLast := 0#32

/-- Level and vault inputs and standby at reset (R265, R277, R282, R285). -/
def Levels.reset : Levels where
  wires := []
  levelSetAt := []
  pairs := []
  dirty := []
  sweepAt := none
  brokeAt := none
  discLast := 0#32
  islandA := Island.reset
  islandB := Island.reset
  wakeCause := 0#32
  stbyOk := false
  rndHealth := false
  presence := false

/-- The keeper at reset (R321, R322). -/
def Keeper.reset : Keeper where
  boxes := []
  submitted := []
  run := none
  engine := []
  tokens := []
  nextToken := 1#16
  words := []
  wordsAt := none
  serviceAt := 0
  held := false
  heldByRam := false
  restarting := false
  restartAt := 0
  expiries := []
  intLast := 0#32
  staged := none
  nextStage := 1#32
  endedStages := []
  officers := []
  fetch := none
  digesting := false

/-- The twin link at reset (R19, R380). -/
def Twin.reset : Twin where
  leadB := false
  pair := .paired
  untrusted := false
  trigger := none
  failover := none
  fabricFault := false
  swapPend := none
  journal := []
  pageJournal := []
  votes := []
  holdDue := none
  recent := []
  answers := []
  lastEvent := 0#32
  lastCompare := 0#64
  comparedK := 0
  repair := none
  retries := 0
  failCause := 0
  repairStatus := 0
  wellA := Well.reset
  wellB := Well.reset

/-- Stored-state integrity at reset (R385, R400): every store at STRENGTH 4, the unlisted value. -/
def Integrity.reset : Integrity where
  strength := []
  journal := none
  walkers := []
  pass := none
  errLast := 0#32
  rebuilds := []

/-- The fuse array as the model takes it: every word reads its default on both margins, three copies
alike (log entry 8). -/
def Fuses.reset : Fuses where
  array := []
  shadow := []
  lifecycleAdd := 0#2
  epochAdd := 0
  programming := []
  programmedAt := 0
  afterTarget := 0
  resenseTick := 0
  resensing := false
  sensed := false
  sensedAt := 0

/-- Start-up state while power-on reset is asserted (R403, R428). -/
def Startup.reset : Startup where
  ready := false
  inReset := true
  kind := .powerOn
  releasedAt := 0
  startStat := 0#32
  drawn := []
  katWords := []
  rndTest := none
  rndQuiet := 0
  restoreJournal := false
  factoryStep := 0
  imageLast := 0#32
  image := none
  tapInForce := 16
  refilled := false
  factoryDone := false

/-- The test access port in Test-Logic-Reset with IDCODE in force (R426, IEEE 1149.1; log entry 6). -/
def Tap.reset : Tap where
  state := 0
  inForce := .idcode
  shift := 0#32
  tdo := none
  shifts := 0
  irShift := 0

/-- The block right after reset: PORST_N low, nothing commanded, no command waiting. -/
def State.reset : State where
  clock := Clock.reset
  front := RegFront.reset
  ints := []
  cores := []
  ports := []
  gate := Gate.reset
  routes := Routes.reset
  sluice := Sluice.reset
  pump := Pump.reset
  levels := Levels.reset
  keeper := Keeper.reset
  twin := Twin.reset
  integrity := Integrity.reset
  fuses := Fuses.reset
  startup := Startup.reset
  tap := Tap.reset
  raised := []
  ovfs := 0
  before := none
  pending := []

end Sys2Proof.Machine
end

