-- ==== Sys2Proof/Machine/Ops.lean ====
section
/-! DEFINITION. The named operations over sparse tables, structures, counters and events that every meaning is built from. -/

namespace Sys2Proof.Machine

/-! ### Sparse tables -/

/-- The entry of a table at an index; an index that is not listed reads `d`. -/
def look {α : Type} (d : α) : Tbl α → Nat → α
  | [], _ => d
  | (j, v) :: t, k => if k = j then v else look d t k

/-- A table with one entry changed, kept in its form: indices rising, no entry equal to `d`. -/
def ins {α : Type} [DecidableEq α] (d : α) : Tbl α → Nat → α → Tbl α
  | [], k, v => if v = d then [] else [(k, v)]
  | (j, w) :: t, k, v =>
    if k < j then
      if v = d then (j, w) :: t else (k, v) :: (j, w) :: t
    else if k = j then
      if v = d then t else (k, v) :: t
    else
      (j, w) :: ins d t k v

/-- The indices of a table rise strictly from above `lo`. -/
def rising {α : Type} : Nat → Tbl α → Bool
  | _, [] => true
  | lo, (j, _) :: t => decide (lo ≤ j) && rising (j + 1) t

/-- The canonical form: indices rise and no entry equals what an unlisted index reads as. -/
def tableWf {α : Type} [DecidableEq α] (d : Nat → α) (t : Tbl α) : Bool :=
  rising 0 t && t.all fun e => decide (e.2 ≠ d e.1)

/-- The indices a table lists, in rising order. -/
def keys {α : Type} (t : Tbl α) : List Nat := t.map Prod.fst

/-! ### Lists of indices -/

/-- An index put in its place in a rising list, once. -/
def putIn (k : Nat) : List Nat → List Nat
  | [] => [k]
  | j :: t => if k < j then k :: j :: t else if k = j then j :: t else j :: putIn k t

/-- A list's members in rising order, each once. -/
def sorted : List Nat → List Nat
  | [] => []
  | k :: t => putIn k (sorted t)

/-! ### Bits of words -/

/-- Bits [hi:lo] of a word as a number. -/
def bits {w : Nat} (x : BitVec w) (hi lo : Nat) : Nat := (x.toNat >>> lo) % 2 ^ (hi + 1 - lo)

/-- Bit i of a word. -/
def bit {w : Nat} (x : BitVec w) (i : Nat) : Bool := x.getLsbD i

/-- A word with bit i set to b. -/
def setBit {w : Nat} (x : BitVec w) (i : Nat) (b : Bool) : BitVec w :=
  let m := BitVec.ofNat w (2 ^ i)
  if b then x ||| m else x &&& ~~~m

/-- A number placed at bit lo of a word. -/
def at32 (lo n : Nat) : Word := BitVec.ofNat 32 (n <<< lo)

/-- One bit placed at bit lo of a word. -/
def flag32 (lo : Nat) (b : Bool) : Word := if b then at32 lo 1 else 0#32

/-- The low word of a 64-bit value. -/
def loWord (d : DWord) : Word := d.setWidth 32

/-- The high word of a 64-bit value. -/
def hiWord (d : DWord) : Word := (d >>> 32).setWidth 32

/-- Two words joined, the low word first. -/
def joinWords (lo hi : Word) : DWord := (hi ++ lo)

/-- Little-endian bytes of a number (R415, R395). -/
def leBytes : Nat → Nat → List Byte
  | 0, _ => []
  | n + 1, v => BitVec.ofNat 8 v :: leBytes n (v / 256)

/-- The number that little-endian bytes spell. -/
def ofLe : List Byte → Nat
  | [] => 0
  | b :: t => b.toNat + 256 * ofLe t

/-- Big-endian bytes of a number. -/
def beBytes (n v : Nat) : List Byte := (leBytes n v).reverse

/-- The number that big-endian bytes spell. -/
def ofBe (l : List Byte) : Nat := ofLe l.reverse

/-- A saturating count. -/
def sat (limit n : Nat) : Nat := if n < limit then n else limit

/-- A field value of 0 acts as 1. -/
def atLeast1 (n : Nat) : Nat := if n = 0 then 1 else n

/-! ### Frames (R73) and INTID keys -/

/-- Global, host, core and mailbox frames by index: block offset / 0x4000 for globals, then 0x40, 0x80
and 0x180 on. -/
abbrev fBlock : Nat := 0x00
abbrev fReset : Nat := 0x01
abbrev fPort (p : Nat) : Nat := 0x02 + p
abbrev fGate : Nat := 0x12
abbrev fRoute : Nat := 0x13
abbrev fReservoir : Nat := 0x14
abbrev fFast : Nat := 0x15
abbrev fSluice : Nat := 0x16
abbrev fGroup (k : Nat) : Nat := 0x17 + k
abbrev fPump : Nat := 0x1F
abbrev fLevel : Nat := 0x20
abbrev fStandby : Nat := 0x21
abbrev fKeeper : Nat := 0x22
abbrev fTwin : Nat := 0x23
abbrev fIntegrity : Nat := 0x24
abbrev fFuse : Nat := 0x25
abbrev fOut : Nat := 0x26
abbrev fLife : Nat := 0x27
abbrev fHost (n : Nat) : Nat := 0x40 + n
abbrev fCore (n : Nat) : Nat := 0x80 + n

/-- The key of private INTID i of core n; a shared INTID is its own key (R74). -/
def privKey (n i : Nat) : Nat := 131072 + 64 * n + i

/-- The INTID number a key shows in a register (R93). -/
def intidOf (key : Nat) : Nat := if key < 131072 then key else (key - 131072) % 64

/-- The core of a private key. -/
def coreOfKey (key : Nat) : Nat := (key - 131072) / 64

/-- The key of an INTID named on core n's page. -/
def keyOn (n intid : Nat) : Nat := if intid < 64 then privKey n intid else intid

/-! ### The structures of the state, one home each -/

def State.core (s : State) (n : Nat) : Core := look Core.reset s.cores n
def State.setCore (s : State) (n : Nat) (c : Core) : State :=
  { s with cores := ins Core.reset s.cores n c }
def State.modCore (s : State) (n : Nat) (f : Core → Core) : State := s.setCore n (f (s.core n))

def State.port (s : State) (p : Nat) : Port := look Port.reset s.ports p
def State.setPort (s : State) (p : Nat) (x : Port) : State :=
  { s with ports := ins Port.reset s.ports p x }
def State.modPort (s : State) (p : Nat) (f : Port → Port) : State := s.setPort p (f (s.port p))

def State.int (s : State) (k : Nat) : IntState := look IntState.reset s.ints k
def State.setInt (s : State) (k : Nat) (x : IntState) : State :=
  { s with ints := ins IntState.reset s.ints k x }
def State.modInt (s : State) (k : Nat) (f : IntState → IntState) : State := s.setInt k (f (s.int k))

def State.group (s : State) (g : Nat) : Group := look Group.reset s.sluice.groups g
def State.setGroup (s : State) (g : Nat) (x : Group) : State :=
  { s with sluice.groups := ins Group.reset s.sluice.groups g x }
def State.modGroup (s : State) (g : Nat) (f : Group → Group) : State := s.setGroup g (f (s.group g))

def State.counter (s : State) (key : Nat) : Counter := look Counter.reset s.front.counters key
def State.setCounter (s : State) (key : Nat) (c : Counter) : State :=
  { s with front.counters := ins Counter.reset s.front.counters key c }

def State.lock (s : State) (frame : Nat) : Word := look 0#32 s.front.locks frame
def State.fault (s : State) (frame : Nat) : Word := look 0#32 s.front.faults frame
def State.setFault (s : State) (frame : Nat) (w : Word) : State :=
  { s with front.faults := ins 0#32 s.front.faults frame w }
def State.arm (s : State) (frame : Nat) : Option Arm := look none s.front.arms frame
def State.setArm (s : State) (frame : Nat) (a : Option Arm) : State :=
  { s with front.arms := ins none s.front.arms frame a }

def State.routeEntry (s : State) (i : Nat) : DWord := look 0#64 s.routes.entries i
def State.rightsEntry (s : State) (r : Nat) : BitVec 128 := look 0#128 s.gate.rights r
def State.ft (s : State) (i : Nat) : Ft := look (Ft.all 0#32) s.routes.fast i
def State.setFt (s : State) (i : Nat) (f : Ft) : State :=
  { s with routes.fast := ins (Ft.all 0#32) s.routes.fast i f }

def State.wire (s : State) (i : Nat) : Wire := look Wire.reset s.levels.wires i
def State.setWire (s : State) (i : Nat) (w : Wire) : State :=
  { s with levels.wires := ins Wire.reset s.levels.wires i w }
def State.pair (s : State) (n : Nat) : Pair := look Pair.reset s.levels.pairs n
def State.setPair (s : State) (n : Nat) (p : Pair) : State :=
  { s with levels.pairs := ins Pair.reset s.levels.pairs n p }

def State.box (s : State) (n : Nat) : Mailbox := look Mailbox.reset s.keeper.boxes n
def State.setBox (s : State) (n : Nat) (m : Mailbox) : State :=
  { s with keeper.boxes := ins Mailbox.reset s.keeper.boxes n m }

def State.cached (s : State) (c : Nat) : Option Cached := look none s.pump.cache c
def State.setCached (s : State) (c : Nat) (x : Option Cached) : State :=
  { s with pump.cache := ins none s.pump.cache c x }
def State.modCached (s : State) (c : Nat) (f : Cached → Cached) : State :=
  s.setCached c ((s.cached c).map f)
def State.localQ (s : State) (slice : Nat) : List (Nat × Rec) := look [] s.pump.localQ slice
def State.setLocalQ (s : State) (slice : Nat) (q : List (Nat × Rec)) : State :=
  { s with pump.localQ := ins [] s.pump.localQ slice q }
def State.missQ (s : State) (slice : Nat) : List (Nat × Rec) := look [] s.pump.missQ slice
def State.setMissQ (s : State) (slice : Nat) (q : List (Nat × Rec)) : State :=
  { s with pump.missQ := ins [] s.pump.missQ slice q }

/-- The two wells by number: 0 Well A, 1 Well B. -/
def State.well (s : State) (b : Bool) : Well := if b then s.twin.wellB else s.twin.wellA
def State.setWell (s : State) (b : Bool) (w : Well) : State :=
  if b then { s with twin.wellB := w } else { s with twin.wellA := w }
def State.modWell (s : State) (b : Bool) (f : Well → Well) : State := s.setWell b (f (s.well b))
def State.lead (s : State) : Well := s.well s.twin.leadB
def State.mirror (s : State) : Well := s.well (!s.twin.leadB)
def State.island (s : State) (b : Bool) : Island := if b then s.levels.islandB else s.levels.islandA
def State.setIsland (s : State) (b : Bool) (i : Island) : State :=
  if b then { s with levels.islandB := i } else { s with levels.islandA := i }
def State.modIslands (s : State) (f : Island → Island) : State :=
  { s with levels.islandA := f s.levels.islandA, levels.islandB := f s.levels.islandB }

/-! ### Counters and events (R44, R50 to R54) -/

/-- The key of counter i of a frame. -/
def ckey (frame i : Nat) : Nat := frame * 64 + i

/-- A fabric event raised at this edge; its set is applied when the command's other effects are done
(R44, R85). -/
def State.raise (s : State) (fev : Nat) : State := { s with raised := s.raised ++ [fev] }

/-- A counter incremented by k: the sum modulo 2^48 and whether it wrapped (R53). -/
def Counter.add (c : Counter) (k : Nat) : Counter × Bool :=
  let n := c.count.toNat + k
  ({ c with count := BitVec.ofNat 48 n, ovf := c.ovf || decide (2 ^ 48 ≤ n) }, decide (2 ^ 48 ≤ n))

/-- Counter i of a frame counts k; a wrap sets OVF, and its edge raises FEV_COUNTER_OVF (R53). -/
def State.countBy (s : State) (frame i k : Nat) : State :=
  let r := (s.counter (ckey frame i)).add k
  let s := s.setCounter (ckey frame i) r.1
  if r.2 then { s with ovfs := s.ovfs + 1 } else s

/-- Counter i of a frame counts one. -/
def State.count (s : State) (frame i : Nat) : State := s.countBy frame i 1

/-- A transient event: its counter counts one and its fabric event is raised (R44). -/
def State.event (s : State) (frame i fev : Nat) : State := (s.count frame i).raise fev

/-- A counter's value. -/
def State.countOf (s : State) (frame i : Nat) : Nat := (s.counter (ckey frame i)).count.toNat

/-! ### Data-plane units (R453) -/

/-- A unit asks for the bank of its memory: the page update that follows its change of the state. The update is a
read-modify-write of 3 FCLK, or of 2 + c where the page needs correction (R156). -/
def State.askUnit (s : State) (memory unit c : Nat) : State :=
  { s with sluice.units := s.sluice.units ++ [{ memory := memory, unit := unit, lasts := if c = 0 then 3 else 2 + c }] }

/-- A unit's read of a page, which changes nothing: it holds the bank for its one edge. -/
def State.askRead (s : State) (memory unit : Nat) : State :=
  { s with sluice.units := s.sluice.units ++ [{ memory := memory, unit := unit, lasts := 0 }] }

/-- The number of data-plane units of a memory (R453): reservoir, group state, descriptor cache, keeper RAM, mailboxes. -/
def unitCount (memory : Nat) : Nat :=
  if memory = 2 then 4 else if memory = 4 then 3 else if memory = 6 then 2 else 1

/-- A sequence that still holds its bank at an edge. -/
def Lock.holds (l : Lock) (e : Nat) : Bool := decide (e ≤ l.lasts)

/-- A sequence's hold of its bank ends with this edge: the bank is free from the next one (R156). -/
def State.unlock (s : State) (memory bank : Nat) : State :=
  let over_ (l : Lock) : Lock :=
    if l.memory = memory ∧ l.bank = bank ∧ !l.ended then { l with lasts := s.clock.dp, ended := true } else l
  { s with sluice.locks := s.sluice.locks.map over_ }

/-! ### The state from before an edge (R22) -/

/-- The state as it stands, kept as the state from before the edge that now begins. -/
def State.mark (s : State) : State :=
  { s with before := some { clock := s.clock, front := s.front, ints := s.ints, cores := s.cores, ports := s.ports, gate := s.gate,
                            routes := s.routes, sluice := s.sluice, pump := s.pump, levels := s.levels, keeper := s.keeper,
                            twin := s.twin, integrity := s.integrity, fuses := s.fuses, startup := s.startup } }

/-- What an action sampled at this edge sees: the state from before it, at this edge's number (R22). -/
def State.sampled (s : State) : State :=
  match s.before with
  | none => s
  | some b =>
    { s with clock := { b.clock with edge := s.clock.edge, dp := s.clock.dp }, front := b.front, ints := b.ints, cores := b.cores,
             ports := b.ports, gate := b.gate, routes := b.routes, sluice := b.sluice, pump := b.pump, levels := b.levels,
             keeper := b.keeper, twin := b.twin, integrity := b.integrity, fuses := b.fuses, startup := b.startup }

/-! ### Management-plane intervals (R26) -/

/-- The mark of an interval that starts at this edge: the number of SCLK edges before it. -/
def State.slowMark (s : State) : Nat := (s.clock.edge + (Config.sclk - 1)) / Config.sclk

/-- An interval of n SCLK with this mark has run: its n-th SCLK edge at or after its start has come. -/
def State.slowRan (s : State) (mark n : Nat) : Bool := decide ((mark + n - 1) * Config.sclk ≤ s.clock.edge)

/-- The SCLK edges from an interval's start to this edge. -/
def State.slowSince (s : State) (mark : Nat) : Nat := s.clock.edge / Config.sclk + 1 - mark

/-! ### Core-edge lines (R91) -/

/-- The level of a line at an edge: the newest change at or before it. -/
def lineLevel (l : Line) (e : Nat) : Bool :=
  match l.find? fun c => decide (c.1 ≤ e) with
  | some c => c.2
  | none => false

/-- The edge from which a line has had the level that it has at an edge. -/
def lineStart (l : Line) (e : Nat) : Nat :=
  match l.find? fun c => decide (c.1 ≤ e) with
  | some c => c.1
  | none => 0

/-- A line's newest level. -/
def lineNewest (l : Line) : Bool :=
  match l with
  | c :: _ => c.2
  | [] => false

/-- A change of a line kept before those of the last `keep` edges, and the one in force before them. -/
def noteChange (l : Line) (keep at_ : Nat) (v : Bool) : Line :=
  let l := l.filter fun c => decide (c.1 < at_)
  let old (c : Nat × Bool) : Bool := decide (c.1 + keep ≤ at_)
  (at_, v) :: (l.takeWhile fun c => !old c) ++ (l.dropWhile fun c => !old c).take 1

/-- A line changed from an edge on; changes that no later edge can show are dropped. -/
def drive (l : Line) (now at_ : Nat) (v : Bool) : Line :=
  let l := l.filter fun c => decide (c.1 < at_)
  let top := match l with
    | c :: _ => c.2
    | [] => false
  let l := if top = v then l else (at_, v) :: l
  let later := l.takeWhile fun c => decide (now < c.1)
  let held := (l.dropWhile fun c => decide (now < c.1)).take 1
  later ++ held.filter fun c => c.2

end Sys2Proof.Machine
end

