-- ==== Sys2Proof/Machine/Operands.lean ====
section
/-! DEFINITION. The operand forms: fields of doorbells, route, rights and fast-table entries, CAM entries, descriptors, and the bank hash. -/

namespace Sys2Proof.Machine

/-! ### The doorbell (R114) -/

def dbPayload (d : DWord) : Word := hiWord d
def dbTag (d : DWord) : Byte := (d >>> 24).setWidth 8
def dbIntid (d : DWord) : Nat := bits d 16 0
def dbHint (d : DWord) : Bool := bit d 17
def dbFence (d : DWord) : Bool := bit d 18
def dbReserved (d : DWord) : Bool := decide (bits d 23 19 ≠ 0)

/-! ### The route entry (R147) -/

def rtVault (r : DWord) : Bool := bit r 43
def rtEnable (r : DWord) : Bool := bit r 42
def rtOwner (r : DWord) : Nat := bits r 41 36
def rtCistern (r : DWord) : Nat := bits r 35 21
def rtGroup (r : DWord) : Nat := bits r 20 11
def rtMode (r : DWord) : Bool := bit r 10
def rtClass (r : DWord) : Bool := bit r 9
def rtTarget (r : DWord) : Nat := bits r 8 0

/-- The limits of R148, INTID by INTID. -/
def routeLegal (intid : Nat) (r : DWord) : Bool :=
  if rtMode r then
    decide (rtTarget r = 0) && !rtClass r && decide (1 ≤ rtCistern r)
  else
    decide (rtTarget r ≤ 256) && decide (rtCistern r = 0) &&
      (!rtClass r || (decide (72 ≤ intid) && decide (intid ≤ 4095) && decide (rtTarget r ≠ 256)))

/-- A reserved bit of a route entry set, or VAULT set (R157). -/
def routeReserved (r : DWord) : Bool := decide (bits r 63 44 ≠ 0) || rtVault r

/-! ### The fast-table entry (R211, R216) -/

/-- The bitwise vote of three copies. -/
def Ft.vote (f : Ft) : Word := (f.c0 &&& f.c1) ||| (f.c0 &&& f.c2) ||| (f.c1 &&& f.c2)

/-- The copy recorded as the one that disagrees: where more than one does, in different bits, the lowest, and one correction is
counted (DESIGN CHOICE, log entry 81). -/
def Ft.odd (f : Ft) : Option Nat :=
  if f.c0 ≠ f.vote then some 0 else if f.c1 ≠ f.vote then some 1
  else if f.c2 ≠ f.vote then some 2 else none

def ftEn (w : Word) : Bool := bit w 31
def ftClass (w : Word) : Bool := bit w 30
def ftRtEn (w : Word) : Bool := bit w 29
def ftOwner (w : Word) : Nat := bits w 23 18
def ftTarget (w : Word) : Nat := bits w 8 0

/-- The mirrored fields of a route in a fast-table entry, EN kept (R211, R213). -/
def ftMirror (old : Word) (r : DWord) : Word :=
  (old &&& 0x80000000#32) ||| flag32 30 (rtClass r) ||| flag32 29 (rtEnable r) |||
    flag32 28 (rtVault r) ||| at32 18 (rtOwner r) ||| at32 0 (rtTarget r)

/-! ### The rights entry (R128) -/

/-- A region of a rights half: enable, owner, size exponent, base. -/
structure Region where
  en : Bool
  owner : Nat
  log2 : Nat
  base : Nat
deriving DecidableEq, Repr

def rgHalf (e : BitVec 128) (b : Bool) : DWord :=
  if b then (e >>> 64).setWidth 64 else e.setWidth 64
def rgJoin (a b : DWord) : BitVec 128 := b ++ a
def rgHost (h : DWord) : Nat := bits h 63 58
def rgRegion0 (h : DWord) : Region :=
  { en := bit h 28, owner := bits h 27 22, log2 := bits h 21 17, base := bits h 16 0 }
def rgRegion1 (h : DWord) : Region :=
  { en := bit h 57, owner := bits h 56 51, log2 := bits h 50 46, base := bits h 45 29 }

/-- Region i matches INTID x (R129). -/
def Region.covers (r : Region) (x : Nat) : Bool :=
  r.en && decide (x >>> r.log2 = r.base >>> r.log2)

/-- LOG2SIZE above 17, or BASE not a multiple of the region's size (R134). -/
def Region.badShape (r : Region) : Bool :=
  decide (17 < r.log2) || decide (r.base % 2 ^ r.log2 ≠ 0)

/-- A disabled region with something set (R134). -/
def Region.badIdle (r : Region) : Bool :=
  !r.en && (decide (r.base ≠ 0) || decide (r.log2 ≠ 0) || decide (r.owner ≠ 0))

/-- One of two aligned power-of-two regions contains the other (R134). -/
def Region.overlaps (a b : Region) : Bool :=
  a.en && b.en && (decide (a.base >>> b.log2 = b.base >>> b.log2) ||
    decide (b.base >>> a.log2 = a.base >>> a.log2))

/-! ### CAM entries (R137, R145) -/

def camEn (id : Word) : Bool := bit id 31
def camOwner (id : Word) : Nat := bits id 29 24
def camRid (id : Word) : Nat := bits id 15 0

/-- A CAM entry matches a requester and an INTID below 4,096. -/
def camMatch (id range : Word) (rid : BitVec 16) (x : Nat) : Bool :=
  let l := min (bits range 19 16) 12
  camEn id && decide (camRid id = rid.toNat) && decide (x < 4096) &&
    decide (x >>> l = bits range 11 0 >>> l)

/-! ### Pages, rows and banks (R150, R151) -/

/-- The keyed bank hash. -/
def bankHash (row : Nat) (key : DWord) : Nat :=
  let h := (row ^^^ bits key 9 0) % 1024
  let h := h * (bits key 25 16 ||| 1) % 1024
  let h := h ^^^ (h >>> 5)
  let h := h * (bits key 41 32 ||| 1) % 1024
  let h := (h ^^^ (h >>> 4)) ^^^ bits key 57 48
  (h >>> 6) % 16

/-- The page of a route (8 entries) or rights (4 entries) index. -/
def pageOf (rights : Bool) (idx : Nat) : Nat := if rights then idx / 4 else idx / 8

/-- The row of a page. -/
def rowOf (page : Nat) : Nat := page / 16

/-- The key that a store's row lies under: rows below MIG_ROW take the new key (R164). -/
def Hash.keyFor (h : Hash) (row : Nat) : DWord :=
  let sel := if h.migActive && decide (row < h.migRow) then !h.sel else h.sel
  if sel then h.key1 else h.key0

/-- The key slot assigned to a row (R164, R165). -/
def Hash.slotFor (h : Hash) (row : Nat) : Bool :=
  if h.migActive && decide (row < h.migRow) then !h.sel else h.sel

/-- The bank of a page. -/
def Hash.bank (h : Hash) (page : Nat) : Nat :=
  (page % 16) ^^^ bankHash (rowOf page) (h.keyFor (rowOf page))

/-- The row is under migration: its requests wait (R164). -/
def Hash.moving (h : Hash) (page : Nat) : Bool :=
  h.migActive && h.reserved && decide (rowOf page = h.migRow)

/-- The physical page index of a route or rights page: row × 16 + bank (R391). -/
def Hash.physical (h : Hash) (page : Nat) : Nat := rowOf page * 16 + h.bank page

/-! ### Reservoir pages (R391) -/

/-- The physical page of an INTID's state: 256 two-bit states a page; 512 shared pages, then the private
area of 4 KiB. -/
def reservoirPage (key : Nat) : Nat := key / 256

/-! ### Cistern descriptor fields (R238) -/

def dscBase (w0 : DWord) : Nat := bits w0 47 8 * 256
def dscLog2 (w0 : DWord) : Nat := bits w0 7 3
def dscPin (w0 : DWord) : Bool := bit w0 2
def dscHold (w0 : DWord) : Bool := bit w0 1
def dscValid (w0 : DWord) : Bool := bit w0 0
def dscCb (w1 : DWord) : Nat := bits w1 47 4 * 16
def dscOwner (w2 : DWord) : Nat := bits w2 63 58
def dscWeight (w2 : DWord) : Nat := atLeast1 (bits w2 57 50)
def dscFloat (w2 : DWord) : Nat := bits w2 49 46
def dscCoalLog (w2 : DWord) : Nat := min (bits w2 45 42) 12
def dscCoalTime (w2 : DWord) : Nat := bits w2 41 30
def dscNotify (w2 : DWord) : Nat := bits w2 16 0

/-- A reserved bit of descriptor words 0 to 3 set. -/
def dscReserved (w0 w1 w2 w3 : DWord) : Bool :=
  decide (bits w0 63 48 ≠ 0) || decide (bits w1 63 48 ≠ 0) || decide (bits w1 3 0 ≠ 0) ||
    decide (bits w2 29 17 ≠ 0) || decide (w3 ≠ 0#64)

/-- The slice of a cistern (R243). -/
def sliceOf (c : Nat) : Nat := c / 8192 % 4

/-- The window length that a WINDOW_LOG field encodes (R207). -/
def windowLength (log : Nat) : Nat := if log = 0 then 65536 else if log < 8 then 256 else 2 ^ log

end Sys2Proof.Machine
end

