-- ==== Sys2Proof/Machine/RegMap.lean ====
section
/-! DEFINITION. The register map: every page's identity, its writable registers with mask, reset value and lock group, and the block's address ranges. -/

namespace Sys2Proof.Machine

/-! ### Page identity (R42, R73) -/

/-- FUNC of a global frame. -/
def globalFunc (k : Nat) : Nat :=
  if k = 0 then 1 else if k = 1 then 2 else if k < 0x12 then 3
  else if k < 0x17 then k - 0x12 + 4
  else if k < 0x1F then 9
  else k - 0x1F + 0x0A

/-- INSTANCE of a global frame: port number, group-page number, or 0. -/
def globalInstance (k : Nat) : Nat :=
  if 2 ≤ k ∧ k < 0x12 then k - 2 else if 0x17 ≤ k ∧ k < 0x1F then k - 0x17 else 0

/-- NCNT of a frame, as each page's chapter gives it; the block control page holds counters 0 to 5 (R41). -/
def ncnt (f : Nat) : Nat :=
  if 0x80 ≤ f then 12 else if 0x40 ≤ f then 6
  else if f = 0 then 6 else if f = 1 then 3 else if f < 0x12 then 12
  else if f = 0x12 then 28 else if f = 0x13 then 16 else if f = 0x14 then 8
  else if f = 0x15 then 9 else if f = 0x16 then 13 else if f < 0x1F then 3
  else if f = 0x1F then 24 else if f = 0x20 then 9 else if f = 0x21 then 7
  else if f = 0x22 then 10 else if f = 0x23 then 16 else if f = 0x24 then 14
  else if f = 0x25 then 4 else if f = 0x26 then 8 else if f = 0x27 then 12 else 0

/-- A global frame (R73), a host frame, a core frame (R70). -/
def isGlobal (f : Nat) : Bool := decide (f < 0x28)
def isHostFrame (f : Nat) : Bool := decide (0x40 ≤ f) && decide (f < 0x80)
def isCoreFrame (f : Nat) : Bool := decide (0x80 ≤ f) && decide (f < 0x180)

/-- PAGE_ID of a frame (R42). -/
def pageId (f : Nat) : Word :=
  if isCoreFrame f then at32 28 3 ||| at32 16 0x30 ||| at32 0 (f - 0x80)
  else if isHostFrame f then at32 28 2 ||| at32 16 0x20 ||| at32 0 (f - 0x40)
  else at32 28 1 ||| at32 16 (globalFunc f) ||| at32 0 (globalInstance f)

/-- PAGE_CAP of a frame (R42). -/
def pageCap (f : Nat) : Word :=
  at32 8 (ncnt f) ||| flag32 3 (decide (f = 0x13) || decide (f = 0x25)) |||
    flag32 2 (isGlobal f) ||| flag32 1 (!isGlobal f) ||| 1#32

/-! ### Writable registers -/

/-- A register that writes reach: its writable bits, its reset value, its lock group, and whether it is
reached through the base view only. -/
structure RegInfo where
  mask : Word
  reset : Word
  group : Option Nat
  baseOnly : Bool
deriving DecidableEq, Repr

/-- An unlocked RW register. -/
def rw (mask reset : Word) : Option RegInfo := some ⟨mask, reset, none, false⟩

/-- An RWL register of a lock group. -/
def rwl (g : Nat) (mask reset : Word) : Option RegInfo := some ⟨mask, reset, some g, false⟩

def portRegs (o : Nat) : Option RegInfo :=
  if o = 0x20 then rwl 0 3#32 3#32 else if o = 0x24 then rwl 1 0xFFFF#32 0#32
  else if o = 0x28 then rwl 1 0xFFFF#32 0#32 else if o = 0x34 then rwl 2 1#32 0#32 else none

def gateRegs (o : Nat) : Option RegInfo :=
  if 0x800 ≤ o ∧ o < 0xA00 then
    if o % 8 = 0 then rwl 0 0xBF00FFFF#32 0#32 else rwl 0 0x000F0FFF#32 0#32
  else if 0xA00 ≤ o ∧ o < 0xC80 then
    if o % 8 = 0 then rwl 1 0xFFFFFFFE#32 1#32 else rwl 1 0xFFFFFFFF#32 0#32
  else if 0xC80 ≤ o ∧ o < 0xE80 then rwl 2 0xBFBFBFBF#32 0#32 else none

def routeRegs (o : Nat) : Option RegInfo :=
  if o = 0x20 then rwl 0 0x00070003#32 0x00060003#32
  else if o = 0x24 then rwl 0 0x0000FFFF#32 0x0000A080#32
  else if o = 0x40 then rw 0xFFFFFFFF#32 1#32 else if o = 0x44 then rw 0xFFFFFFFF#32 0#32 else none

def fastRegs (o : Nat) : Option RegInfo :=
  if o = 0x20 then rwl 0 3#32 3#32 else if o = 0x24 then rw 0xFFF#32 0#32
  else if o = 0x34 then some ⟨0xFFFF#32, 0#32, none, true⟩
  else if o = 0x38 then rw 0xFF#32 0#32 else none

def sluiceRegs (o : Nat) : Option RegInfo :=
  if o = 0x20 then rwl 0 0x03FFFF0F#32 0x0040200C#32 else if o = 0x24 then rwl 0 0x3FF#32 0#32
  else if o = 0x28 then rwl 1 0x03FFFF0F#32 0x0010200C#32
  else if o = 0x2C then rwl 1 0x00FFFFFF#32 0x00101010#32
  else if 0x30 ≤ o ∧ o < 0x40 then rwl 2 0xFFFFFFFF#32 0x10101010#32 else none

def groupRegs (o : Nat) : Option RegInfo :=
  if 0x800 ≤ o then
    if o % 16 = 0 then rwl 0 0x3FFF#32 0#32
    else if o % 16 = 4 then rwl 1 0xFFFF#32 0#32 else none
  else none

def pumpRegs (o : Nat) : Option RegInfo :=
  if o = 0x20 then rwl 0 0xFFFF#32 0x1020#32 else if o = 0x24 then rwl 0 0xFFFFFC00#32 0#32
  else if o = 0x28 then rwl 0 0xFFFF#32 0#32 else if o = 0x2C then rwl 1 0xFFFFFF00#32 0#32
  else if o = 0x30 then rwl 1 0xFFFF#32 0#32 else if o = 0x34 then rwl 1 0x9FF1FFFF#32 0#32
  else if o = 0x38 then rw 0xFFFFFFFF#32 0#32 else if o = 0x44 then rw 0x7FFF#32 0#32 else none

def levelRegs (o : Nat) : Option RegInfo :=
  if o = 0x20 then rwl 0 0xFFFFFFFF#32 0xFFFFFFFF#32
  else if o = 0x24 then rwl 0 0x00FFFFFF#32 0x00FFFFFF#32
  else if o = 0x28 then rwl 0 0xFFFFFFFF#32 0#32
  else if o = 0x2C then rwl 0 0x00FFFFFF#32 0#32 else none

def standbyRegs (o : Nat) : Option RegInfo :=
  if o = 0x20 then rwl 0 0xFFFFFFFF#32 0#32 else if o = 0x24 then rwl 0 0x00FFFFFF#32 0#32 else none

def keeperRegs (o : Nat) : Option RegInfo :=
  if o = 0x28 then rwl 0 0x03FFFF0F#32 0x0004200C#32
  else if 0x40 ≤ o ∧ o < 0x80 then rwl 1 0xFFFFFFFF#32 0x10101010#32
  else if 0x800 ≤ o ∧ o < 0x900 then rwl 2 0x8001FFFF#32 0#32 else none

def twinRegs (o : Nat) : Option RegInfo := if o = 0x20 then rwl 0 0x000100FF#32 4#32 else none

def integrityRegs (o : Nat) : Option RegInfo :=
  if o = 0x20 then rwl 0 0x80F07F0F#32 0x00307F0A#32 else if o = 0x2C then rw 7#32 0#32
  else if o = 0x3C then rw 0x7FFFF#32 0#32 else none

def fuseRegs (o : Nat) : Option RegInfo :=
  if o = 0x24 then rwl 0 0xFFFFFFFF#32 0#32 else if o = 0x28 then rwl 0 0x3F77#32 0#32
  else if o = 0x30 then rwl 1 0xFFFFF#32 0#32 else none

def outRegs (o : Nat) : Option RegInfo :=
  if o = 0x20 then rwl 0 0x03FFFF0F#32 0x0040200C#32 else if o = 0x24 then rwl 0 0xFFFF#32 0x1010#32
  else if 0x800 ≤ o ∧ o < 0xA00 then
    let i := (o - 0x800) / 32
    let j := o % 32
    if j = 0 ∨ j = 8 then rwl (1 + i) 0xFFFFF000#32 0#32
    else if j = 4 ∨ j = 12 then rwl (1 + i) 0xFFFF#32 0#32
    else if j = 16 then rwl (1 + i) 7#32 0#32
    else if j = 20 ∨ j = 24 then rwl (1 + i) 0xFFFFFFFF#32 0#32 else none
  else none

/-- The writable register at an offset of a frame, RWG registers apart. Offsets are word aligned. -/
def regInfo (f o : Nat) : Option RegInfo :=
  if isCoreFrame f then
    if o = 0x50 ∨ o = 0x54 then rw 0xFFFFFFFF#32 0#32 else none
  else if isHostFrame f then none
  else if f < 2 then none
  else if f < 0x12 then portRegs o
  else if f = 0x12 then gateRegs o
  else if f = 0x13 then routeRegs o
  else if f = 0x14 then if o = 0x20 then rw 0x03FDFFFF#32 0#32 else none
  else if f = 0x15 then fastRegs o
  else if f = 0x16 then sluiceRegs o
  else if f < 0x1F then groupRegs o
  else if f = 0x1F then pumpRegs o
  else if f = 0x20 then levelRegs o
  else if f = 0x21 then standbyRegs o
  else if f = 0x22 then keeperRegs o
  else if f = 0x23 then twinRegs o
  else if f = 0x24 then integrityRegs o
  else if f = 0x25 then fuseRegs o
  else if f = 0x26 then outRegs o
  else none

/-- The writable bits of an RWG register (R93, R143); none where there is no RWG register. -/
def rwgMask (f o : Nat) : Option Word :=
  if isHostFrame f then if o = 0x20 then some 1#32 else none
  else if isCoreFrame f then
    if o = 0x40 then some 0xF#32 else if o = 0x60 ∨ o = 0x64 then some 0xFFFFFFFF#32
    else if o = 0x70 then some 3#32 else none
  else none

/-- An RWG register or the complement address of one (R59). -/
def isGuarded (f o : Nat) : Bool :=
  (rwgMask f o).isSome || (decide (0x800 ≤ o) && (rwgMask f (o - 0x800)).isSome)

/-- The key of a register in the register table: frame × 4096 + offset. -/
def rkey (f o : Nat) : Nat := f * 4096 + o

/-- The reset value that an unlisted register reads as. -/
def regReset (key : Nat) : Word :=
  match regInfo (key / 4096) (key % 4096) with
  | some i => i.reset
  | none => 0#32

/-- A stored register's value. -/
def State.reg (s : State) (f o : Nat) : Word := look (regReset (rkey f o)) s.front.regs (rkey f o)

/-- A stored register given a value. -/
def State.setReg (s : State) (f o : Nat) (w : Word) : State :=
  { s with front.regs := ins (regReset (rkey f o)) s.front.regs (rkey f o) w }

/-! ### Register fields used across the model -/

/-- The per-host route-enable word (R89, R171). -/
def State.hostEnabled (s : State) (h : Nat) : Bool :=
  if h < 32 then bit (s.reg fRoute 0x40) h else bit (s.reg fRoute 0x44) (h - 32)

/-- PRIV_GROUP (R207). -/
def State.privGroup (s : State) : Nat := bits (s.reg fSluice 0x24) 9 0

/-- WAIT_LIMIT and AGE_STEP of an arbiter's control word (R182, R207). -/
def waitLimit (ctrl : Word) : Nat := atLeast1 (bits ctrl 25 16)
def ageStep (ctrl : Word) : Nat := bits ctrl 15 8

/-- The window in force for a control word (R179, R207). -/
def ctrlWindow (ctrl : Word) : Nat := windowLength (bits ctrl 3 0)

/-- The weight of port p at the bank and cistern-input arbiters (R207). -/
def State.portWeight (s : State) (p : Nat) : Nat :=
  atLeast1 (bits (s.reg fSluice (0x30 + 4 * (p / 4))) (8 * (p % 4) + 7) (8 * (p % 4)))

/-- The weight of mailbox n (R322). -/
def State.mbWeight (s : State) (n : Nat) : Nat :=
  atLeast1 (bits (s.reg fKeeper (0x40 + 4 * (n / 4))) (8 * (n % 4) + 7) (8 * (n % 4)))

/-! ### Regions of the block (R70) -/

/-- Where a block offset lies. -/
inductive Place where
  | frame (f view off : Nat)
  | mailbox (n off : Nat)
  | window (rights : Bool) (off : Nat)
  | unmapped
deriving DecidableEq, Repr

/-- The decoder of the block address map. -/
def placeOf (a : Nat) : Place :=
  let view := a / 4096 % 4
  let off := a % 4096
  if a < 0x100000 then
    if a / 0x4000 < 0x28 then .frame (a / 0x4000) view off else .unmapped
  else if a < 0x200000 then .frame (0x40 + (a - 0x100000) / 0x4000) view off
  else if a < 0x600000 then .frame (0x80 + (a - 0x200000) / 0x4000) view off
  else if a < 0x700000 then .mailbox ((a - 0x600000) / 0x4000) (a % 0x4000)
  else if a < 0x800000 then .unmapped
  else if a < 0x900000 then .window false (a - 0x800000)
  else if a < 0xA00000 then .window true (a - 0x900000)
  else .unmapped

end Sys2Proof.Machine
end

