-- ==== Sys2Proof/Machine/Pages.lean ====
section
/-! DEFINITION. Page reads: the two wells' verdicts, corrected and heavy counts, poison, and the triggers they raise (R359, R384 to R391). -/

namespace Sys2Proof.Machine

/-! ### Triggers (R359, R364, R369) -/

/-- The wells are paired and the mirror is trusted (R359, R362). -/
def State.paired (s : State) : Bool := decide (s.twin.pair = .paired)

/-- The mirror computes in step: paired, or joined and not yet trusted (R371, R376). -/
def State.mirrorRuns (s : State) : Bool :=
  s.paired || (match s.twin.repair with
    | some r => decide (5 ≤ r.phase)
    | none => false)

/-- A trigger registered at this edge; a second one during a sequence is ignored, and of two at one edge
the lower code is recorded (R364). A lead that fell silent or met an uncorrectable error, and a mirror that fell silent, is
unhealthy whatever code is recorded (R361). -/
def State.trigger (s : State) (cause : Nat) : State :=
  if s.twin.failover.isSome || s.twin.fabricFault then s else
  let lead := decide (cause = 3) || decide (cause = 4)
  match s.twin.trigger with
  | some t =>
    if t.edge = s.clock.edge then
      let t : Trigger :=
        { cause := min cause t.cause, edge := t.edge, leadBad := t.leadBad || lead, mirrorBad := t.mirrorBad || decide (cause = 5) }
      { s with twin.trigger := some t }
    else s
  | none =>
    let t : Trigger := { cause := cause, edge := s.clock.edge, leadBad := lead, mirrorBad := decide (cause = 5) }
    { s with twin.trigger := some t }

/-! ### Poison (R389 to R391) -/

/-- The key of a page in a poison map: store × 65536 + physical page index. -/
def pageKey (store page : Nat) : Nat := store * 65536 + page

/-- The lead's poison map holds the page. -/
def State.poisoned (s : State) (store page : Nat) : Bool :=
  look false s.lead.poison (pageKey store page)

/-! ### Strength (R384, R385, R399) -/

/-- STRENGTH of a store: 4 unless a change is listed. -/
def State.strengthOf (s : State) (store : Nat) : Nat := look 4 s.integrity.strength store

/-- The strength that applies to a page's position (R399): a store whose re-encode has not begun keeps its old one
throughout. -/
def State.strengthAt (s : State) (store page : Nat) : Nat :=
  match s.integrity.journal with
  | some j =>
    if j.store = store ∧ j.next ≤ page then j.oldT
    else match look none j.olds store with
      | some t => t
      | none => s.strengthOf store
  | none => s.strengthOf store

/-- Correction time c (R384). -/
def correctionTime (t : Nat) : Nat := if t ≤ 2 then 2 else if t ≤ 4 then 3 else if t ≤ 6 then 5 else 6

/-! ### Verdicts (R386, R387) -/

/-- A count of errors beyond the strength is reported uncorrectable; the manual claims nothing of the
patterns a decoder would miscorrect (R384, log entry 15). -/
def asRead (v : Verdict) (t : Nat) : Verdict :=
  match v with
  | .corr n => if n = 0 then .clean else if n ≤ t then .corr n else .uncorr
  | v => v

/-- The verdict on a copy that already had `n` positions in error: the upsets of this read's operand come with them (R388). -/
def withStored (v : Verdict) (n : Nat) : Verdict :=
  match v with
  | .clean => if n = 0 then .clean else .corr n
  | .corr k => .corr (max k n)
  | .uncorr => .uncorr

/-- The positions in error of one well's stored copy of a page: they stay until the page is next written whole (R388). -/
def State.storedErrs (s : State) (b : Bool) (store page : Nat) : Nat := look 0 (s.well b).errs (pageKey store page)

/-- No page is poisoned in the leading well, and neither well keeps a correctable copy. -/
abbrev State.pagesSound (s : State) : Prop :=
  s.lead.poison = [] ∧ (s.well false).errs = [] ∧ (s.well true).errs = []

/-- A read has found a correctable copy, which stays in memory as it is (R388). -/
def State.keepErrs (s : State) (b : Bool) (store page : Nat) (v : Verdict) : State :=
  match v with
  | .corr n => s.modWell b fun w => { w with errs := ins 0 w.errs (pageKey store page) n }
  | _ => s

/-- A page write noted: in the page-write journal (R361), and from the start frame of a re-pair attempt until its join on the
link, where it takes 4 FCLK (R373). -/
def State.pageWritten (s : State) (store page : Nat) : State :=
  let k := pageKey store page
  let s := { s with twin.pageJournal := (k :: s.twin.pageJournal).take 4096 }
  match s.twin.repair with
  | some r =>
    if r.phase = 3 ∨ r.phase = 4 then
      { s with twin.repair := some { r with flying := r.flying ++ [(k, s.clock.edge + 4, s.poisoned store page)] } }
    else s
  | none => s

/-- The page written whole in both wells, with clean check bits (R156, R388, R393). -/
def State.wroteWhole (s : State) (store page : Nat) : State :=
  let clean (w : Well) : Well := { w with errs := ins 0 w.errs (pageKey store page) 0 }
  ((s.modWell false clean).modWell true clean).pageWritten store page

def isUncorr (v : Verdict) : Bool := decide (v = .uncorr)
def isErr (v : Verdict) : Bool := decide (v ≠ .clean)

/-- HEAVY of one verdict: correctable with at least CORR_WARN errors (R387). -/
def isHeavy (v : Verdict) (warn : Nat) : Bool :=
  match v with
  | .corr n => decide (warn ≤ n)
  | _ => false

/-- What a page read gave: usable data, an error response driven by the lead, and the FCLK the checker
took past the syndrome edge. -/
structure PageResult where
  usable : Bool
  leadError : Bool
  correction : Nat
deriving DecidableEq, Repr

/-- A page poisoned in one well, with its record (R389). -/
def State.poisonIn (s : State) (b : Bool) (store page req : Nat) : State :=
  s.modWell b fun w =>
    { w with poison := ins false w.poison (pageKey store page) true,
             uncorrLast := 0x80000000#32 ||| at32 27 req ||| at32 24 store ||| at32 0 page }

/-- A poison bit cleared in both wells by a whole-page write (R391). -/
def State.unpoison (s : State) (store page : Nat) : State :=
  ((s.modWell false fun w => { w with poison := ins false w.poison (pageKey store page) false }).modWell true
    fun w => { w with poison := ins false w.poison (pageKey store page) false }).wroteWhole store page

/-- The counts and the event of an uncorrectable verdict (R389). -/
def State.countPoison (s : State) (scrub : Bool) : State :=
  ((s.event fIntegrity 7 151).count fIntegrity (if scrub then 6 else 5))

/-- The counts and record that returned ERR and HEAVY make (R388, R400). -/
def State.countErr (s : State) (store page : Nat) (scrub heavy uncorr : Bool) : State :=
  let s := s.count fIntegrity 3
  let s := if heavy then s.event fIntegrity 4 152 else s
  if uncorr then s
  else
    let w := 0x80000000#32 ||| flag32 30 scrub ||| flag32 29 heavy ||| at32 26 store ||| at32 0 page
    { s with integrity.errLast := w }

/-- The page is rebuilt from flops rather than left poisoned (R391). -/
def rebuildable (store page : Nat) : Bool :=
  (decide (store = 2) && (decide (page < 16) || decide (512 ≤ page))) || decide (store = 3)

/-! ### EPOCH (R153, R165) -/

/-- The majority of a page's three EPOCH copies. -/
def State.epoch (s : State) (store page : Nat) : Bool :=
  let e := look 0#3 s.routes.epochs (pageKey store page)
  (bit e 0 && bit e 1) || (bit e 0 && bit e 2) || (bit e 1 && bit e 2)

/-- The page's EPOCH disagrees with the key slot that its row is under. -/
def State.epochBad (s : State) (store page : Nat) : Bool :=
  let h := if store = 0 then s.routes.rt else s.routes.rg
  decide (store < 2) && decide (s.epoch store page ≠ h.slotFor (page / 16))

/-- The three EPOCH copies of a page written. -/
def State.setEpoch (s : State) (store page : Nat) (b : Bool) : State :=
  { s with routes.epochs := ins 0#3 s.routes.epochs (pageKey store page) (if b then 7#3 else 0#3) }

/-- A page written back whole, its EPOCH copies rewritten as read by majority (R153, R156, R393). -/
def State.rewriteEpoch (s : State) (store page : Nat) : State :=
  (if store < 2 then s.setEpoch store page (s.epoch store page) else s).wroteWhole store page

/-- The verdicts of a read, of the lead and of the mirror: the operand's with the errors that the copies already hold, an EPOCH
that disagrees being uncorrectable (R153, R386, R388). -/
def State.pageVerdicts (s : State) (store page : Nat) (r : PageRead) : Verdict × Verdict :=
  let t := s.strengthAt store page
  let bad := s.epochBad store page
  let va := if bad then .uncorr else asRead (withStored r.a (s.storedErrs false store page)) t
  let vb := if bad then .uncorr else asRead (withStored r.b (s.storedErrs true store page)) t
  let m := if s.twin.leadB then va else vb
  (if s.twin.leadB then vb else va, if s.mirrorRuns then m else Verdict.clean)

/-- Returned ERR and UNCORR of a read: the two wells' verdicts, joined (R387). -/
def errOf (v : Verdict × Verdict) : Bool := isErr v.1 || isErr v.2
def uncorrOf (v : Verdict × Verdict) : Bool := isUncorr v.1 || isUncorr v.2

/-- The read is uncorrectable for the block: the lead finds it so, and no paired twin has it clean (R359, R389). -/
def State.lostPage (s : State) (v : Verdict × Verdict) : Bool := isUncorr v.1 && (isUncorr v.2 || !s.paired)

/-- What a read that returns ERR counts and records, and the copies left in error (R387, R388). -/
def State.tallyErr (s : State) (store page : Nat) (scrub : Bool) (v : Verdict × Verdict) : State :=
  let warn := atLeast1 (bits (s.reg fIntegrity 0x20) 23 20)
  let heavy := isHeavy v.1 warn || isHeavy v.2 warn
  let s := if errOf v then s.countErr store page scrub heavy (uncorrOf v) else s
  (s.keepErrs s.twin.leadB store page v.1).keepErrs (!s.twin.leadB) store page v.2

/-- The page poisoned in each well that found it uncorrectable (R389). -/
def State.poisonWells (s : State) (store page req : Nat) (v : Verdict × Verdict) : State :=
  let s := if isUncorr v.1 then s.poisonIn s.twin.leadB store page req else s
  if isUncorr v.2 then s.poisonIn (!s.twin.leadB) store page req else s

/-- The failover trigger of an uncorrectable page, of the lead or of the mirror (R359). -/
def State.uncorrTrigger (s : State) (v : Verdict × Verdict) : State :=
  if isUncorr v.1 && s.paired then s.trigger 4 else if isUncorr v.2 then s.trigger 6 else s

/-- A page lost that flops can rebuild is put up for it (R391). -/
def State.askRebuild (s : State) (store page : Nat) (lost : Bool) : State :=
  if lost && rebuildable store page then { s with integrity.rebuilds := s.integrity.rebuilds ++ [(store, page)] } else s

/-- What an uncorrectable verdict does: poison, the counts and event of a lost page, the trigger, the rebuild (R359, R389,
R391). -/
def State.takeUncorr (s : State) (store page req : Nat) (scrub : Bool) (v : Verdict × Verdict) : State :=
  let t := s.poisonWells store page req v
  let t := if s.lostPage v then t.countPoison scrub else t
  (t.uncorrTrigger v).askRebuild store page (s.lostPage v)

/-- One page read by a requester (REQ code of R400), with the two wells' verdicts. A page already poisoned
is not read again: it counts in POISON_HITS (R390). While paired, a verdict of one well alone is that
well's fault (R359), and the state both wells go on with is that of the well that read the page. Errors that a well's copy
already holds come with those of the operand (R388), and both wells take the correction time whenever the returned ERR is 1
(R387). The verdict, its counts and its poison fall at the edge of the row that reads (DEDUCED, log entry 95). -/
def State.readPage (s : State) (store page req : Nat) (scrub : Bool) (r : PageRead) : PageResult × State :=
  if s.poisoned store page then (⟨false, true, 0⟩, s.count fIntegrity 8)
  else
    let v := s.pageVerdicts store page r
    let c := if errOf v then correctionTime (s.strengthAt store page) else 0
    let t := s.tallyErr store page scrub v
    if !uncorrOf v then (⟨true, false, c⟩, t)
    else (⟨!s.lostPage v, isUncorr v.1, if s.lostPage v then 0 else c⟩, t.takeUncorr store page req scrub v)

/-- A read in which no upset comes to the stored copies. -/
def cleanRead : PageRead := { a := .clean, b := .clean }

/-- The end of a read-modify-write of a page by a unit, whose read was made and counted before: the lock with the correction
time of the copy read, and the page written whole (R156, R194, R388). -/
def State.rewritePage (s : State) (store unit page : Nat) : State :=
  if s.poisoned store page then s.askUnit store unit 0
  else
    let c := if s.storedErrs false store page = 0 ∧ s.storedErrs true store page = 0 then 0
      else correctionTime (s.strengthAt store page)
    (s.askUnit store unit c).wroteWhole store page

/-- A data-plane unit's update of a page, a read-modify-write of its whole page: it is corrected as it is read, which takes c
where a stored copy has errors, and is written whole (R156, R388, R453). -/
def State.updatePage (s : State) (store unit page req : Nat) : State :=
  if s.poisoned store page then s.askUnit store unit 0
  else
    let r := s.readPage store page req false cleanRead
    (r.2.askUnit store unit r.1.correction).wroteWhole store page

/-- A change of a cistern's cache entry by a unit of the descriptor cache, written to the entry's page (R453). -/
def State.updateCached (s : State) (c unit : Nat) : State :=
  let s := s.askUnit 4 unit 0
  match s.cached c with
  | some x => s.wroteWhole 4 (x.slot / 2)
  | none => s

end Sys2Proof.Machine
end

