-- ==== Sys2Proof/Machine/Reservoir.lean ====
section
/-! DEFINITION. The reservoir: class, enable and target of an INTID, its four states, presentation, acknowledge, completion and drop (R74 to R110). -/

namespace Sys2Proof.Machine

/-- The INTID's state lies in a poisoned reservoir page. INTIDs 0 to 4,095 have their state in flops
(R217), so no page holds theirs (DEDUCED, log entry 14). -/
def State.intPoisoned (s : State) (key : Nat) : Bool :=
  decide (4096 ≤ key) && decide (key < 131072) && s.poisoned 2 (reservoirPage key)

/-! ### Class, enable, target (R76, R89, R212) -/

/-- A private INTID's key. -/
def isPrivate (key : Nat) : Bool := decide (131072 ≤ key)

/-- A vault INTID, 64 to 71. -/
def isVault (key : Nat) : Bool := decide (64 ≤ key) && decide (key < 72)

/-- The route entry of a shared INTID: vault routes in flops, the store otherwise (R149). -/
def State.route (s : State) (x : Nat) : DWord :=
  if isVault x then look 0#64 s.routes.vault x else if x < 64 then 0#64 else s.routeEntry x

/-- The voted fast-table entry. -/
def State.fast (s : State) (x : Nat) : Word := (s.ft x).vote

/-- The class of an INTID: true for fast (R76, R212). -/
def State.isFast (s : State) (key : Nat) : Bool :=
  if isPrivate key then bit (s.core (coreOfKey key)).privClass (key % 64)
  else if key < 4096 then ftEn (s.fast key) && ftClass (s.fast key) else false

/-- The owning host of a shared INTID (R87, R212). -/
def State.ownerOf (s : State) (key : Nat) : Nat :=
  if s.isFast key then ftOwner (s.fast key) else rtOwner (s.route key)

/-- The enable condition of R89; vault INTIDs are exempt from the per-host word (R171, R212). -/
def State.enabled (s : State) (key : Nat) : Bool :=
  if isPrivate key then bit (s.core (coreOfKey key)).privEn (key % 64)
  else if s.isFast key then
    ftRtEn (s.fast key) && (isVault key || s.hostEnabled (ftOwner (s.fast key)))
  else
    rtEnable (s.route key) && (isVault key || s.hostEnabled (rtOwner (s.route key)))

/-- The target of an INTID; none for a cistern-mode route (R177). -/
def State.targetOf (s : State) (key : Nat) : Option Nat :=
  if isPrivate key then some (coreOfKey key)
  else if s.isFast key then some (ftTarget (s.fast key))
  else if rtMode (s.route key) then none else some (rtTarget (s.route key))

/-- The group an INTID's normal deliveries are charged to (R147, R177). -/
def State.groupOf (s : State) (key : Nat) : Nat :=
  if isPrivate key then s.privGroup else rtGroup (s.route key)

/-- The INTID is in a presentation slot. -/
def State.presented (s : State) (key : Nat) : Bool :=
  s.cores.any fun c =>
    (match c.2.presN with
      | some p => decide (p.intid = key)
      | none => false) ||
    (match c.2.presF with
      | some p => decide (p.intid = key)
      | none => false)

/-- The core on which an INTID is active (R78). -/
def State.holder (s : State) (key : Nat) : Option Nat :=
  (s.cores.find? fun c =>
    (match c.2.actN with
      | some p => decide (p.intid = key)
      | none => false) ||
    (match c.2.actF with
      | some p => decide (p.intid = key)
      | none => false)).map Prod.fst

/-! ### Targets (R89, R92) -/

/-- MASK_N and MASK_F of a target; the keeper's are fixed at 0 (R92). -/
def State.maskN (s : State) (n : Nat) : Bool := decide (n < 256) && bit (s.core n).mask 0
def State.maskF (s : State) (n : Nat) : Bool := decide (n < 256) && bit (s.core n).mask 1

/-- The target is awake; T256 always is (R92, R103). -/
def State.awake (s : State) (n : Nat) : Bool := decide (n = 256) || !(s.core n).asleep

/-- The first three conditions of a fast round (R221). -/
def State.fastOpen (s : State) (n : Nat) : Bool :=
  s.awake n && !s.maskF n && (s.core n).actF.isNone && (s.core n).presF.isNone

/-- The first four conditions of a target round (R176). -/
def State.normalOpen (s : State) (n : Nat) : Bool :=
  s.awake n && !s.maskN n && (s.core n).actN.isNone && (s.core n).actF.isNone &&
    (s.core n).presN.isNone

/-! ### Candidates (R177, R221) -/

/-- The INTID is Pending, enabled, and in no presentation slot. -/
def State.waiting (s : State) (key : Nat) : Bool :=
  let x := s.int key
  x.pending && !x.active && s.enabled key && !s.presented key && !s.intPoisoned key

/-- The INTID waits, and its set has passed the summary stages by the data-plane edge e (R193, R222). -/
def State.offered (s : State) (e : Nat) (key : Nat) : Bool := s.waiting key && decide ((s.int key).candFrom ≤ e)

/-- A normal candidate for target t at edge e (R177). -/
def State.candN (s : State) (t e key : Nat) : Bool :=
  !s.isFast key && decide (s.targetOf key = some t) && s.offered e key

/-- A fast candidate for core n at edge e (R221). -/
def State.candF (s : State) (n e key : Nat) : Bool :=
  s.isFast key && decide (s.targetOf key = some n) && s.offered e key

/-- The normal candidates for a target, in rising key order. -/
def State.candsN (s : State) (t e : Nat) : List Nat := (keys s.ints).filter (s.candN t e)

/-- The fast candidates for a core, in key order. -/
def State.candsF (s : State) (n e : Nat) : List Nat := (keys s.ints).filter (s.candF n e)

/-- The group's hold is running at edge e (R190). -/
def Group.heldAt (g : Group) (e : Nat) : Bool := decide (g.holdFrom < e) && decide (e < g.holdEnd)

/-- The group's own conditions of R177. -/
def State.groupOpen (s : State) (g e : Nat) : Bool :=
  decide ((s.group g).weight ≠ 0#8) && !(s.group g).heldAt e

/-- The groups eligible for a target at edge e, in rising order, each once (R177). -/
def State.eligible (s : State) (t e : Nat) : List Nat :=
  (sorted ((s.candsN t e).map s.groupOf)).filter fun g => s.groupOpen g e

/-- The targets that normal candidates name. -/
def State.pendingTargets (s : State) : List Nat :=
  sorted ((keys s.ints).filterMap s.targetOf)

/-- The group is eligible for some target at edge e (R180, R183). -/
def State.eligibleSomewhere (s : State) (g e : Nat) : Bool :=
  s.groupOpen g e && s.pendingTargets.any fun t => (s.candsN t e).any fun k => decide (s.groupOf k = g)

/-! ### Wake (R104) -/

/-- A normal INTID is deliverable to core n at edge e: it waits for it, from the edge of its set on, and its group
may deliver. -/
def State.deliverableN (s : State) (n e : Nat) : Bool :=
  (keys s.ints).any fun k =>
    !s.isFast k && decide (s.targetOf k = some n) && s.waiting k && s.groupOpen (s.groupOf k) e

/-- A fast INTID is deliverable to core n. -/
def State.deliverableF (s : State) (n : Nat) : Bool :=
  (keys s.ints).any fun k => s.isFast k && decide (s.targetOf k = some n) && s.waiting k

/-- The condition under which WAKE_REQ of core n is driven: asleep, with something deliverable. -/
def State.wakeCond (s : State) (n e : Nat) : Bool :=
  let c := s.core n
  decide (n < 256) && c.asleep &&
    ((bit c.mask 2 && !bit c.mask 0 && c.actN.isNone && c.actF.isNone && s.deliverableN n e) ||
     (bit c.mask 3 && !bit c.mask 1 && c.actF.isNone && s.deliverableF n))

/-! ### Withdrawal (R90, R192) -/

/-- The slot holds a presentation picked at this edge, which is not loaded yet (R187). -/
def Slot.fresh (p : Slot) (e : Nat) : Bool := decide (e < p.loadAt)

/-- A withdrawn presentation's 16 credits, saturating; a group of WEIGHT 0 keeps its credit of zero (R181, R192). -/
def Group.refund (g : Group) : Group := if g.weight = 0#8 then g else { g with credit := min (g.credit + 16) 65535 }

/-- The normal presentation of target n is withdrawn at this edge; 16 credits return to its group. One picked at
this very edge is withdrawn at the next one, where it would be loaded (R187). -/
def State.withdrawN (s : State) (n : Nat) : State :=
  match (s.core n).presN with
  | none => s
  | some p =>
    if p.fresh s.clock.dp then s else
    let s := s.modCore n fun c =>
      { c with presN := none, fromN := s.clock.dp + 1,
               lineN := drive c.lineN s.clock.edge (s.clock.edge + 3) false }
    (s.modGroup p.group Group.refund).count fSluice 7

/-- The fast presentation of target n is withdrawn at this edge (R221, R227). Its line has risen or is about to, so
its measurement stands (R228). -/
def State.withdrawF (s : State) (n : Nat) : State :=
  match (s.core n).presF with
  | none => s
  | some p =>
    if p.fresh s.clock.dp then s else
    let s := s.modCore n fun c =>
      { c with presF := none, fromF := s.clock.dp + 1,
               lineF := drive c.lineF s.clock.edge (s.clock.edge + 3) false }
    s.count fFast 5

/-- A presented INTID may stay presented: the fabric has not left its drain for standby (R276), and its class, target, enable, the core's mask and, for a normal one, the empty
active slots still hold. -/
def State.stillN (s : State) (n : Nat) : Bool :=
  match (s.core n).presN with
  | none => true
  | some p => !s.levels.stbyOk && s.awake n && !s.maskN n && !s.isFast p.intid && s.enabled p.intid &&
      decide (s.targetOf p.intid = some n) && (s.int p.intid).pending && (s.core n).actF.isNone

def State.stillF (s : State) (n : Nat) : Bool :=
  match (s.core n).presF with
  | none => true
  | some p => !s.levels.stbyOk && s.awake n && !s.maskF n && s.isFast p.intid && s.enabled p.intid &&
      decide (s.targetOf p.intid = some n) && (s.int p.intid).pending

/-- Every presentation that a change of mask, class, target or enable has made untenable is withdrawn
(R90, R101). -/
def State.recheck (s : State) : State :=
  (keys s.cores).foldl
    (fun s n =>
      let s := if s.stillN n then s else s.withdrawN n
      if s.stillF n then s else s.withdrawF n) s

/-- The normal pick of target n, no longer tenable at the edge at which it would be loaded, is withdrawn there: its
line never rises (R187). -/
def State.unloadN (s : State) (n : Nat) : State :=
  match (s.core n).presN with
  | none => s
  | some p =>
    if p.loadAt ≠ s.clock.dp + 1 || s.stillN n then s else
    let s := s.modCore n fun c =>
      { c with presN := none, fromN := s.clock.dp + 2, lineN := drive c.lineN s.clock.edge (s.clock.edge + 3) false }
    (s.modGroup p.group Group.refund).count fSluice 7

/-- The same for a fast pick (R221); it is never measured. -/
def State.unloadF (s : State) (n : Nat) : State :=
  match (s.core n).presF with
  | none => s
  | some p =>
    if p.loadAt ≠ s.clock.dp + 1 || s.stillF n then s else
    let s := s.modCore n fun c =>
      { c with presF := none, fromF := s.clock.dp + 2, lat := c.lat.filter fun w => decide (w.rise ≠ s.clock.edge + 3),
               lineF := drive c.lineF s.clock.edge (s.clock.edge + 3) false }
    s.count fFast 5

/-- Every pick of this edge that a change at the same edge has made untenable is withdrawn at the next edge, at which
the data plane now arrives. -/
def State.loadSlots (s : State) : State :=
  (keys s.cores).foldl (fun (s : State) n => (s.unloadN n).unloadF n) s

/-! ### The array behind the state bank (R217, R453) -/

/-- The unit of the reservoir's bank that writes an INTID's page: the write-through of the fast state bank for those it
holds, else the one given. -/
def unitFor (key unit : Nat) : Nat := if key < 4096 ∨ 131072 ≤ key then 3 else unit

/-- The update of an INTID's page behind a change of its state by a unit of the reservoir's bank: the end of the
read-modify-write whose read decided on the change, where the INTID lives in SRAM, and a whole one where it lives in flops and
is written through (R156, R217). -/
def State.updateInt (s : State) (key unit : Nat) : State :=
  if 4096 ≤ key ∧ key < 131072 then s.rewritePage 2 (unitFor key unit) (reservoirPage key)
  else s.updatePage 2 (unitFor key unit) (reservoirPage key) 4

/-- The read of an INTID's page by a requester whose command carries no verdict of its own: what the page already holds
decides (R386, R390). -/
def State.readInt (s : State) (key req : Nat) : PageResult × State :=
  if 4096 ≤ key ∧ key < 131072 then s.readPage 2 (reservoirPage key) req false cleanRead else (⟨true, false, 0⟩, s)

/-- The core interfaces' unit of a target: DLV-N for T0 to T127 and the keeper's target, DLV-S for T128 to T255
(log entry 72). -/
def coreUnit (n : Nat) : Nat := if 128 ≤ n ∧ n < 256 then 2 else 1

/-! ### The vote of the fast table (R216) -/

/-- A disagreement of the fast lane's three-copy state corrected: FT_VOTE_FIX, FEV_FT_VOTE and FT_VOTE_LAST with its copy, its
store code, its core and its INTID (R216, R217, R229). -/
def State.voteFixed (s : State) (sweep : Bool) (copy store core intid : Nat) : State :=
  let w := 0x80000000#32 ||| flag32 30 sweep ||| at32 28 copy ||| at32 26 store ||| at32 12 core ||| at32 0 intid
  let votes := (s.clock.edge :: s.twin.votes).filter fun e => decide (s.clock.edge ≤ e + 1024)
  { s.event fFast 7 139 with routes.ftVoteLast := w, twin.votes := votes }

/-- A read of a fast-table entry finds a copy that disagrees with the vote: it is recorded, and the voted value is written
back at the next edge. One disagreement counts once, however many reads find it before that edge (R216). -/
def State.ftFix (s : State) (sweep : Bool) (i : Nat) : State :=
  if s.routes.ftBack.contains i then s
  else match (s.ft i).odd with
    | none => s
    | some copy =>
      let s := s.voteFixed sweep copy 0 0 i
      { s with routes.ftBack := s.routes.ftBack ++ [i] }

/-- The edge after: what a vote found is written back to all three copies. An entry written in between keeps the new value,
in which its copies agree. -/
def State.ftWriteBack (s : State) : State :=
  let t := s.routes.ftBack.foldl (fun (s : State) i => s.setFt i (Ft.all (s.ft i).vote)) s
  { t with routes.ftBack := [] }

/-- A read of an INTID's fast-table entry, where it has one. -/
def State.ftRead (s : State) (key : Nat) : State := if 64 ≤ key ∧ key < 4096 then s.ftFix false key else s

/-! ### Sets (R79, R81) -/

/-- A set of an INTID at this edge, which reads its class: Inactive or Active gains the pending bit; a set that finds it set
merges. -/
def State.pend (s : State) (key : Nat) (o : Origin) : State :=
  let s := s.ftRead key
  let x := s.int key
  let s := if s.isFast key then s.count fFast 3 else s
  if x.pending then (s.setInt key { x with setAt := some s.clock.dp }).count fReservoir 3
  else
    (s.setInt key { x with pending := true, candFrom := s.clock.dp + 4, origin := some o, setAt := some s.clock.dp }).updateInt
      key 0

/-! ### Acknowledge, complete, drop (R79, R95, R97, R99, R100) -/

/-- The slot's content as a read at this edge samples it: a slot loaded at an earlier edge (R193). -/
def State.seenN (s : State) (n : Nat) : Option Slot :=
  (s.core n).presN.filter fun p => decide (p.loadAt < s.clock.dp)

def State.seenF (s : State) (n : Nat) : Option Slot :=
  (s.core n).presF.filter fun p => decide (p.loadAt < s.clock.dp)

/-- A set listed before the acknowledge of its edge takes effect after it (R85): it found the INTID Active and did not
merge, so its count in MERGED is taken back. -/
def State.unmerge (s : State) : State :=
  let c := s.counter (ckey fReservoir 3)
  s.setCounter (ckey fReservoir 3) { c with count := c.count - 1#48, ovf := c.ovf && decide (c.count ≠ 0#48) }

/-- The acknowledge of a presented INTID through one class: its state, the slots, the line, the journal
and the counts. A set of it at the same edge leaves it Active and Pending (R85). -/
def State.take (s : State) (n : Nat) (fast : Bool) (p : Slot) : State :=
  let again := decide ((s.int p.intid).setAt = some s.clock.dp)
  let s := s.modInt p.intid fun x =>
    { x with pending := again, active := true, dup := false }
  let s := if again then s.unmerge else s
  let s := s.updateInt p.intid (coreUnit n)
  let s := s.modCore n fun c =>
    if fast then
      { c with presF := none, actF := some { intid := p.intid, dup := p.dup },
               lineF := drive c.lineF s.clock.edge (s.clock.edge + 3) false }
    else
      { c with presN := none, actN := some { intid := p.intid, dup := p.dup },
               lineN := drive c.lineN s.clock.edge (s.clock.edge + 3) false }
  let s := if fast then s.withdrawN n else s
  let s := { s with twin.journal :=
    s.twin.journal.filter (fun (j : AckEntry) => decide (s.clock.edge ≤ j.edge + 512)) ++
      [({ edge := s.clock.edge, target := n, fast := fast, intid := p.intid, origin := (s.int p.intid).origin } : AckEntry)] }
  let s := s.count fReservoir 5
  if n < 256 then
    let s := s.count (fCore n) (if fast then 4 else 3)
    if p.dup then s.count (fCore n) 10 else s
  else s

/-- The content of an active slot. -/
def State.act (s : State) (n : Nat) (fast : Bool) : Option ActSlot :=
  if fast then (s.core n).actF else (s.core n).actN

/-- An active slot emptied; rounds of the target may be held from the next edge (R100). -/
def State.freeSlot (s : State) (n : Nat) (fast : Bool) : State :=
  s.modCore n fun c =>
    if fast then { c with actF := none, fromF := s.clock.dp + 1, fromN := max c.fromN (s.clock.dp + 1) }
    else { c with actN := none, fromN := s.clock.dp + 1 }

/-- Active becomes Inactive and Active+Pending becomes Pending (R79). -/
def State.deactivate (s : State) (key : Nat) : State :=
  s.modInt key fun x =>
    if x.pending then
      { x with active := false, candFrom := if x.candFrom = s.clock.dp + 4 then x.candFrom else min x.candFrom (s.clock.dp + 1) }
    else { x with active := false, origin := none }

/-- The completion or drop of a slot's occupant; a poisoned reservoir page keeps its state (R390). -/
def State.release (s : State) (n : Nat) (fast : Bool) (a : ActSlot) (usable : Bool) : State :=
  let s := s.freeSlot n fast
  if usable && !s.intPoisoned a.intid then (s.deactivate a.intid).updateInt a.intid (coreUnit n) else s

/-- A committed drop of one slot (R97). -/
def State.drop (s : State) (n : Nat) (fast : Bool) : State :=
  match s.act n fast with
  | none => s
  | some a =>
    let r := s.readInt a.intid 4
    ((r.2.release n fast a r.1.usable).event (fCore n) 11 133).count fReservoir 7

end Sys2Proof.Machine
end

