-- ==== Sys2Proof/Machine/Sluice.lean ====
section
/-! DEFINITION. The arbiter design: keys, forced wins and rotation, target rounds, fast rounds, credits, holds and the passage of time in the sluice (R174 to R193, R221). -/

namespace Sys2Proof.Machine

/-! ### One round of any arbiter (R182) -/

/-- A requester in a round: its index, comparison key and forced flag. -/
structure Bid where
  idx : Nat
  key : Nat
  forced : Bool
deriving DecidableEq, Repr

/-- The first index at or after the pointer, wrapping; the list rises. -/
def firstFrom (ptr : Nat) (l : List Nat) : Option Nat :=
  match l.find? fun i => decide (ptr ≤ i) with
  | some i => some i
  | none => l.head?

/-- The largest key of a round. -/
def bestKey (bids : List Bid) : Nat := bids.foldl (fun m b => max m b.key) 0

/-- The winner of a round: the first forced requester at or after the pointer, else the first with the
largest key. -/
def roundWinner (ptr : Nat) (bids : List Bid) : Option Nat :=
  let forced := bids.filter fun b => b.forced
  if forced.isEmpty then
    firstFrom ptr ((bids.filter fun b => decide (b.key = bestKey bids)).map Bid.idx)
  else firstFrom ptr (forced.map Bid.idx)

/-- The round was decided by the pointer among equal keys. -/
def roundTied (bids : List Bid) : Bool :=
  (bids.filter fun b => b.forced).isEmpty &&
    decide (2 ≤ (bids.filter fun b => decide (b.key = bestKey bids)).length)

/-- The round was won under the forced rule. -/
def roundForced (bids : List Bid) : Bool := bids.any fun b => b.forced

/-! ### Group state at one edge (R185, R186) -/

/-- The group's state from before this edge. -/
def Group.before (g : Group) : GroupEdge :=
  match g.snap with
  | some e => e
  | none => { credit := g.credit, age := g.age, wait := g.wait, next := g.next,
              won := false, lost := false, low := 257 }

/-- A win at target t with the chosen INTID: 16 credits charged, age and wait cleared, the pointer moved by
the lowest target's pick, the hold started with the INTERVAL in force before the edge, `span` (R186 to R188, R190). -/
def Group.win (g : Group) (t pick e : Nat) (moves : Bool) (span : Nat) : Group :=
  let b := g.before
  let lowest := decide (t < b.low)
  { g with
    credit := g.credit - 16
    age := 0
    wait := 0
    used := true
    next := if moves && lowest then (if pick + 1 < 131072 then pick + 1 else 64) else g.next
    holdFrom := if span = 0 then g.holdFrom else e
    holdEnd := if span = 0 then g.holdEnd else e + 64 * span
    snap := some { b with won := true, low := if lowest then t else b.low } }

/-- A lost round: age and wait gain one, once an edge, unless the group wins at this edge (R183) or a write of this
edge has cleared it (R181). -/
def Group.lose (g : Group) : Group :=
  let b := g.before
  if b.won || b.lost || decide (g.weight = 0#8) then { g with used := true, snap := some b }
  else
    { g with age := min (b.age + 1) 15, wait := min (b.wait + 1) 1023, used := true,
             snap := some { b with lost := true } }

/-! ### Target rounds (R176, R185, R188) -/

/-- The pointer of target t's arbiter (R184). -/
def State.targetPtr (s : State) (t : Nat) : Nat :=
  match (s.core t).ptr with
  | some p => p
  | none => (bits s.sluice.seed 9 0 + t * (bits s.sluice.seed 25 16 ||| 1)) % 1024

/-- The group as a round of this edge sees it: its state from before the edge (R185). -/
def State.groupAt (s : State) (g : Nat) : GroupEdge :=
  match s.before with
  | none => (s.group g).before
  | some _ => Group.before { s.sampled.group g with snap := none }

/-- The requesters of target t's round at edge e, from the state before the edge (R22, R185). -/
def State.targetBids (s : State) (t e : Nat) : List Bid :=
  let ctrl := s.sampled.reg fSluice 0x20
  (s.sampled.eligible t e).map fun g =>
    let b := s.groupAt g
    { idx := g, key := b.credit + b.age * ageStep ctrl, forced := decide (waitLimit ctrl ≤ b.wait) }

/-- Position of a key in the PRIV_GROUP order: private INTIDs 0 to 63, then shared. -/
def privPos (key : Nat) : Nat := if isPrivate key then key % 64 else key

/-- The INTID that group g presents at target t: its key, from the state before the edge (R188). -/
def State.pickFor (s : State) (t g e : Nat) : Option Nat :=
  let cands := (s.sampled.candsN t e).filter fun k => decide (s.sampled.groupOf k = g)
  if g = s.sampled.privGroup then
    let ks := (cands.filter isPrivate) ++ cands.filter fun k => !isPrivate k
    match firstFrom (s.core t).pp (ks.map privPos) with
    | some p => ks.find? fun k => decide (privPos k = p)
    | none => none
  else firstFrom (s.groupAt g).next cands

/-- Target t may hold a round at this edge: R176's conditions held before the edge, and no round of the edge has filled
its slot (log entry 70). -/
def State.roundDue (s : State) (t : Nat) : Bool :=
  s.startup.ready && !s.levels.stbyOk && decide (t ≤ 256) && s.sampled.normalOpen t && (s.core t).presN.isNone &&
    decide ((s.core t).fromN ≤ s.clock.dp)

/-- The load of a normal presentation slot at the next edge, and its line two edges later (R91, R193). The slot is
filled from the pick on, so that the target holds no round at the edge of the load (DESIGN CHOICE, log entry 70). -/
def State.presentN (s : State) (t g key : Nat) : State :=
  s.modCore t fun c =>
    { c with presN := some { intid := key, dup := (s.int key).dup, loadAt := s.clock.dp + 1, group := g },
             ptr := some ((g + 1) % 1024),
             pp := if g = s.sampled.privGroup then (privPos key + 1) % 131072 else c.pp,
             lineN := drive c.lineN s.clock.edge (s.clock.edge + 3) true }

/-- One target arbiter round at this edge. -/
def State.targetRound (s : State) (t : Nat) : State :=
  if !s.roundDue t then s else
  let e := s.clock.dp
  let bids := s.targetBids t e
  match roundWinner (s.targetPtr t) bids with
  | none => s
  | some g =>
    match s.pickFor t g e with
    | none => s
    | some key =>
      let s := s.count fSluice 3
      let s := if 2 ≤ bids.length then s.count fSluice 4 else s
      let s := if roundForced bids then s.count fSluice 5 else s
      let s := if roundTied bids then s.count fSluice 6 else s
      let span := (s.sampled.group g).interval.toNat
      let s := if span ≠ 0 && !(s.group g).before.won then s.count fSluice 8 else s
      let moves := decide (g ≠ s.sampled.privGroup)
      let s1 := s.presentN t g key
      let s2 := s1.modGroup g fun x => x.win t key e moves span
      (bids.filter fun b => decide (b.idx ≠ g)).foldl (fun s b => s.modGroup b.idx Group.lose) s2

/-! ### Fast rounds (R221) -/

/-- The position of a fast candidate in the selector's order. -/
def fastPos (key : Nat) : Nat := if isPrivate key then key % 64 else key

/-- The first fast candidate of core n at or after FPTR, from the state before the edge. -/
def State.fastPick (s : State) (n e : Nat) : Option Nat :=
  let cs := s.sampled.candsF n e
  let ks := (cs.filter isPrivate) ++ cs.filter fun k => !isPrivate k
  match firstFrom (s.sampled.core n).fptr (ks.map fastPos) with
  | some p => ks.find? fun k => decide (fastPos k = p)
  | none => none

/-- Core n may hold a fast round at this edge: R221's conditions held before the edge, and no round of the edge has
filled its slot. -/
def State.fastDue (s : State) (n : Nat) : Bool :=
  s.startup.ready && !s.levels.stbyOk && decide (n ≤ 256) && s.sampled.fastOpen n && (s.core n).presF.isNone &&
    decide ((s.core n).fromF ≤ s.clock.dp)

/-- One fast round for core n at this edge. A pick counts as in the slot from its round on, so that no round stands at the edge of
its load (DESIGN CHOICE, log entry 70). Whether the presentation is measured is decided here, by LAT_MON_EN as it
stands at the round (DESIGN CHOICE, log entry 71). -/
def State.fastRound (s : State) (n : Nat) : State :=
  let e := s.clock.dp
  if !s.fastDue n then s else
  match s.fastPick n e with
  | none => s
  | some key =>
    let o := (s.sampled.int key).origin
    let w (o : Origin) : LatWait := { rise := s.clock.edge + 3, origin := o, intid := intidOf key }
    let s := s.count fFast 4
    s.modCore n fun c =>
      { c with presF := some { intid := key, dup := (s.int key).dup, loadAt := e + 1, group := 0 },
               fptr := (fastPos key + 1) % 4096,
               lat := if bit (s.reg fFast 0x20) 1 then c.lat ++ (o.map w).toList else c.lat,
               lineF := drive c.lineF s.clock.edge (s.clock.edge + 3) true }

/-! ### The latency monitor (R228) -/

def Origin.edge : Origin → Nat
  | .doorbell e => e
  | .level e => e
  | .software e => e

def Origin.code : Origin → Nat
  | .doorbell _ => 0
  | .level _ => 1
  | .software _ => 2

/-- The bound of R228 for an origin. -/
def Origin.bound : Origin → Nat
  | .doorbell _ => 12
  | .level _ => 10
  | .software _ => 7

/-- A fast presentation's line has risen: FL_LAT_LAST, FL_LAT_MAX and LATE. -/
def State.measure (s : State) (w : LatWait) : State :=
  let l := sat 0xFFFF (w.rise - w.origin.edge)
  let last := 0x80000000#32 ||| at32 29 w.origin.code ||| at32 16 w.intid ||| at32 0 l
  let s := { s with routes.latLast := last }
  let s := if (s.reg fFast 0x34).toNat < l then s.setReg fFast 0x34 (at32 0 l) else s
  if w.origin.bound < l then s.count fFast 6 else s

/-- A measurement put in its place by the edge of its rise, after those of the same edge. -/
def putRise (w : LatWait) : List LatWait → List LatWait
  | [] => [w]
  | v :: t => if w.rise < v.rise then w :: v :: t else v :: putRise w t

/-- The measurements whose line has risen by edge `e`, by the edge of the rise and, where lines rise together, by core
number: FL_LAT_LAST keeps the highest core's (DESIGN CHOICE, log entry 71). -/
def State.risen (s : State) (e : Nat) : List LatWait :=
  (s.cores.flatMap fun c => c.2.lat.filter fun w => decide (w.rise ≤ e)).foldl (fun l w => putRise w l) []

/-- The measurements whose line has risen by edge `e` are recorded, each at the edge of its rise. In a freeze IRQ_F is held low:
no line rises (R360). -/
def State.measureAll (s : State) (e : Nat) : State :=
  let due := s.risen e
  if due.isEmpty || s.twin.failover.isSome then s else
  let s := (keys s.cores).foldl
    (fun (s : State) n => s.modCore n fun c => { c with lat := c.lat.filter fun w => decide (e < w.rise) }) s
  due.foldl State.measure s

/-! ### Window boundaries (R179, R180) -/

/-- A group's refill at a boundary edge by the weight in force before it; a group whose WEIGHT is 0, or becomes non-zero
at the edge itself, keeps credit 0 (R180, R181). -/
def Group.refill (g : Group) (weight : Nat) : Group :=
  if g.weight = 0#8 ∨ weight = 0 then { g with used := false }
  else if g.used then { g with credit := min (g.credit + 16 * weight) 65535, used := false }
  else { g with credit := 16 * weight, used := false }

/-! ### Time in the sluice (R183, R104) -/

/-- What the edges since the last command do to a group: its age and wait fall to 0 at an edge at which it
is eligible nowhere (R183), and USED is set at one at which it is eligible (R180). -/
def State.groupIdle (s : State) (d g : Nat) : State :=
  let first := s.eligibleSomewhere g (s.clock.dp + 1)
  let last := s.eligibleSomewhere g (s.clock.dp + d)
  s.modGroup g fun x =>
    { x with age := if first then x.age else 0, wait := if first then x.wait else 0,
             used := x.used || first || last, snap := none }

/-- The group pages' live state over d data-plane edges. -/
def State.sluiceIdle (s : State) (d : Nat) : State :=
  if d = 0 then s else
  (keys s.sluice.groups).foldl (fun s g => s.groupIdle d g) s

/-- The edges of a span at which a sleeping core's condition may change: its first, where a hold begins to run, and where
a hold ends. -/
def State.wakeEdges (s : State) (d : Nat) : List Nat :=
  let e := s.clock.dp
  sorted ((e :: (e + 1) :: s.sluice.groups.map fun g => g.2.holdEnd).filter fun x => decide (e ≤ x) && decide (x < e + d))

/-- The driver of WAKE_REQ takes the condition of edge p at p + 1, the core edge at p + 3 (R104, R105). -/
def State.wakeDrive (s : State) (n p : Nat) : State :=
  let v := s.wakeCond n p
  if v = (s.core n).wake then s
  else
    let at_ := s.clock.edge + (p - s.clock.dp) + 3
    let s := s.modCore n fun c => { c with wake := v, lineW := drive c.lineW s.clock.edge at_ v }
    if v then s.count (fCore n) 9 else s

/-- WAKE_REQ of one core over d data-plane edges. -/
def State.wakeIdle (s : State) (d n : Nat) : State :=
  (s.wakeEdges d).foldl (fun (s : State) p => s.wakeDrive n p) s

/-- WAKE_REQ of every core over d data-plane edges. -/
def State.wakesIdle (s : State) (d : Nat) : State :=
  if d = 0 then s else
  (keys s.cores).foldl
    (fun s n => if (s.core n).asleep || (s.core n).wake then s.wakeIdle d n else s) s

end Sys2Proof.Machine
end

