-- ==== Sys2Proof/Machine/Sets.lean ====
section
/-! DEFINITION. Sets by origin (R233): the reservoir, a slice's local queue or the spillway, and the fabric events of an edge. -/

namespace Sys2Proof.Machine

/-! ### Records made inside the block (R234, R457) -/

/-- A record that no doorbell made: its INTID, reason and RID. -/
def madeRec (intid reason rid : Nat) : Rec :=
  { payload := 0#32, intid := intid, reason := BitVec.ofNat 6 reason, tag := 0#8,
    rid := BitVec.ofNat 16 rid, source := none }

/-- A record for the spillway that waits inside the block for its SPILLWAY_APPEND (R253). -/
def State.spillRec (s : State) (r : Rec) : State :=
  { s with pump.spill.inside := s.pump.spill.inside ++ [r] }

/-- A dropped spillway or local-queue record (R253, R457). -/
def State.spillDrop (s : State) : State := s.event fPump 5 141

/-- A slice's local queue has a place (R457). -/
def State.localRoom (s : State) (c : Nat) : Bool := decide ((s.localQ (sliceOf c)).length < 128)

/-- A record entered into its slice's local queue. -/
def State.pushLocal (s : State) (c : Nat) (r : Rec) : State :=
  s.setLocalQ (sliceOf c) (s.localQ (sliceOf c) ++ [(c, r)])

/-- A level-line or fabric-event record: queued, or dropped where the queue is full (R457). -/
def State.localOrDrop (s : State) (c : Nat) (r : Rec) : State :=
  if s.localRoom c then s.pushLocal c r else s.spillDrop

/-! ### The mirror of MODE and CISTERN for INTIDs 72 to 159 (R458) -/

/-- The mirrored route word of an INTID: MODE at bit 15, CISTERN below. -/
def mirrorWord (r : DWord) : BitVec 16 := BitVec.ofNat 16 ((if rtMode r then 32768 else 0) + rtCistern r)

def State.mirrorOf (s : State) (x : Nat) : BitVec 16 := look 0#16 s.routes.mirror x

/-- The cistern of an enabled cistern-mode level or event INTID, read from the flops (R458). -/
def State.mirrorCistern (s : State) (x : Nat) : Option Nat :=
  if ftRtEn (s.fast x) && bit (s.mirrorOf x) 15 then some (bits (s.mirrorOf x) 14 0) else none

/-! ### Outcomes by origin -/

/-- A fabric event's set (R44, R233): a record where its route is enabled in cistern mode, else a set,
held Pending where the route is disabled. The mirrors are read as they stood before this edge (R22, R215). -/
def State.eventSet (s : State) (fev : Nat) : State :=
  match s.sampled.mirrorCistern fev with
  | some c => (s.ftRead fev).localOrDrop c (madeRec fev 0x0E 0)
  | none => s.pend fev (.software s.clock.edge)

/-- Every event raised at this edge applied, records by increasing INTID (R457). -/
def State.applyEvents (s : State) : State :=
  let evs := s.raised.foldr (fun k l => insertAll k l) []
  evs.foldl State.eventSet { s with raised := [] }
where
  /-- An event put in its place in a rising list; equal events stay. -/
  insertAll (k : Nat) : List Nat → List Nat
    | [] => [k]
    | j :: t => if k ≤ j then k :: j :: t else j :: insertAll k t

/-- The events of an edge and those their own counts raise; the last round leaves none (R85). -/
def State.settle : Nat → State → State
  | 0, s => { s with raised := [] }
  | n + 1, s => if s.raised.isEmpty then s else State.settle n s.applyEvents

/-- The chain of counter wraps and drops of one edge is shorter than this. -/
abbrev settleFuel : Nat := 8

/-- A set whose reservoir page is poisoned makes a POISON record in the spillway and counts a hit (R390). -/
def State.pendOrPoison (s : State) (key : Nat) (o : Origin) (rid : Nat) : State :=
  let r := s.readInt key 4
  if r.1.usable then r.2.pend key o else r.2.spillRec (madeRec (intidOf key) 0x06 rid)

end Sys2Proof.Machine
end

