-- ==== Sys2Proof/Machine/Arbiters.lean ====
section
/-! DEFINITION. Bank, cistern-input, outbound and mailbox arbiters: pointers, credit, one round and its charges, and window boundaries (R174 to R202). -/

namespace Sys2Proof.Machine

/-! ### Arbiters by number

A route bank b is arbiter b, a rights bank 16 + b (tier 2); 300 + b and 316 + b are their tier 3. The other memories
have one bank each: memory m is arbiter 400 + m for tier 2 (R453) and 340 + m for tier 3 (log entry 18). The outbound
port is 50, the mailboxes 51, the cistern input of cistern c is 1000 + c. -/

/-- The pointer an arbiter is formed with (R184). -/
def State.seedPtr (s : State) (id : Nat) : Nat :=
  let w := s.sluice.seed
  if id < 16 then (bits w 35 32 + id) % 16
  else if id < 32 then (bits w 39 36 + (id - 16)) % 16
  else if id = 50 then bits w 62 48
  else if id = 51 then bits w 15 10
  else if 1000 ≤ id then (bits w 43 40 + (id - 1000)) % 16
  else if 400 ≤ id then bits w 47 44 % unitCount (id - 400)
  else 0

/-- The number of requester indices of an arbiter. R184 gives the outbound port indices 0 to 32,767; re-pair staging, its
further requester (R254), takes index 32,768, and the pointer turns modulo 32,769 (DESIGN CHOICE, log entry 73). -/
def arbCount (id : Nat) : Nat :=
  if id = 50 then 32769 else if id = 51 then 64 else if 300 ≤ id ∧ id < 350 then 3
  else if 400 ≤ id ∧ id < 410 then unitCount (id - 400) else 16

/-- The control word of an arbiter: window, AGE_STEP, WAIT_LIMIT. -/
def State.arbCtrl (s : State) (id : Nat) : Word :=
  if id = 50 then s.reg fOut 0x20 else if id = 51 then s.reg fKeeper 0x28 else s.reg fSluice 0x28

/-- The weight of a requester now (R174, R254). -/
def State.arbWeight (s : State) (id i : Nat) : Nat :=
  if id = 50 then
    if i = 0 then atLeast1 (bits (s.reg fOut 0x24) 7 0)
    else if i = 32768 then atLeast1 (bits (s.reg fOut 0x24) 15 8)
    else match s.cached i with
      | some c => dscWeight c.w2
      | none => 1
  else if id = 51 then s.mbWeight i
  else if 300 ≤ id ∧ id < 350 then atLeast1 (bits (s.reg fSluice 0x2C) (8 * i + 7) (8 * i))
  else if 400 ≤ id ∧ id < 410 then 16
  else s.portWeight i

/-- The place of a requester's idle credit in the boundary snapshot. -/
def refillKey (id i : Nat) : Nat :=
  if id = 50 then 100000 + i else if id = 51 then 200 + i
  else if 300 ≤ id ∧ id < 350 then 100 + i
  else if 400 ≤ id ∧ id < 410 then 110 + i else i

/-- An arbiter: as used, or as formed. -/
def State.arb (s : State) (id : Nat) : Arbiter :=
  match look none s.sluice.arbiters id with
  | some a => a
  | none => { ptr := s.seedPtr id, reqs := [] }

/-- The credit of a requester that has been idle since the last boundary: 16 times the weight in force before
it (R180), and zero before the arbiter's first boundary (R184, R207). An arbiter formed since the boundary
starts so too (log entry 16). -/
def State.idleCredit (s : State) (id i : Nat) : Nat :=
  match look none s.sluice.refill (refillKey id i) with
  | some c => c
  | none => if id = 50 then 16 * s.arbWeight id i else 0

/-- The live state of a requester. -/
def State.requester (s : State) (id i : Nat) : Requester :=
  match (s.arb id).reqs.find? fun e => decide (e.1 = i) with
  | some e => e.2
  | none => { Requester.reset with credit := s.idleCredit id i }

/-- The bids of the requesters that wait, by the control word and the live state from before the edge (R22, R182). -/
def State.bidsOf (s : State) (id : Nat) (idxs : List Nat) : List Bid :=
  let ctrl := s.sampled.arbCtrl id
  idxs.map fun i =>
    let r := s.sampled.requester id i
    { idx := i, key := r.credit + r.age * ageStep ctrl, forced := decide (waitLimit ctrl ≤ r.wait) }

/-- The winner of a round among the requesters that wait, in rising order. -/
def State.arbWinner (s : State) (id : Nat) (idxs : List Nat) : Option Nat :=
  roundWinner (s.sampled.arb id).ptr (s.bidsOf id idxs)

/-- The round was won under the forced rule. -/
def State.arbForced (s : State) (id : Nat) (idxs : List Nat) : Bool := roundForced (s.bidsOf id idxs)

/-- One requester after a round: the winner charged, those served cleared, losers aged, the others at rest
(R183, R186, R201). -/
def Requester.after (r : Requester) (won served waits : Bool) : Requester :=
  if won then { credit := r.credit - 16, age := 0, wait := 0, used := true }
  else if served then { r with age := 0, wait := 0, used := true }
  else if waits then { r with age := min (r.age + 1) 15, wait := min (r.wait + 1) 1023, used := true }
  else { r with age := 0, wait := 0 }

/-- The updates of a round: `idxs` waited, `win` won, `served` were served by the same grant. -/
def State.arbCharge (s : State) (id win : Nat) (idxs served : List Nat) : State :=
  let a := s.arb id
  let all := sorted (keys a.reqs ++ idxs)
  let reqs := all.foldl
    (fun t i => ins Requester.reset t i
      ((s.requester id i).after (decide (i = win)) (served.contains i) (idxs.contains i))) a.reqs
  let a : Arbiter := { ptr := (win + 1) % arbCount id, reqs := reqs }
  { s with sluice.arbiters := ins none s.sluice.arbiters id (some a) }

/-- The age and wait of a requester that does not wait at an edge, or is masked there, fall to 0 (R183, R197). -/
def State.restArb (s : State) (id : Nat) (waits : List Nat) : State :=
  match look none s.sluice.arbiters id with
  | none => s
  | some a =>
    let reqs := a.reqs.map fun e => if waits.contains e.1 then e else (e.1, { e.2 with age := 0, wait := 0 })
    { s with sluice.arbiters := ins none s.sluice.arbiters id (some { a with reqs := reqs.filter fun e => decide (e.2 ≠ Requester.reset) }) }

/-- A cistern-input arbiter whose cistern has no waiting records any more (R184). -/
def State.dropArb (s : State) (id : Nat) : State :=
  { s with sluice.arbiters := ins none s.sluice.arbiters id none }

/-! ### Window boundaries (R179, R180) -/

/-- The arbiter belongs to a window of the kind. -/
def arbOfKind (kind : WindowKind) (id : Nat) : Bool :=
  match kind with
  | .target => false
  | .bank => decide (id ≠ 50) && decide (id ≠ 51)
  | .outbound => decide (id = 50)
  | .mailbox => decide (id = 51)

/-- The exclusive group of a resumable opcode (R304). -/
def opGroup (op : Nat) : Option Nat :=
  if op = 0x13 then some 0 else if op = 0x41 ∨ op = 0x42 then some 1
  else if op = 0x50 ∨ op = 0x51 then some 2 else if op = 0xA1 then some 3 else none

/-- The mailbox whose resumable command runs: it holds that command at each step boundary, and so is eligible there
(R295), which keeps its credit from the idle clamp (R180, R304's worked preemption). -/
def State.stepHolder (s : State) : Option Nat :=
  match s.keeper.run with
  | some r => if (opGroup r.cmd.opcode.toNat).isSome then some r.cmd.host else none
  | none => none

/-- The mailbox of a resumable command that ends was eligible in this window (R180, R295). -/
def State.usedBox (s : State) : State :=
  match s.stepHolder with
  | none => s
  | some h =>
    let a := s.arb 51
    let reqs := ins Requester.reset a.reqs h { s.requester 51 h with used := true }
    { s with sluice.arbiters := ins none s.sluice.arbiters 51 (some { a with reqs := reqs }) }

/-- A requester's refill: carried where it was eligible since the last boundary, else the idle clamp, which is
what an unlisted requester reads. `w` is the weight in force before the boundary, `waits` whether it waits now. -/
def State.refillArb (s : State) (id : Nat) (waits : List Nat) : State :=
  let a := s.arb id
  let held := if id = 51 then s.stepHolder.toList else []
  let reqs := (sorted (keys a.reqs ++ waits ++ held)).foldl
    (fun t i =>
      let r := s.requester id i
      if r.used || waits.contains i || held.contains i then
        ins Requester.reset t i
          { r with credit := min (r.credit + 16 * s.sampled.arbWeight id i) 65535, used := false }
      else ins Requester.reset t i Requester.reset) a.reqs
  { s with sluice.arbiters := ins none s.sluice.arbiters id (some { a with reqs := reqs }) }

/-- The idle credits of a kind's fixed requesters taken at a boundary. -/
def State.snapRefill (s : State) (kind : WindowKind) : State :=
  let put (l : List (Nat × Nat)) : State → State := fun s =>
    l.foldl (fun (s : State) e =>
      let w := some (16 * s.sampled.arbWeight e.1 e.2)
      { s with sluice.refill := ins none s.sluice.refill (refillKey e.1 e.2) w }) s
  match kind with
  | .target => s
  | .bank => put ((List.range 16).map (fun i => (0, i)) ++ (List.range 3).map (fun i => (300, i)) ++ (List.range 4).map fun i => (402, i)) s
  | .outbound => put [(50, 0), (50, 32768)] s
  | .mailbox => put ((List.range 64).map fun i => (51, i)) s

/-- The window end in force for a kind (R179, R207, R263, R295). -/
def State.windowEnd (s : State) : WindowKind → Nat
  | .target => s.sluice.targetWindow
  | .bank => s.sluice.bankWindow
  | .outbound => s.sluice.outWindow
  | .mailbox => s.sluice.mbWindow

def State.windowCtrl (s : State) : WindowKind → Word
  | .target => s.reg fSluice 0x20
  | .bank => s.reg fSluice 0x28
  | .outbound => s.reg fOut 0x20
  | .mailbox => s.reg fKeeper 0x28

def State.setWindow (s : State) (kind : WindowKind) (e : Nat) : State :=
  match kind with
  | .target => { s with sluice.targetWindow := e, sluice.targetLast := s.clock.dp }
  | .bank => { s with sluice.bankWindow := e }
  | .outbound => { s with sluice.outWindow := e }
  | .mailbox => { s with sluice.mbWindow := e }

/-- A window boundary: credits refilled or clamped, the next boundary placed by the window in force (R179,
R180). `waits id` are the requesters that wait at an arbiter at this edge. -/
def State.boundary (s : State) (kind : WindowKind) (waits : Nat → List Nat) : State :=
  let s := match kind with
    | .target =>
      (sorted ((keys s.sluice.groups))).foldl
        (fun (s : State) g =>
          let on := s.sampled.eligibleSomewhere g s.clock.dp
          s.modGroup g fun x => Group.refill { x with used := x.used || on } (s.sampled.group g).weight.toNat) (s.count fSluice 12)
    | kind =>
      let s := ((keys s.sluice.arbiters).filter (arbOfKind kind)).foldl (fun (s : State) id => s.refillArb id (waits id)) s
      s.snapRefill kind
  s.setWindow kind (s.clock.dp + ctrlWindow (s.sampled.windowCtrl kind))

end Sys2Proof.Machine
end

