-- ==== Sys2Proof/Machine/Pump.lean ====
section
/-! DEFINITION. The cistern pump: regions, the descriptor cache, breaks, notifies, records and the spillway (R232 to R253). -/

namespace Sys2Proof.Machine

/-! ### Permitted regions (R241, R263) -/

def State.regionBase (s : State) (i : Nat) : Nat :=
  bits (s.reg fOut (0x800 + 32 * i)) 31 12 * 4096 + (s.reg fOut (0x804 + 32 * i)).toNat * 2 ^ 32
def State.regionEnd (s : State) (i : Nat) : Nat :=
  bits (s.reg fOut (0x808 + 32 * i)) 31 12 * 4096 + (s.reg fOut (0x80C + 32 * i)).toNat * 2 ^ 32 + 4096
def State.regionKind (s : State) (i : Nat) : Nat := bits (s.reg fOut (0x810 + 32 * i)) 1 0
def State.regionTable (s : State) (i : Nat) : Bool := bit (s.reg fOut (0x810 + 32 * i)) 2
def State.regionHost (s : State) (i h : Nat) : Bool :=
  if h < 32 then bit (s.reg fOut (0x814 + 32 * i)) h else bit (s.reg fOut (0x818 + 32 * i)) (h - 32)

/-- An access of n bytes at an address is permitted for host h; a table read needs TABLE besides. A region whose LIMIT is
below its BASE contains no address. A region change counts for accesses checked after its edge (R22, R263). -/
def State.permitted (s : State) (h a n : Nat) (table : Bool) : Bool :=
  let s := s.sampled
  !((List.range 16).any fun i =>
      decide (s.regionKind i = 2) && decide (s.regionBase i < s.regionEnd i) && decide (a < s.regionEnd i) &&
        decide (s.regionBase i < a + n)) &&
  (List.range 16).any fun i =>
      decide (s.regionKind i = 1) && decide (s.regionBase i ≤ a) && decide (a + n ≤ s.regionEnd i) &&
        s.regionHost i h && (!table || (s.regionTable i && s.regionHost i 0))

/-! ### Known fill and the float mark (R245, R252) -/

/-- The known fill of a cached cistern. -/
def Cached.fill (c : Cached) : Nat := (c.total - c.consumed).toNat

/-- 2^L. -/
def Cached.size (c : Cached) : Nat := 2 ^ dscLog2 c.w0

/-- The float mark in records; 0 when there is none. -/
def Cached.mark (c : Cached) : Nat := dscFloat c.w2 * 2 ^ (dscLog2 c.w0 - 4)

/-- The float-mark status. -/
def Cached.floatUp (c : Cached) : Bool :=
  decide (c.st = .opened) && decide (c.mark ≠ 0) && decide (c.mark ≤ c.fill)

/-- The ring address of the record of append count i. -/
def Cached.ringAt (c : Cached) (i : Nat) : Nat := dscBase c.w0 + 16 * (i % c.size)

/-- The producer word (R239). -/
def producerWord (boot : BitVec 16) (c : Cached) : DWord := boot ++ c.cross ++ c.total

/-! ### Records in memory (R234, R236) -/

/-- The sixteen bytes of a record: append index, ring exponent, TIME. -/
def recordBytes (r : Rec) (index l : Nat) (time : BitVec 31) : List Byte :=
  leBytes 4 r.payload.toNat ++ leBytes 3 (r.intid % 2 ^ 17 + r.reason.toNat * 2 ^ 18) ++ [r.tag] ++
    leBytes 2 r.rid.toNat ++ leBytes 2 (index % 65536) ++
    leBytes 4 (time.toNat + if index / 2 ^ l % 2 = 0 then 2 ^ 31 else 0)

/-- Bytes laid at consecutive addresses. -/
def bytesAt : Nat → List Byte → List (Nat × Byte)
  | _, [] => []
  | a, b :: t => (a, b) :: bytesAt (a + 1) t

/-- The bytes that a line write carries. -/
def lineBytes (base l : Nat) (items : List Buffered) : List (Nat × Byte) :=
  (items.map fun b => bytesAt (base + 16 * (b.index % 2 ^ l)) (recordBytes b.item b.index l b.time)).flatten

/-- The timestamp count's low 31 bits (R234). -/
def State.stamp (s : State) : BitVec 31 := BitVec.ofNat 31 ((s.clock.edge - s.clock.readyEdge) / 64)

/-! ### Settling of doorbells (R69, R122, R249) -/

/-- A doorbell settles with its response code. -/
def State.settleDb (s : State) (p id : Nat) (code : BitVec 2) : State :=
  s.modPort p fun x =>
    { x with unsettled := x.unsettled.filter fun (u : Unsettled) => decide (u.id ≠ id),
             awaiting := x.awaiting.map fun (a : Awaiting) =>
               if a.id = id then { a with code := some (a.pre.getD code), settledAt := s.clock.edge } else a }

/-- The doorbell of a record, if one made it, settles: with the code fixed earlier (FAULT for a gate fault, ERROR
for a lookup that met an uncorrectable page), else OK (R122, R249). -/
def State.settleRec (s : State) (r : Rec) : State :=
  match r.source with
  | some (p, id) => s.settleDb p id 1#2
  | none => s

/-- The response code of a doorbell fixed before it settles (R122, R124). -/
def State.markCode (s : State) (p id : Nat) (code : BitVec 2) : State :=
  s.modPort p fun x =>
    { x with awaiting := x.awaiting.map fun (a : Awaiting) =>
        if a.id = id then { a with pre := some code } else a }

/-! ### The spillway (R253) -/

def State.spillCtrl (s : State) : Word := s.reg fPump 0x34
def State.spillLog (s : State) : Nat := bits s.spillCtrl 28 24
def State.spillBase (s : State) : Nat :=
  bits (s.reg fPump 0x2C) 31 8 * 256 + (s.reg fPump 0x30).toNat * 2 ^ 32

/-- The spillway's fill. -/
def State.spillFill (s : State) : Nat := (s.pump.spill.total - s.reg fPump 0x38).toNat

/-- The spillway is enabled, of a legal size and not dead. -/
def State.spillLives (s : State) : Bool :=
  bit s.spillCtrl 31 && decide (4 ≤ s.spillLog) && decide (s.spillLog ≤ 20) && !s.pump.spill.dead

/-- The spillway's ring lies wholly in memory permitted to H0. -/
def State.spillPermitted (s : State) : Bool := s.permitted 0 s.spillBase (2 ^ (s.spillLog + 4)) false

/-- A record for the spillway is dropped at this edge. -/
def State.spillDrops (s : State) : Bool :=
  !s.spillLives || !s.spillPermitted || decide (2 ^ s.spillLog ≤ s.spillFill)

/-- The line a record index lies in. -/
def lineOf (l index : Nat) : Nat := index % 2 ^ l / 4

/-- The line write of a buffer. -/
def lineReq (k : OutKind) (base l host : Nat) (items : List Buffered) : OutReq :=
  let first := match items with
    | b :: _ => b.index
    | [] => 0
  { kind := k, addr := base + 64 * lineOf l first, host := host, line := true, bytes := lineBytes base l items }

/-- A buffer granted at this very edge is free for another line from the next edge only (R247). -/
def freeFor (granted : Option (Nat × Nat)) (now line : Nat) : Bool :=
  match granted with
  | some (e, l) => decide (e ≠ now) || decide (l = line)
  | none => true

/-- The spillway can take a record at this edge: one per edge, and only into the line its buffer holds. -/
def State.spillReady (s : State) : Bool :=
  let line := lineOf s.spillLog s.pump.spill.total.toNat
  decide (s.pump.spill.lastAppend ≠ some s.clock.dp) &&
    match s.pump.spill.buffer with
    | [] => freeFor s.pump.spill.granted s.clock.dp line
    | b :: _ => decide (s.pump.spill.buffer.length < 4) && decide (lineOf s.spillLog b.index = line)

/-- A record dropped because the spillway's ring is not wholly permitted counts as an access not issued (R264). -/
def State.countDenied (s : State) : State := if s.spillLives && !s.spillPermitted then s.count fOut 6 else s

/-- A record appended to the spillway, or dropped; none when it must wait. -/
def State.spillTake (s : State) (r : Rec) : Option State :=
  if s.spillDrops then some ((s.settleRec r).countDenied.spillDrop)
  else if !s.spillReady then none
  else
    let sp := s.pump.spill
    let gap := match sp.lastAppend with
      | some a => decide (a + 1 < s.clock.dp)
      | none => false
    let b : Buffered := { index := sp.total.toNat, time := s.stamp, appended := s.clock.edge, item := r }
    let sp := { sp with total := sp.total + 1, buffer := sp.buffer ++ [b],
                        offered := (sp.offered || gap) && !sp.buffer.isEmpty, lastAppend := some s.clock.dp }
    let s := { s with pump.spill := sp }
    let s := s.count fPump 4
    let code := r.reason.toNat
    some (if 0x10 ≤ code ∧ code ≤ 0x16 then s.count fPump (1 + code) else s)

/-- A record with another reason (R235). -/
def Rec.as (r : Rec) (reason : Nat) : Rec := { r with reason := BitVec.ofNat 6 reason }

/-! ### Breaks (R242) -/

/-- A cistern breaks: its entry, BROKEN_CNT, WALK_LAST and the event. -/
def State.breakCistern (s : State) (c reason cause step : Nat) : State :=
  match s.cached c with
  | none => s
  | some x =>
    match x.st with
    | .broken _ => s
    | _ =>
      let s := s.setCached c (some { x with st := .broken (BitVec.ofNat 6 reason), headOut := false,
                                            wanted := false, asked := false, held := none })
      let w := 0x80000000#32 ||| at32 28 cause ||| at32 25 step ||| at32 0 c
      { (s.event fPump 11 140) with pump.walkLast := w }

/-! ### Notifies (R250, R251) -/

/-- A notify set for an INTID whose owner must be `owner`; `denied` is the record made otherwise. -/
def State.notifySet (s : State) (intid owner : Nat) (denied : Option Rec) : State :=
  let r := s.route intid
  if !rtMode r && decide (rtOwner r = owner) then
    let r := s.readInt intid 4
    if r.1.usable then (r.2.count fPump 6).pend intid (.software s.clock.edge) else r.2.spillRec (madeRec intid 6 0)
  else match denied with
    | some d => s.spillRec d
    | none => s

/-- The notify of a cistern. -/
def State.notifyCistern (s : State) (c : Nat) (x : Cached) : State :=
  let n := dscNotify x.w2
  let d : Rec := { madeRec n 0x15 0 with payload := BitVec.ofNat 32 c }
  s.notifySet n (dscOwner x.w2) (some d)

/-- Append count a comes at or before b in the order of appends. -/
def notAfter (a b : Nat) : Bool := decide ((b + 2 ^ 32 - a) % 2 ^ 32 < 2 ^ 31)

/-- A write at or before an append count awaits acknowledgement. -/
def Cached.waitsFor (x : Cached) (d : Nat) : Bool := x.unacked.any fun u => notAfter u.1 d

/-- Every notify made due for a record whose write, and every earlier write, has been acknowledged. -/
def State.fireDue (s : State) (c : Nat) : State :=
  match s.cached c with
  | none => s
  | some x =>
    let ready := x.due.filter fun d => !x.waitsFor d
    let rest := x.due.filter x.waitsFor
    let s := s.setCached c (some { x with due := rest })
    ready.foldl (fun s _ => s.notifyCistern c x) s

/-- A notify becomes due for the last record appended (R250). -/
def Cached.makeDue (x : Cached) : Cached :=
  { x with coal := 0, coalAt := none, due := x.due ++ [(x.total - 1).toNat] }

/-! ### The descriptor cache (R243) -/

/-- The cache entries of a slice. -/
def State.sliceEntries (s : State) (sl : Nat) : List (Nat × Cached) :=
  s.pump.cache.filterMap fun e =>
    if sliceOf e.1 = sl then e.2.map fun x => (e.1, x) else none

/-- A record for the cistern waits somewhere. -/
def State.recordWaits (s : State) (c : Nat) : Bool :=
  (s.localQ (sliceOf c)).any (fun e => decide (e.1 = c)) ||
    (s.missQ (sliceOf c)).any fun e => decide (e.1 = c)

/-- A line write of the cistern's records is not yet answered: left behind by an entry, to be rewritten, or issued. -/
def State.lineOut (s : State) (c : Nat) : Bool :=
  let of_ (k : OutKind) : Bool := match k with
    | .line d _ => decide (d = c)
    | _ => false
  (s.pump.left.any fun e => decide (e.1 = c)) || (s.pump.rewrites.any fun (q : OutReq) => of_ q.kind) ||
    s.pump.issued.any fun (a : OutAccess) => of_ a.req.kind && !a.timedOut

/-- A producer-word write of the cistern is not yet answered. -/
def State.producerOut (s : State) (c : Nat) : Bool :=
  let of_ (k : OutKind) : Bool := match k with
    | .producer d _ => decide (d = c)
    | _ => false
  (s.pump.tier1.any fun (q : OutReq) => of_ q.kind) || (s.pump.rewrites.any fun (q : OutReq) => of_ q.kind) ||
    s.pump.issued.any fun (a : OutAccess) => of_ a.req.kind && !a.timedOut

/-- An entry that a fetch may take: no record of its cistern waits and no write of it awaits acknowledgement (R243). A record
that waits for its refresh, or that one has just served, waits too. -/
def State.evictable (s : State) (c : Nat) (x : Cached) : Bool :=
  !x.pinned && x.buffer.isEmpty && x.unacked.isEmpty && !s.lineOut c && !s.producerOut c && x.held.isNone && !x.asked && x.fresh.isNone && !x.closing &&
    !x.syncing &&
    (match x.st with
      | .notOpen => true
      | .opened => true
      | _ => false) && !s.recordWaits c

/-- The entry a fetch takes: entries cached as not open first, then the least recently used. -/
def State.victim (s : State) (sl : Nat) : Option Nat :=
  let es := (s.sliceEntries sl).filter fun e => s.evictable e.1 e.2
  let idle := es.filter fun e => decide (e.2.st = .notOpen)
  let pool := if idle.isEmpty then es else idle
  (pool.foldl
    (fun (m : Option (Nat × Cached)) e =>
      match m with
      | none => some e
      | some b => if e.2.used < b.2.used then some e else m) none).map Prod.fst

/-- A tier-1 request. -/
def State.request (s : State) (r : OutReq) : State := { s with pump.tier1 := s.pump.tier1 ++ [r] }

/-- The request to write a producer word. -/
def producerReq (c : Nat) (x : Cached) (w : DWord) : OutReq :=
  { kind := .producer c w, addr := dscCb x.w1 + 8, host := dscOwner x.w2, line := false,
    bytes := bytesAt (dscCb x.w1 + 8) (leBytes 8 w.toNat) }

/-- The eviction of an entry: the notify due from coalescing, and the producer word if it has changed. -/
def State.evict (s : State) (c : Nat) : State :=
  match s.cached c with
  | none => s
  | some x =>
    let s := (s.count fPump 10).updateCached c 2
    let s := s.setCached c none
    if x.st = .opened then
      let s := if x.coal = 0 then s else s.notifyCistern c x
      if x.dirty then s.request (producerReq c x (producerWord s.pump.bootId x)) else s
    else s

/-- The lowest free place of a slice. -/
def State.freeEntry (s : State) (sl : Nat) : Option Nat :=
  let taken := (s.sliceEntries sl).map fun e => e.2.slot
  ((List.range 512).map fun i => sl * 512 + i).find? fun i => !taken.contains i

/-- An entry's eviction needs a producer-word write that is not permitted. -/
def State.producerBarred (s : State) (x : Cached) : Bool :=
  decide (x.st = .opened) && x.dirty && !s.permitted (dscOwner x.w2) ((dscCb x.w1 + 8) / 32 * 32) 32 false

/-- An entry evicted; one whose producer-word write is not permitted breaks, and the next is taken (R242, R243). -/
def State.evictNext : Nat → Nat → State → State
  | 0, _, s => s
  | n + 1, sl, s =>
    match s.victim sl with
    | none => s
    | some v =>
      match s.cached v with
      | none => s
      | some x => if s.producerBarred x then State.evictNext n sl ((s.count fOut 6).breakCistern v 0x11 1 5) else s.evict v

/-- Place for a new entry in a slice, made by eviction where needed. -/
def State.claimEntry (s : State) (c : Nat) : Option Nat × State :=
  let sl := sliceOf c
  match s.freeEntry sl with
  | some i => (some i, s)
  | none =>
    let s := State.evictNext 512 sl s
    (s.freeEntry sl, s)

/-- An entry that holds nothing yet. -/
def Cached.blank (slot : Nat) (st : CState) (used : Nat) : Cached :=
  { slot := slot, st := st, w0 := 0#64, w1 := 0#64, w2 := 0#64, cross := 0#16, total := 0#32, consumed := 0#32,
    dirty := false, pinned := false, buffer := [], offered := false, unacked := [], due := [], coal := 0,
    coalAt := none, headOut := false, wanted := false, asked := false, fresh := none, held := none, granted := none,
    closing := false, syncing := false, used := used }

/-- The address of a level-1 entry (R238). -/
def State.level1Addr (s : State) (c : Nat) : Nat :=
  bits (s.reg fPump 0x24) 31 10 * 1024 + (s.reg fPump 0x28).toNat * 2 ^ 32 + 8 * (c / 256 % 128)

/-- The address of a descriptor. -/
def descriptorAddr (entry : DWord) (c : Nat) : Nat := bits entry 47 13 * 8192 + 32 * (c % 256)

/-- A read of one unit. -/
def unitRead (k : OutKind) (a h : Nat) : OutReq :=
  { kind := k, addr := a, host := h, line := false, bytes := [] }

/-- A fetch starts, unless no entry can be given to the cistern (R240, R243). -/
def State.startFetch (s : State) (c : Nat) : Bool × State :=
  match s.claimEntry c with
  | (none, s) => (false, s)
  | (some i, s) =>
    let s := s.setCached c (some (Cached.blank i .level1 s.pump.clock))
    let s := { s with pump.clock := s.pump.clock + 1 }
    (true, (s.count fPump 9).request (unitRead (.level1 c) (s.level1Addr c) 0))

/-- The entry was used now. R243 takes the least recently used entry and does not say what uses one: in the model the start of
its fetch, its opening and each append do, and diverted records, head reads and a fetch's answers do not (DESIGN CHOICE, log
entry 98). -/
def State.touch (s : State) (c : Nat) : State :=
  { (s.modCached c fun x => { x with used := s.pump.clock }) with pump.clock := s.pump.clock + 1 }

/-- An entry removed, and a fresh fetch for records that wait for the cistern (R258). -/
def State.removeEntry (s : State) (c : Nat) : State :=
  let s := (s.updateCached c 2).setCached c none
  if (s.missQ (sliceOf c)).any fun e => decide (e.1 = c) then (s.startFetch c).2 else s

/-! ### Head reads (R245) -/

/-- A head read is asked for; one at a time. -/
def State.headRead (s : State) (c : Nat) : State :=
  match s.cached c with
  | none => s
  | some x =>
    if x.headOut then s.setCached c (some { x with wanted := true })
    else
      let s := s.setCached c (some { x with headOut := true })
      s.request (unitRead (.head c) (dscCb x.w1) (dscOwner x.w2))

/-- The append would take the known fill to the float mark or to 2^L, or finds it there, and no refresh has been made
for it (R245, R246). -/
def Cached.wantsRefresh (x : Cached) : Bool :=
  (decide (x.mark ≠ 0) && decide (x.fill + 1 = x.mark) || decide (x.size ≤ x.fill + 1)) &&
    decide (x.fresh ≠ some x.total)

/-! ### The append (R236, R246, R247) -/

/-- What becomes of a record that stands before its cistern at this edge. -/
inductive Appended where
  | waits (s : State)
  | taken (s : State)
  | missed (s : State)
  | diverted (s : State) (reason : Nat)

/-- The record's slot may not enter the line buffer at this edge. -/
def Cached.lineBusy (x : Cached) (now : Nat) : Bool :=
  match x.buffer with
  | [] => !freeFor x.granted now (lineOf (dscLog2 x.w0) x.total.toNat)
  | b :: _ => decide (4 ≤ x.buffer.length) ||
      decide (lineOf (dscLog2 x.w0) b.index ≠ lineOf (dscLog2 x.w0) x.total.toNat)

/-- The record placed at slot TOTAL mod 2^L (R236), with its coalescing and float-mark effects. -/
def State.place (s : State) (c : Nat) (x : Cached) (r : Rec) : State :=
  let now := s.clock.dp
  let last := look none s.pump.lastAppend c
  let gap := match last with
    | some a => decide (a + 1 < now)
    | none => false
  let crossing := decide (x.mark ≠ 0) && decide (x.fill < x.mark) && decide (x.mark ≤ x.fill + 1)
  let b : Buffered := { index := x.total.toNat, time := s.stamp, appended := s.clock.edge, item := r }
  let y : Cached :=
    { x with buffer := x.buffer ++ [b], offered := (x.offered || gap) && !x.buffer.isEmpty,
             total := x.total + 1, unacked := x.unacked ++ [(x.total.toNat, s.clock.edge)], dirty := true, fresh := none,
             held := none, coal := x.coal + 1, coalAt := if x.coal = 0 then some now else x.coalAt,
             cross := if crossing then x.cross + 1 else x.cross }
  let y := if crossing || decide (2 ^ dscCoalLog x.w2 ≤ y.coal) then y.makeDue else y
  let s := s.setCached c (some y)
  let s := { s with pump.lastAppend := ins none s.pump.lastAppend c (some now) }
  let s := ((s.count fPump 3).touch c).updateCached c 1
  if crossing then s.count fPump 7 else s

/-- A record for a cistern at this edge. `first` is false where the cistern's earlier records still wait in the
miss queue, behind which this one goes; `queued` says that the record stands in the miss queue itself. -/
def State.append (s : State) (c : Nat) (r : Rec) (first queued : Bool) : Appended :=
  let room := queued || decide ((s.missQ (sliceOf c)).length < 64)
  match s.cached c with
  | none =>
    if !room then .waits s
    else match s.startFetch c with
      | (true, s) => .missed s
      | (false, s) => .diverted s 0x16
  | some x =>
    let held := match x.held with
      | some h => decide (h.1 = r)
      | none => false
    if x.syncing && !held then if room then .missed s else .waits s
    else if x.closing then .diverted s 0x10
    else match x.st with
      | .notOpen => .diverted s 0x10
      | .broken reason => .diverted s reason.toNat
      | .opened =>
        if !first && !held then if room then .missed s else .waits s
        else if (match x.held with
            | some h => decide (h.1 ≠ r)
            | none => false) then .waits s
        else if look none s.pump.lastAppend c = some s.clock.dp then .waits s
        else if x.wantsRefresh then
          if x.asked then .waits s else .waits ((s.setCached c (some { x with asked := true })).headRead c)
        else if x.size ≤ x.fill then
          if x.held.isSome then .waits s
          else if dscHold x.w0 then
            .waits ((s.setCached c (some { x with held := some (r, s.clock.dp) })).count fPump 13)
          else .diverted s 0x13
        else if x.lineBusy s.clock.dp then .waits s
        else .taken (s.place c x r)
      | _ => if room then .missed s else .waits s

/-- A record entered into its slice's miss queue (R244). -/
def State.pushMiss (s : State) (c : Nat) (r : Rec) : State :=
  s.setMissQ (sliceOf c) (s.missQ (sliceOf c) ++ [(c, r)])

/-- Another record for the cistern waits in the miss queue. -/
def State.missBefore (s : State) (c : Nat) : Bool :=
  (s.missQ (sliceOf c)).any fun e => decide (e.1 = c)

/-- A port has a record in a miss queue: its later doorbells wait behind it (R244). -/
def State.portMissed (s : State) (p : Nat) : Bool :=
  s.pump.missQ.any fun q => q.2.any fun e =>
    match e.2.source with
    | some (q, _) => decide (q = p)
    | none => false

/-! ### Records from the local and miss queues (R457, R244) -/

/-- A record leaves its cistern without being appended: it is held no longer, and its refresh serves no other. -/
def State.unhold (s : State) (c : Nat) : State := s.modCached c fun x => { x with held := none, asked := false, fresh := none }

/-- A refresh that served a record serves no other. -/
def State.spent (s : State) (c : Nat) : State := s.modCached c fun x => { x with asked := false, fresh := none }

/-- A doorbell at the head of a port's normal FIFO marked to leave for the spillway. -/
def State.divertHead (s : State) (p id reason : Nat) : State :=
  s.modPort p fun x =>
    { x with normal := x.normal.map fun (d : Doorbell) =>
        if d.id = id then { d with divert := some (BitVec.ofNat 6 reason) } else d }

/-- A record of a local or miss queue that has been diverted and waits there for the spillway: its reason is one that only
the spillway's records carry (R235, R253). -/
def Rec.leaves (r : Rec) : Bool := decide (r.reason = 6#6) || decide (0x10#6 ≤ r.reason)

/-- A slice's local queue passes on its head at this edge (R457). -/
def State.passLocal (s : State) (sl : Nat) (rest : List (Nat × Rec)) : State :=
  { s.setLocalQ sl rest with pump.lastLocal := ins none s.pump.lastLocal sl (some s.clock.dp) }

/-- A diverted record at the head of a local queue: the spillway takes it, or it waits there with its new reason. -/
def State.leaveLocal (s : State) (sl c : Nat) (r : Rec) (rest : List (Nat × Rec)) : State :=
  match s.spillTake r with
  | some t => t.passLocal sl rest
  | none => s.setLocalQ sl ((c, r) :: rest)

/-- The record at the head of a slice's local queue. -/
def State.appendLocal (s : State) (sl : Nat) : State :=
  match s.localQ sl with
  | [] => s
  | (c, r) :: rest =>
    if look none s.pump.lastLocal sl = some s.clock.dp then s
    else if r.leaves then s.leaveLocal sl c r rest
    else
      match s.append c r (!s.missBefore c) false with
      | .waits s => s
      | .taken s => s.passLocal sl rest
      | .missed s => (s.pushMiss c r).passLocal sl rest
      | .diverted s reason => (s.unhold c).leaveLocal sl c (r.as reason) rest

/-- A record of the miss queue may be taken up: its cistern's fetch has ended. -/
def State.missIdle (s : State) (c : Nat) : Bool :=
  match s.cached c with
  | none => true
  | some x => !x.syncing && (match x.st with
    | .level1 => false
    | .descriptor => false
    | .control => false
    | _ => true)

/-- A diverted record of a miss queue: the spillway takes it, or it waits in the queue with its new reason (log
entry 76). -/
def State.leaveMiss (s : State) (sl c : Nat) (r new : Rec) : State :=
  match s.spillTake new with
  | some t => t.setMissQ sl ((s.missQ sl).erase (c, r))
  | none => s.setMissQ sl ((s.missQ sl).map fun e => if e = (c, r) then (c, new) else e)

/-- The records of a miss queue taken up in their order, each the first of its cistern, until one of them leaves the
queue: one that must wait does not hold those of other cisterns (R244). -/
def State.missPass (sl : Nat) : List (Nat × Rec) → List Nat → State → State
  | [], _, s => s
  | (c, r) :: rest, seen, s =>
    if seen.contains c || !s.missIdle c then State.missPass sl rest (c :: seen) s
    else if r.leaves then
      if (s.spillTake r).isSome then s.leaveMiss sl c r r else State.missPass sl rest (c :: seen) s
    else match s.append c r true true with
      | .waits t => State.missPass sl rest (c :: seen) t
      | .taken t => t.setMissQ sl ((t.missQ sl).erase (c, r))
      | .missed t => State.missPass sl rest (c :: seen) t
      | .diverted t reason => (t.unhold c).leaveMiss sl c r (r.as reason)

/-- A record of a slice's miss queue whose cistern's fetch has ended. -/
def State.appendMiss (s : State) (sl : Nat) : State := State.missPass sl (s.missQ sl) [] s

end Sys2Proof.Machine
end

