-- ==== Sys2Proof/Machine/Fetch.lean ====
section
/-! DEFINITION. What memory answers to the pump: fetches, head reads, producer words and lines, and their failures (R240, R242, R245, R248, R438, R456). -/

namespace Sys2Proof.Machine

/-! ### Accesses by tag (R438, R456) -/

/-- The access awaits read data. -/
def OutKind.isRead : OutKind → Bool
  | .level1 _ => true
  | .descriptor _ => true
  | .control _ => true
  | .cmdLevel1 _ => true
  | .cmdDescriptor _ => true
  | .cmdControl _ => true
  | .head _ => true
  | .producer _ _ => false
  | .line _ _ => false
  | .spill _ => false
  | .respill _ => false
  | .staging _ _ w => !w
  | .image w _ => !w

/-- The access granted under a tag. -/
def State.access (s : State) (tag : Nat) : Option OutAccess :=
  s.pump.issued.find? fun a => decide (a.tag = tag)

/-- The tag freed (R438). -/
def State.freeTag (s : State) (tag : Nat) : State :=
  { s with pump.issued := s.pump.issued.filter fun (a : OutAccess) => decide (a.tag ≠ tag) }

/-- A response beat that names no access or does not fit it (R438). -/
def State.stray (s : State) : State := s.count fOut 5

/-- A response ends an access: strays are counted, late answers only free the tag, and a failure status counts
in OUT_ERRORS (R438, R456). `act` is what the answered access does. An access of a kind that `fits` refuses is
answered by another command, and this one changes nothing (log entry 32). -/
def State.answered (s : State) (tag : Nat) (read ok : Bool) (fits : OutKind → Bool) (act : OutKind → State → State) :
    State :=
  match s.access tag with
  | none => s.stray
  | some a =>
    if a.takenAt.isNone || a.req.kind.isRead ≠ read then s.stray
    else if !fits a.req.kind then s
    else
      let s := s.freeTag tag
      if a.timedOut then s
      else act a.req.kind (if ok then s else s.count fOut 5)

def OutKind.isLevel1 : OutKind → Bool
  | .level1 _ => true
  | .cmdLevel1 _ => true
  | _ => false
def OutKind.isDescriptor : OutKind → Bool
  | .descriptor _ => true
  | .cmdDescriptor _ => true
  | _ => false
def OutKind.isControl : OutKind → Bool
  | .control _ => true
  | .cmdControl _ => true
  | _ => false
def OutKind.isHead : OutKind → Bool
  | .head _ => true
  | _ => false
def OutKind.isLine : OutKind → Bool
  | .line _ _ => true
  | .spill _ => true
  | .respill _ => true
  | _ => false
def OutKind.isProducer : OutKind → Bool
  | .producer _ _ => true
  | _ => false
def OutKind.isImage : OutKind → Bool
  | .image _ _ => true
  | _ => false
def OutKind.isStaging : OutKind → Bool
  | .staging _ _ _ => true
  | _ => false

/-! ### Failures (R240, R242, R248, R253) -/

/-- The keeper's own fetch ends. -/
def State.cmdEnd (s : State) (c : Nat) (e : FetchEnd) : State :=
  { s with keeper.fetch := s.keeper.fetch.map fun (f : CmdFetch) => if f.cistern = c then { f with ended := some e } else f }

/-- A fetch step of a cistern under fetch failed. -/
def State.failFetch (s : State) (c : Nat) (at_ : CState) (cause step : Nat) : State :=
  match s.cached c with
  | some x => if x.st = at_ then s.breakCistern c 0x11 cause step else s
  | none => s

/-- A cistern without an entry breaks all the same: it is counted, recorded and raised (R242). -/
def State.breakUncached (s : State) (c cause step : Nat) : State :=
  { (s.event fPump 11 140) with pump.walkLast := 0x80000000#32 ||| at32 28 cause ||| at32 25 step ||| at32 0 c }

/-- A producer-word write or a head read failed: the cistern breaks, and an entry evicted before stays cached as broken (R242,
R243). Where its place has been given away, it takes one as a fetch does, and is broken uncached where there is none
(DESIGN CHOICE, log entry 77). -/
def State.failEvicted (s : State) (c cause reason step : Nat) : State :=
  match s.cached c with
  | some _ => s.breakCistern c reason cause step
  | none =>
    match s.claimEntry c with
    | (some i, s) => (s.setCached c (some (Cached.blank i .notOpen s.pump.clock))).breakCistern c reason cause step
    | (none, s) => s.breakUncached c cause step

/-- Records of a line that was not written go to the spillway in slot order; TOTAL is not wound back (R242,
R248). -/
def State.failLine (s : State) (c : Nat) (items : List Buffered) (reason cause : Nat) : State :=
  let s := s.modCached c fun x =>
    { x with unacked := x.unacked.filter fun u => !(items.any fun b => decide ((b.index, b.appended) = u)),
             due := x.due.filter fun d => items.all fun b => !notAfter b.index d }
  let s := items.foldl (fun s b => s.spillRec (b.item.as reason)) s
  s.breakCistern c reason cause 4

/-- The spillway is dead and drops the records of the line (R253). -/
def State.failSpill (s : State) (items : List Buffered) (dead : Bool) : State :=
  let s := if dead then { s with pump.spill.dead := true } else s
  items.foldl (fun s b => (s.settleRec b.item).spillDrop) s

/-- A pump access that failed: `cause` 0 for a read error, 1 for a timeout, 2 for an access not permitted. -/
def State.failPump (s : State) (k : OutKind) (cause : Nat) : State :=
  let rd := if cause = 2 then 0 else 2 + cause
  let rdOwn := if cause = 2 then 1 else 2 + cause
  let wr := if cause = 2 then 1 else 5 + cause
  let why := if cause = 2 then 0x11 else 0x14
  match k with
  | .level1 c => s.failFetch c .level1 rd 1
  | .descriptor c => s.failFetch c .descriptor rd 2
  | .control c => s.failFetch c .control rdOwn 3
  | .cmdLevel1 c => s.cmdEnd c .failed
  | .cmdDescriptor c => s.cmdEnd c .failed
  | .cmdControl c => s.cmdEnd c .failed
  | .head c => s.failEvicted c rdOwn 0x11 3
  | .producer c _ => s.failEvicted c wr why 5
  | .line c items => s.failLine c items why wr
  | .spill items => s.failSpill items (decide (cause ≠ 2))
  | .respill items => s.failSpill items (decide (cause ≠ 2))
  | .staging _ _ _ => s
  | .image _ _ => s

/-! ### The three reads of a fetch (R240) -/

/-- Check 3: VALID = 0 or a reserved bit set. -/
def level1Idle (e : DWord) : Bool :=
  !bit e 0 || decide (bits e 63 48 ≠ 0) || decide (bits e 12 1 ≠ 0)

/-- Check 6. -/
def descriptorBad (w0 w1 w2 w3 : DWord) : Bool :=
  dscReserved w0 w1 w2 w3 || decide (dscLog2 w0 < 4) || decide (20 < dscLog2 w0) || decide (dscNotify w2 < 160)

/-- Check 7: the ring and the control block lie wholly in memory permitted to OWNER. -/
def State.descriptorPermitted (s : State) (w0 w1 w2 : DWord) : Bool :=
  s.permitted (dscOwner w2) (dscBase w0) (2 ^ (dscLog2 w0 + 4)) false &&
    s.permitted (dscOwner w2) (dscCb w1) 16 false

/-- The level-1 entry has come. -/
def State.gotLevel1 (s : State) (c : Nat) (e : DWord) : State :=
  match s.cached c with
  | some x =>
    if x.st ≠ .level1 then s
    else if level1Idle e then s.setCached c (some { x with st := .notOpen })
    else ((s.setCached c (some { x with st := .descriptor })).updateCached c 0).request
      (unitRead (.descriptor c) (descriptorAddr e c) 0)
  | none => s

/-- The number of pinned entries of a slice. -/
def State.pinnedIn (s : State) (sl : Nat) : Nat := ((s.sliceEntries sl).filter fun e => e.2.pinned).length

/-- The descriptor has come. -/
def State.gotDescriptor (s : State) (c : Nat) (w0 w1 w2 w3 : DWord) : State :=
  match s.cached c with
  | some x =>
    if x.st ≠ .descriptor then s
    else if !dscValid w0 then s.setCached c (some { x with st := .notOpen })
    else if descriptorBad w0 w1 w2 w3 then s.breakCistern c 0x12 4 2
    else if !s.descriptorPermitted w0 w1 w2 then (s.count fOut 6).breakCistern c 0x11 1 3
    else
      let y := { x with st := .control, w0 := w0, w1 := w1, w2 := w2 }
      ((s.setCached c (some y)).updateCached c 0).request (unitRead (.control c) (dscCb w1) (dscOwner w2))
  | none => s

/-- A cached entry opened with a producer word and a consumed count, by the fetch (unit 0) or a command's action (unit 2, R453). -/
def State.opened (s : State) (c : Nat) (x : Cached) (cross : BitVec 16) (total consumed : Word) (unit : Nat) : State :=
  let pin := dscPin x.w0 && decide (s.pinnedIn (sliceOf c) < 256)
  (s.setCached c (some { x with st := .opened, cross := cross, total := total, consumed := consumed,
                                pinned := pin, dirty := false })).updateCached c unit

/-- The control block has come. -/
def State.gotControl (s : State) (c : Nat) (consumed producer : DWord) : State :=
  match s.cached c with
  | some x =>
    if x.st ≠ .control then s
    else if bits producer 63 48 ≠ s.pump.bootId.toNat then s.setCached c (some { x with st := .notOpen })
    else s.opened c x (BitVec.ofNat 16 (bits producer 47 32)) (loWord producer) (loWord consumed) 0
  | none => s

/-- The level-1 entry of a command's fetch. -/
def State.cmdLevel1 (s : State) (c : Nat) (e : DWord) : State :=
  if level1Idle e then s.cmdEnd c .notValid
  else s.request (unitRead (.cmdDescriptor c) (descriptorAddr e c) 0)

/-- The descriptor of a command's fetch. -/
def State.cmdDescriptor (s : State) (c : Nat) (w0 w1 w2 w3 : DWord) : State :=
  if !dscValid w0 then s.cmdEnd c .notValid
  else
    let s := { s with keeper.fetch := s.keeper.fetch.map fun (f : CmdFetch) =>
      if f.cistern = c then { f with w0 := w0, w1 := w1, w2 := w2 } else f }
    if descriptorBad w0 w1 w2 w3 then s.cmdEnd c .bad
    else if !s.descriptorPermitted w0 w1 w2 then (s.count fOut 6).cmdEnd c .failed
    else s.request (unitRead (.cmdControl c) (dscCb w1) (dscOwner w2))

/-- The control block of a command's fetch. -/
def State.cmdControl (s : State) (c : Nat) (consumed producer : DWord) : State :=
  let s := { s with keeper.fetch := s.keeper.fetch.map fun (f : CmdFetch) =>
    if f.cistern = c then { f with consumed := consumed, producer := producer } else f }
  s.cmdEnd c .read

/-! ### Responses -/

/-- LEVEL1_RESPONSE. -/
def State.level1Response (s : State) (tag : Nat) (ok : Bool) (e : DWord) : State :=
  s.answered tag true ok OutKind.isLevel1 fun k s =>
    match k with
    | .level1 c => if ok then s.gotLevel1 c e else s.failPump k 0
    | .cmdLevel1 c => if ok then s.cmdLevel1 c e else s.failPump k 0
    | _ => s

/-- DESCRIPTOR_RESPONSE. -/
def State.descriptorResponse (s : State) (tag : Nat) (ok : Bool) (w0 w1 w2 w3 : DWord) : State :=
  s.answered tag true ok OutKind.isDescriptor fun k s =>
    match k with
    | .descriptor c => if ok then s.gotDescriptor c w0 w1 w2 w3 else s.failPump k 0
    | .cmdDescriptor c => if ok then s.cmdDescriptor c w0 w1 w2 w3 else s.failPump k 0
    | _ => s

/-- CONTROL_BLOCK_RESPONSE. -/
def State.controlResponse (s : State) (tag : Nat) (ok : Bool) (consumed producer : DWord) : State :=
  s.answered tag true ok OutKind.isControl fun k s =>
    match k with
    | .control c => if ok then s.gotControl c consumed producer else s.failPump k 0
    | .cmdControl c => if ok then s.cmdControl c consumed producer else s.failPump k 0
    | _ => s

/-- A refresh of the known consumed count (R245): a fill above 2^L is taken as 2^L, and a refresh asked for
meanwhile that this result does not satisfy makes a further head read at once. The answer of a head read whose entry has
been evicted meanwhile goes to an entry of the cistern that itself awaits a head read, and to no other (DESIGN CHOICE, log
entry 78). -/
def State.refresh (s : State) (c : Nat) (consumed : Word) : State :=
  match s.cached c with
  | none => s
  | some x =>
    if !x.headOut then s else
    let bad := decide (x.size < (x.total - consumed).toNat)
    let v := if bad then x.total - BitVec.ofNat 32 x.size else consumed
    let serves := x.asked || x.held.isSome
    let y := { x with consumed := v, headOut := false, wanted := false, asked := false,
                      fresh := if serves then some x.total else none }
    let s := if bad then s.count fPump 12 else s
    if x.wanted && decide (y.size ≤ y.fill) then
      (s.setCached c (some { y with asked := x.asked, fresh := none })).headRead c
    else s.setCached c (some y)

/-- HEAD_READ_RESPONSE. -/
def State.headResponse (s : State) (tag : Nat) (ok : Bool) (consumed : DWord) : State :=
  s.answered tag true ok OutKind.isHead fun k s =>
    match k with
    | .head c => if ok then s.refresh c (loWord consumed) else s.failPump k 0
    | _ => s

/-- A line acknowledged: its records settle, and notifies due for them are made (R248, R249, R251, R253). The rewrite of a
spillway line acknowledged before a failover makes no second notify (R256). -/
def State.lineDone (s : State) (k : OutKind) : State :=
  let tally (items : List Buffered) (s : State) : State :=
    let s := s.count fPump 14
    items.foldl (fun s b => s.settleRec b.item) s
  match k with
  | .line c items =>
    let s := tally items s
    let s := s.modCached c fun x =>
      { x with unacked := x.unacked.filter fun u => !(items.any fun b => decide ((b.index, b.appended) = u)) }
    s.fireDue c
  | .spill items =>
    let n := bits s.spillCtrl 16 0
    items.foldl (fun s _ => if n < 160 then s else s.notifySet n 0 none) (tally items s)
  | .respill items => tally items s
  | _ => s

/-- A write acknowledged is kept for two checkpoint intervals, should a failover have to rewrite it (R256). -/
def State.keepLine (s : State) (a : OutAccess) : State :=
  { s with twin.recent := (s.twin.recent.filter fun e => decide (s.clock.edge ≤ e.1 + 512)) ++ [(s.clock.edge, a)] }

/-- LINE_WRITE_RESPONSE. -/
def State.lineResponse (s : State) (tag : Nat) (ok : Bool) : State :=
  let t := s.answered tag false ok OutKind.isLine fun k s => if ok then s.lineDone k else s.failPump k 0
  match s.access tag with
  | some a =>
    if a.req.kind.isLine && ok && a.takenAt.isSome && !a.timedOut then t.keepLine a else t
  | none => t

/-- PRODUCER_WRITE_RESPONSE. -/
def State.producerResponse (s : State) (tag : Nat) (ok : Bool) : State :=
  let t := s.answered tag false ok OutKind.isProducer fun k s => if ok then s else s.failPump k 0
  match s.access tag with
  | some a =>
    if a.req.kind.isProducer && ok && a.takenAt.isSome && !a.timedOut then t.keepLine a else t
  | none => t

/-! ### Timers of the pump (R245, R246, R250) -/

/-- FLOAT_POLL: a head read at a multiple of 256 × POLL while the status is 1. -/
def State.floatPoll (s : State) (c : Nat) : State :=
  let poll := atLeast1 (bits (s.sampled.reg fPump 0x20) 15 8)
  match s.cached c with
  | some x => if x.floatUp && decide (s.clock.edge % (256 * poll) = 0) then s.headRead c else s
  | none => s

/-- HOLD_REFRESH: a head read every 256 FCLK while a record is held. -/
def State.holdRefresh (s : State) (c : Nat) : State :=
  match s.cached c with
  | some x =>
    match x.held with
    | some (_, since) =>
      if since < s.clock.dp ∧ (s.clock.dp - since) % 256 = 0 then s.headRead c else s
    | none => s
  | none => s

/-- HOLD_LIMIT_EXPIRE: the held record is diverted with RING_FULL, unless a refresh has shown space for it (R246). -/
def State.holdLimit (s : State) (c : Nat) : State :=
  let limit := 256 * atLeast1 (bits (s.sampled.reg fPump 0x20) 7 0)
  match s.cached c with
  | some x =>
    match x.held with
    | some (r, since) =>
      if s.clock.dp < since + limit || x.fill < x.size then s
      else
        let s := s.unhold c
        let atHead := match r.source with
          | some (p, id) => (s.port p).normal.any fun (d : Doorbell) => decide (d.id = id)
          | none => false
        if atHead then
          match r.source with
          | some (p, id) => s.divertHead p id 0x13
          | none => s
        else
          let sl := sliceOf c
          let out (e : Nat × Rec) : Nat × Rec := if e = (c, r) then (c, r.as 0x13) else e
          if (s.missQ sl).contains (c, r) then s.setMissQ sl ((s.missQ sl).map out)
          else s.setLocalQ sl ((s.localQ sl).map out)
    | none => s
  | none => s

/-- COAL_TIMER_EXPIRE: a notify becomes due for the last record counted (R250). -/
def State.coalTimer (s : State) (c : Nat) : State :=
  match s.cached c with
  | some x =>
    match x.coalAt with
    | some t =>
      if x.st = .opened ∧ dscCoalTime x.w2 ≠ 0 ∧ t + 64 * dscCoalTime x.w2 ≤ s.clock.dp then
        (s.setCached c (some x.makeDue)).fireDue c
      else s
    | none => s
  | none => s

end Sys2Proof.Machine
end

