-- ==== Sys2Proof/Machine/Lookup.lean ====
section
/-! DEFINITION. Doorbell lookups: the gate's checks, the commit shadow, the repeat cache, bank grants and what one grant serves (R115 to R133, R154, R155). -/

namespace Sys2Proof.Machine

/-! ### Freeze (R360) -/

/-- The data plane stands still. -/
def State.frozen (s : State) : Bool := s.twin.failover.isSome || s.twin.fabricFault

/-- The FCLK data plane runs: READY reached and not frozen. -/
def State.running (s : State) : Bool := s.startup.ready && !s.frozen

/-! ### Acceptance (R112, R113, R126) -/

/-- The port is masked: its requesters' power is not seen, or standby masks it. -/
def Port.isMasked (p : Port) : Bool := p.masked || !p.pwrOk

/-- What drives DB_READY[0] at the next edge. -/
def State.openN (s : State) (p : Nat) : Bool :=
  s.running && bit (s.reg (fPort p) 0x20) 0 && !(s.port p).isMasked &&
    decide ((s.port p).normal.length < 64) && decide ((s.port p).awaiting.length < 64)

/-- What drives DB_READY[1] at the next edge. -/
def State.openF (s : State) (p : Nat) : Bool :=
  s.running && bit (s.reg (fPort p) 0x20) 0 && bit (s.reg (fPort p) 0x20) 1 && !(s.port p).isMasked &&
    decide ((s.port p).fast.length < 8)

/-- DB_READY[0] at this edge, by the state from before it (R113). -/
def State.readyN (s : State) (p : Nat) : Bool := s.running && s.sampled.openN p

/-- DB_READY[1] at this edge. -/
def State.readyF (s : State) (p : Nat) : Bool := s.running && s.sampled.openF p

/-- An offer that is not taken at this edge counts as backpressure: the port was not masked before it, and the data
plane is not frozen (R126, R142, R360). -/
def State.refuses (s : State) (p : Nat) : State :=
  if s.frozen || (s.sampled.port p).isMasked then s else s.count (fPort p) 8

/-- The host that a requester belongs to (R128). -/
def State.hostOf (s : State) (rid : BitVec 16) : Nat := rgHost (rgHalf (s.rightsEntry rid.toNat) false)

/-- The requester lies outside the port's window (R117). -/
def State.outsideWindow (s : State) (p : Nat) (rid : BitVec 16) : Bool :=
  let mask := s.reg (fPort p) 0x28
  decide (rid.setWidth 32 &&& mask ≠ s.reg (fPort p) 0x24 &&& mask)

/-- A doorbell as it enters a FIFO: what R132 fixes at its acceptance edge, from the configuration before that edge
(R22). Verdict 255 says not decoded. -/
def State.doorbell (s : State) (p : Nat) (data : DWord) (rid : BitVec 16) (np : Bool) : Doorbell :=
  let c := s.sampled
  { id := (s.port p).nextId, data := data, rid := rid, np := np, acc := s.clock.dp, accEdge := s.clock.edge, stamp := c.gate.setB,
    outside := c.outsideWindow p rid, noCache := bit (c.reg (fPort p) 0x34) 0,
    fastClass := c.isFast (dbIntid data), verdict := 255, decodedAt := 0, owner := 0#6, target := 0,
    route := none, rights := none, hit := false, divert := none }

/-- The hosts whose selection changed at this very edge, listed before the doorbell (R136). -/
def State.swappedNow (s : State) (rid : BitVec 16) : List Nat :=
  let h := s.sampled.hostOf rid
  if look none s.gate.swapAt h = some s.clock.dp then [h] else []

/-- Every unsettled doorbell whose requester belongs to host h at this edge was accepted under h's previous selection
(R136). -/
def State.markOld (s : State) (h : Nat) : State :=
  let old (u : Unsettled) : Unsettled := if s.sampled.hostOf u.rid = h then { u with olds := u.olds ++ [h] } else u
  (keys s.ports).foldl (fun (t : State) p => t.modPort p fun x => { x with unsettled := x.unsettled.map old }) s

/-- The port after the acceptance of a doorbell; a response is due for a non-posted one, and is discarded where the port
has been masked at this very edge (R126). -/
def State.enter (s : State) (p : Nat) (d : Doorbell) (fast np : Bool) : State :=
  let olds := s.swappedNow d.rid
  s.modPort p fun x =>
    let u : Unsettled := { id := d.id, rid := d.rid, acc := d.acc, fast := fast, olds := olds }
    let a : Awaiting := { id := d.id, acc := d.acc, pre := none, code := none, settledAt := 0, discard := x.isMasked }
    { x with nextId := x.nextId + 1, unsettled := x.unsettled ++ [u],
             normal := if fast then x.normal else x.normal ++ [d],
             fast := if fast then x.fast ++ [d] else x.fast,
             awaiting := if np then x.awaiting ++ [a] else x.awaiting }

/-- DOORBELL_ACCEPT: an offer on the normal channel, taken or counted as backpressure (R112, R142). -/
def State.acceptN (s : State) (p : Nat) (data : DWord) (rid : BitVec 16) (np : Bool) : State :=
  if (s.port p).normal.any (fun (d : Doorbell) => decide (d.acc = s.clock.dp)) then s
  else if s.readyN p then
    let s := s.enter p (s.doorbell p data rid np) false np
    let s := s.count (fPort p) 3
    if np then s.count (fPort p) 5 else s
  else s.refuses p

/-! ### Decode (R115, R121, R130) -/

/-- The first of checks 1 to 4 that a normal-channel doorbell fails; 0 for none. -/
def Doorbell.early (d : Doorbell) : Nat :=
  if dbReserved d.data then 1
  else if dbIntid d.data < 160 then 2
  else if d.outside then 3
  else if d.fastClass then 4
  else 0

/-- A cache entry's value as a lookup that needs no bank: usable two edges after decode (R121). -/
def cachedLook (v : BitVec 128) (decoded : Nat) : Looked :=
  { value := v, avail := decoded + 2, shadow := false, poison := false, err := false }

/-- The repeat cache probed for a doorbell decoded at an edge: the doorbell and the cache with the entry used
most recently in front (R120). -/
def probe (cache : List RepeatEntry) (d : Doorbell) (decoded : Nat) : Doorbell × List RepeatEntry :=
  let x := dbIntid d.data
  if d.noCache then (d, cache) else
  match cache.find? fun e => decide (e.intid = x) && decide (e.rid = d.rid) with
  | some e =>
    ({ d with route := some (cachedLook (e.route.setWidth 128) decoded),
              rights := some (cachedLook 0#128 decoded), hit := true, owner := e.host },
     e :: cache.erase e)
  | none =>
    match cache.find? fun e => decide (e.intid = x) with
    | some e => ({ d with route := some (cachedLook (e.route.setWidth 128) decoded) }, e :: cache.erase e)
    | none => (d, cache)

/-- One doorbell decoded at an edge: the early checks, and the probe for one that passes them; one that fails
reads no route. -/
def State.decode (s : State) (p : Nat) (d : Doorbell) (edge : Nat) : State × Doorbell :=
  let v := d.early
  let d := { d with verdict := v, decodedAt := edge }
  if v ≠ 0 then (s, { d with route := some (cachedLook 0#128 edge) })
  else
    let r := probe (s.port p).cache d edge
    let s := s.modPort p fun x => { x with cache := r.2 }
    (if r.1.route.isSome then s.count (fPort p) 7 else s, r.1)

/-- The doorbells of a port's lookahead whose decode edge has come by edge `e`; a doorbell that came within
the first four since edge `last` is decoded after it (R118, R155). -/
def State.decodePort (s : State) (last e p : Nat) : State :=
  let idx := List.range (min 4 (s.port p).normal.length)
  idx.foldl
    (fun (s : State) i =>
      match (s.port p).normal[i]? with
      | none => s
      | some d =>
        let edge := max (d.acc + 2) (last + 1)
        if d.verdict = 255 ∧ edge ≤ e then
          let r := s.decode p d edge
          r.1.modPort p fun x => { x with normal := x.normal.set i r.2 }
        else s) s

/-- Every port's decodes up to edge `e`. -/
def State.decodeAll (s : State) (last e : Nat) : State :=
  (keys s.ports).foldl (fun (s : State) p => s.decodePort last e p) s

/-! ### Content at the acceptance edge (R132) -/

/-- The shadowed content of an entry for a doorbell accepted at an edge: that of the earliest write at or after
it. -/
def State.shadowed (s : State) (rights : Bool) (idx acc : Nat) : Option (BitVec 128) :=
  let l := s.gate.shadow.filter fun (x : Shadow) =>
    decide (x.rights = rights) && decide (x.idx = idx) &&
      (match x.edge with
        | some e => decide (acc ≤ e)
        | none => false)
  (l.foldl
    (fun (m : Option Shadow) x =>
      match m with
      | none => some x
      | some y => if x.edge.getD 0 < y.edge.getD 0 then some x else m) none).map Shadow.old

/-- A store's entry. -/
def State.stored (s : State) (rights : Bool) (idx : Nat) : BitVec 128 :=
  if rights then s.rightsEntry idx else (s.routeEntry idx).setWidth 128

/-- A store's hash state. -/
def State.hash (s : State) (rights : Bool) : Hash := if rights then s.routes.rg else s.routes.rt

def State.setHash (s : State) (rights : Bool) (h : Hash) : State :=
  if rights then { s with routes.rg := h } else { s with routes.rt := h }

/-- The index in a store that a doorbell looks up. -/
def Doorbell.index (d : Doorbell) (rights : Bool) : Nat := if rights then d.rid.toNat else dbIntid d.data

/-- The doorbell's lookup in a store. -/
def Doorbell.look (d : Doorbell) (rights : Bool) : Option Looked := if rights then d.rights else d.route

/-! ### Banks (R154, R155, R200) -/

/-- The arbiter of a store's bank. -/
def bankArb (rights : Bool) (bank : Nat) : Nat := if rights then 16 + bank else bank

/-- A row's tick has come: its banks are requested at the first tier, before lookups and maintenance (R154, R163). -/
def Hash.tickDue (h : Hash) (e : Nat) : Bool := h.migActive && decide (h.tickAt ≤ e)

/-- A locked sequence or a migration row holds the bank, or it has granted at this edge already. From a row's tick to its
write edge every bank of its store serves nothing else: R163 reserves each bank at the first edge at which no locked sequence
holds it, so a bank is reserved or held. Its worked example grants a lookup at t + 7 in a bank that its text has reserved; the
model follows the text (DESIGN CHOICE, log entry 97). -/
def State.bankHeld (s : State) (rights : Bool) (bank : Nat) : Bool :=
  let m := if rights then 1 else 0
  (s.sluice.locks.any fun (l : Lock) =>
    decide (l.memory = m) && decide (l.bank = bank) && decide (s.clock.dp ≤ l.lasts)) ||
    (s.hash rights).reserved || (s.hash rights).tickDue s.clock.dp ||
    decide (look none s.sluice.grants (bankArb rights bank) = some s.clock.dp)

/-- A doorbell waits for a lookup in a store at this edge: decoded at an earlier edge, its request raised, the row at
rest. A doorbell decoded late, as it came within the first four of its FIFO, raises its request one edge after its decode,
as R121 gives it for one decoded at once (DEDUCED, log entry 74). -/
def State.wantsLook (s : State) (rights : Bool) (d : Doorbell) : Bool :=
  decide (d.verdict ≠ 255) && (d.look rights).isNone && decide (d.decodedAt + 1 ≤ s.clock.dp) &&
    !(s.hash rights).moving (pageOf rights (d.index rights))

/-- The requests that wait at a bank: port, page, the port's oldest first. -/
def State.bankRequests (s : State) (rights : Bool) (bank : Nat) : List (Nat × Nat) :=
  (s.ports.map fun e =>
    ((e.2.normal.take 4).filter fun (d : Doorbell) =>
      s.wantsLook rights d &&
        decide ((s.hash rights).bank (pageOf rights (d.index rights)) = bank)).map fun (d : Doorbell) =>
          (e.1, pageOf rights (d.index rights))).flatten

/-- One doorbell served by the read of a page. -/
def State.serve (s : State) (rights : Bool) (page : Nat) (r : PageResult) (d : Doorbell) : Doorbell :=
  if s.wantsLook rights d && decide (pageOf rights (d.index rights) = page) then
    let idx := d.index rights
    let sh := s.shadowed rights idx d.acc
    let l : Looked := { value := sh.getD (s.stored rights idx), avail := s.clock.dp + 4 + r.correction,
                        shadow := sh.isSome, poison := !r.usable, err := r.leadError }
    if rights then { d with rights := some l } else { d with route := some l }
  else d

/-- The lead of a pair drives ERROR for a non-posted doorbell at the edge of the verdict: this is its response (R390). -/
def State.answerError (s : State) (p : Nat) (d : Doorbell) : State :=
  let x := s.port p
  if !x.awaiting.any fun (a : Awaiting) => decide (a.id = d.id) then s
  else
    let s := s.modPort p fun x =>
      { x with awaiting := x.awaiting.filter fun (a : Awaiting) => decide (a.id ≠ d.id),
               resp := if x.isMasked then 0#2 else 3#2, respAt := some s.clock.edge }
    if x.isMasked then s.count (fPort p) 9 else s

/-- The non-posted doorbells that a read of a page serves are answered ERROR at its edge. -/
def State.errorsNow (s : State) (rights : Bool) (page : Nat) (t : State) : State :=
  s.ports.foldl
    (fun (t : State) e =>
      ((e.2.normal.take 4).filter fun (d : Doorbell) =>
        d.np && s.wantsLook rights d && decide (pageOf rights (d.index rights) = page)).foldl
          (fun (t : State) d => t.answerError e.1 d) t) t

/-- DOORBELL_LOOKUP: one round of a bank of the route or rights store, and the read of the winner's page for every
request that waits for it (R155, R200, R201). -/
def State.lookupRound (s : State) (rights : Bool) (bank : Nat) (pr : PageRead) : State :=
  let reqs := s.bankRequests rights bank
  let ports := sorted (reqs.map Prod.fst)
  let id := bankArb rights bank
  if s.bankHeld rights bank then s else
  match s.arbWinner id ports with
  | none => s
  | some q =>
    match reqs.find? fun e => decide (e.1 = q) with
    | none => s
    | some (_, page) =>
      let forced := s.arbForced id ports
      let served := reqs.filter fun e => decide (e.2 = page)
      let denied := reqs.length - served.length
      let k := if rights then 6 else 3
      let s := s.arbCharge id q ports (sorted (served.map Prod.fst))
      let s := if forced then s.count fSluice 9 else s
      let s := s.count fRoute k
      let s := s.countBy fRoute (k + 1) (served.length - 1)
      let s := s.countBy fRoute (k + 2) denied
      let h := s.hash rights
      let s := s.setHash rights
        { h with reads := h.reads + 1,
                 sat := if denied = 0 then h.sat else ins 0 h.sat bank (look 0 h.sat bank + 1) }
      let s := { s with sluice.grants := ins none s.sluice.grants id (some s.clock.dp) }
      let phys := h.physical page
      let r := s.readPage (if rights then 1 else 0) phys 1 false pr
      let t := if s.paired && r.1.leadError then s.errorsNow rights page r.2 else r.2
      t.ports.foldl
        (fun (t : State) e =>
          t.modPort e.1 fun x =>
            { x with normal := (x.normal.take 4).map (s.serve rights page r.1) ++ x.normal.drop 4 }) t

/-! ### The gate's verdict (R129, R130, R455) -/

/-- The half in force for a requester under a stamp. -/
def halfFor (e : BitVec 128) (stamp : DWord) : DWord := rgHalf e (bit stamp (rgHost (rgHalf e false)))

/-- The verdict of a normal-channel doorbell whose lookups have completed: 0 for pass. -/
def Doorbell.gate (d : Doorbell) : Nat :=
  match d.rights, d.route with
  | some g, some r =>
    let route : DWord := r.value.setWidth 64
    let h := halfFor g.value d.stamp
    let x := dbIntid d.data
    let m0 := (rgRegion0 h).covers x
    let m1 := (rgRegion1 h).covers x
    let owner := if m0 then (rgRegion0 h).owner else (rgRegion1 h).owner
    if d.verdict ≠ 0 then d.verdict
    else if g.poison || r.poison then 6
    else if !d.hit && !m0 && !m1 then 7
    else if !d.hit && m0 && m1 then 8
    else if !rtEnable route then 9
    else if !d.hit && owner ≠ rtOwner route then 10
    else if dbHint d.data && !rtMode route then 11
    else 0
  | _, _ => 255

/-- The host a normal-channel doorbell is attributed to (R455). -/
def Doorbell.attributed (d : Doorbell) : Nat :=
  if d.hit then d.owner.toNat
  else match d.rights with
    | some g => if g.poison then 0 else rgHost (rgHalf g.value false)
    | none => 0

/-- The edge from which a doorbell's effect may fall: one after its verdict (R121). -/
def Doorbell.effectFrom (d : Doorbell) : Option Nat :=
  match d.rights, d.route with
  | some g, some r => some (max g.avail r.avail)
  | _, _ => none

/-- The lead met an uncorrectable page on the doorbell's lookup (R124, R390). -/
def Doorbell.leadError (d : Doorbell) : Bool :=
  (match d.rights with
    | some g => g.err || g.poison
    | none => false) ||
  (match d.route with
    | some r => r.err || r.poison
    | none => false)

/-! ### Faults and their records (R125, R131) -/

/-- ERR_INFO of a fault. -/
def errInfo (p : Nat) (d : Doorbell) (fast error : Bool) (reason : Nat) : Word :=
  0x80000000#32 ||| flag32 30 error ||| flag32 29 fast ||| flag32 28 d.np ||| at32 24 p |||
    at32 18 reason ||| at32 0 (dbIntid d.data)

/-- ERR_RID of a fault. -/
def errRid (d : Doorbell) : Word := at32 24 (dbTag d.data).toNat ||| at32 0 d.rid.toNat

/-- The port's and the host's record of a fault or error (R125). -/
def State.recordFault (s : State) (p : Nat) (d : Doorbell) (fast error : Bool) (reason host : Nat) : State :=
  let i := errInfo p d fast error reason
  let s := s.modPort p fun x => { x with errRid := errRid d, errInfo := i }
  let rids := ins 0#32 s.gate.faultRid host (errRid d)
  { s with gate.faultRid := rids, gate.faultInfo := ins 0#32 s.gate.faultInfo host i }

/-- What a gate fault counts, records and raises (R131). It is recorded with ERROR, and a non-posted doorbell answered
ERROR, where the lead met an uncorrectable page on its lookup, whatever check it fails (R124). -/
def State.faultCounts (s : State) (p : Nat) (d : Doorbell) (fast : Bool) (reason host : Nat) : State :=
  let error := !fast && d.leadError
  let s := s.recordFault p d fast error reason host
  let s := s.count (fPort p) 6
  let s := (s.event fGate 4 134).count fGate (16 + reason)
  let s := s.count (fHost host) 4
  if d.np && !fast then s.markCode p d.id (if error then 3#2 else 2#2) else s

/-- What a doorbell that passed counts (R144, R146). -/
def State.passCounts (s : State) (host : Nat) : State := (s.count fGate 3).count (fHost host) 3

/-- The record a doorbell makes (R234). -/
def dbRecord (p : Nat) (d : Doorbell) (reason : Nat) : Rec :=
  { payload := dbPayload d.data, intid := dbIntid d.data, reason := BitVec.ofNat 6 reason,
    tag := dbTag d.data, rid := d.rid, source := some (p, d.id) }

/-! ### Fill (R120) -/

/-- The repeat cache filled by a doorbell that passed; its effect edge is the fill edge (log entry 17). -/
def State.fill (s : State) (p : Nat) (d : Doorbell) : State :=
  let emptied := match s.gate.cacheEmptied with
    | some e => decide (d.acc ≤ e)
    | none => false
  match d.route, d.rights with
  | some r, some g =>
    if d.hit || d.noCache || r.shadow || g.shadow || emptied then s
    else
      let e : RepeatEntry := { intid := dbIntid d.data, route := r.value.setWidth 64, rid := d.rid,
                               host := BitVec.ofNat 6 d.attributed }
      s.modPort p fun x => { x with cache := (e :: x.cache.erase e).take 8 }
  | _, _ => s

/-- Every port's repeat cache emptied at this edge (R120). -/
def State.emptyCaches (s : State) : State :=
  let s := (keys s.ports).foldl (fun (s : State) p => s.modPort p fun x => { x with cache := [] }) s
  { s with gate.cacheEmptied := some s.clock.dp }

end Sys2Proof.Machine
end

