-- ==== Sys2Proof/Machine/Doorbell.lean ====
section
/-! DEFINITION. Doorbell effects on both channels, responses, port masking, and what the spillway takes (R118 to R127, R131, R215 to R222, R253). -/

namespace Sys2Proof.Machine

/-! ### The head of a normal FIFO (R118, R119) -/

/-- The fenced head waits for an earlier doorbell of its port's normal channel that had not settled before this edge (R22, R119). -/
def State.fenceWaits (s : State) (p : Nat) (d : Doorbell) : Bool :=
  dbFence d.data &&
    (s.sampled.port p).unsettled.any fun (u : Unsettled) => !u.fast && decide (u.id < d.id)

/-- The head doorbell of a port, ready for its effect at this edge. -/
def State.headReady (s : State) (p : Nat) : Option Doorbell :=
  match (s.port p).normal with
  | [] => none
  | d :: _ =>
    match d.effectFrom with
    | some e =>
      if decide (e ≤ s.clock.dp) && decide ((s.port p).lastNormal ≠ some s.clock.dp) &&
          !s.fenceWaits p d && !s.portMissed p then some d else none
    | none => none

/-- The cistern for which the head of a port waits, if it passed on a cistern-mode route. -/
def Doorbell.cistern (d : Doorbell) : Option Nat :=
  match d.route with
  | some r =>
    let route : DWord := r.value.setWidth 64
    if d.gate = 0 && rtMode route then some (rtCistern route) else none
  | none => none

/-- The ports whose heads wait for a cistern's append slot, in rising order. -/
def State.contenders (s : State) (c : Nat) : List Nat :=
  sorted ((keys s.ports).filter fun p =>
    match s.headReady p with
    | some d => decide (d.cistern = some c) && d.divert.isNone
    | none => false)

/-- The head leaves its port's normal FIFO at its effect edge. -/
def State.popN (s : State) (p : Nat) : State :=
  s.modPort p fun x => { x with normal := x.normal.tail, lastNormal := some s.clock.dp }

/-! ### Outcomes -/

/-- A faulting head: its spillway record, or it waits (R131). -/
def State.headFault (s : State) (p : Nat) (d : Doorbell) (reason : Nat) : State :=
  match s.spillTake (dbRecord p d reason) with
  | none => s
  | some _ =>
    let s := s.faultCounts p d false reason d.attributed
    match s.spillTake (dbRecord p d reason) with
    | some s => s.popN p
    | none => s

/-- A doorbell that passed although the lead met an uncorrectable page on its lookup: the mirror's outcome stands, it is
logged with ERROR and reason POISON, and a non-posted one is answered ERROR (R124, R125, R390; log entry 75). -/
def State.markError (s : State) (p : Nat) (d : Doorbell) : State :=
  if !d.leadError then s
  else
    let s := s.recordFault p d false true 6 d.attributed
    if d.np then s.markCode p d.id 3#2 else s

/-- A head that passed and whose record goes to the spillway (R235, R246, R249); its error, where it has one, is marked before
the spillway settles it (R124). -/
def State.headDivert (s : State) (p : Nat) (d : Doorbell) (reason : Nat) : State :=
  match s.spillTake (dbRecord p d reason) with
  | none => s.divertHead p d.id reason
  | some _ =>
    match (s.markError p d).spillTake (dbRecord p d reason) with
    | some s => ((s.passCounts d.attributed).fill p d).popN p
    | none => s

/-- A direct-mode head sets its INTID; one whose reservoir page is uncorrectable makes a POISON record in place
of the set, and waits at the head of its FIFO until the spillway takes it (R232, R253, R390). -/
def State.headSet (s : State) (p : Nat) (d : Doorbell) (pr : PageRead) : State :=
  let x := dbIntid d.data
  let r := if x < 4096 then (⟨true, false, 0⟩, s) else s.readPage 2 (reservoirPage x) 4 false pr
  if r.1.usable then
    ((((r.2.passCounts d.attributed).fill p d).popN p).markError p d |>.pend x (.doorbell d.accEdge)).settleDb p d.id 1#2
  else r.2.headDivert p d 6

/-- The entries of a cache page break with POISON, and the page is written whole as empty entries (R390, R391). -/
def State.breakPage (s : State) (page : Nat) : State :=
  let cs := s.pump.cache.filterMap fun e => match e.2 with
    | some y => if y.slot / 2 = page then some e.1 else none
    | none => none
  (cs.foldl (fun (s : State) c => s.breakCistern c 6 7 0) s).unpoison 4 page

/-- The read of a cistern's cache entry; an uncorrectable page breaks the entries it holds with POISON (R390). -/
def State.readEntry (s : State) (c : Nat) (pr : PageRead) : State :=
  match s.cached c with
  | some x =>
    let r := s.readPage 4 (x.slot / 2) 8 false pr
    if r.1.usable then r.2 else r.2.breakPage (x.slot / 2)
  | none => s

/-- The cistern's append slot is not for this port at this edge: another port wins the round (R174). -/
def State.slotElsewhere (s : State) (p c : Nat) : Bool :=
  decide (s.arbWinner (1000 + c) (s.contenders c) ≠ some p)

/-- The charge of a cistern-input round, whose arbiter ends with the waiting records (R184). A record that its cistern holds
goes before any other without a round of keys (R246), so it wins nothing under the forced rule. -/
def State.chargeInput (s : State) (p c : Nat) (ports : List Nat) (first : Bool) : State :=
  let s := if !first && s.arbForced (1000 + c) ports then s.count fSluice 9 else s
  let s := s.arbCharge (1000 + c) p ports [p]
  if ports = [p] && !s.recordWaits c then s.dropArb (1000 + c) else s

/-- The record is the one its cistern holds: it is appended at the first refresh that shows space, before any other
(R246). -/
def State.holds (s : State) (c : Nat) (r : Rec) : Bool :=
  match s.cached c with
  | some x => (match x.held with
    | some h => decide (h.1 = r)
    | none => false)
  | none => false

/-- The record at the head of its slice's local queue is for this cistern: the ports wait (R457). -/
def State.localFirst (s : State) (c : Nat) : Bool :=
  match s.localQ (sliceOf c) with
  | (k, _) :: _ => decide (k = c)
  | [] => false

/-- The arbiter of a cistern that no port's record waits for any more is gone (R184). -/
def State.restInput (s : State) (c : Nat) : State :=
  if (s.contenders c).isEmpty && !s.recordWaits c then s.dropArb (1000 + c) else s

/-- A cistern-mode head: appended, entered into the miss queue, diverted, or it waits (R118, R232, R244). -/
def State.headRecord (s : State) (p : Nat) (d : Doorbell) (c : Nat) (pr : PageRead) : State :=
  let r := dbRecord p d 0
  if s.localFirst c && !s.holds c r then s else
  let first := s.holds c r
  let s := s.readEntry c pr
  match s.append c r (!s.missBefore c) false with
  | .waits s => s
  | .missed t => ((((t.pushMiss c r).passCounts d.attributed).fill p d).popN p).markError p d
  | .diverted s reason => ((s.spent c).headDivert p d reason).restInput c
  | .taken t =>
    if !first && s.slotElsewhere p c then s
    else
      let ports := putIn p (s.contenders c)
      (((t.chargeInput p c ports first).passCounts d.attributed).fill p d).popN p |>.markError p d

/-- DOORBELL_EFFECT: the head of a port's normal FIFO takes effect, or waits (R118). -/
def State.effectN (s : State) (p : Nat) (pr : PageRead) : State :=
  match s.headReady p with
  | none => s
  | some d =>
    if d.gate ≠ 0 then s.headFault p d d.gate
    else match d.divert with
      | some reason => s.headDivert p d reason.toNat
      | none =>
        match d.cistern with
        | some c => s.headRecord p d c pr
        | none => s.headSet p d pr

/-! ### The fast channel (R137, R215, R216, R220, R222) -/

/-- The CAM entries that match a requester and an INTID. -/
def State.camMatches (s : State) (rid : BitVec 16) (x : Nat) : List Nat :=
  (List.range 64).filter fun i =>
    camMatch (s.reg fGate (0x800 + 8 * i)) (s.reg fGate (0x804 + 8 * i)) rid x

/-- The verdict of a fast-channel doorbell under the configuration in force (R130). -/
def State.fastVerdict (s : State) (d : Doorbell) : Nat :=
  let x := dbIntid d.data
  let e := s.fast x
  if dbReserved d.data then 1
  else if x < 160 then 2
  else if d.outside then 3
  else if 4096 ≤ x || !d.fastClass then 4
  else match s.camMatches d.rid x with
    | [] => 5
    | [i] =>
      if !ftRtEn e then 9
      else if camOwner (s.reg fGate (0x800 + 8 * i)) ≠ ftOwner e then 10
      else if dbHint d.data then 11
      else 0
    | _ => 8

/-- The host a fast-channel doorbell is attributed to (R455). -/
def State.fastHost (s : State) (d : Doorbell) : Nat :=
  match s.camMatches d.rid (dbIntid d.data) with
  | [i] => camOwner (s.reg fGate (0x800 + 8 * i))
  | _ => 0

/-- FAST_DOORBELL_ACCEPT: an offer on the fast channel, taken with the CAM and fast-table outcome of its acceptance
edge, or counted as backpressure (R113, R123, R215). -/
def State.acceptF (s : State) (p : Nat) (data : DWord) (rid : BitVec 16) (np : Bool) : State :=
  if (s.port p).fast.any (fun (d : Doorbell) => decide (d.acc = s.clock.dp)) then s
  else if s.readyF p then
    let d := s.doorbell p data rid np
    let d := { d with verdict := s.sampled.fastVerdict d, owner := BitVec.ofNat 6 (s.sampled.fastHost d) }
    let x := dbIntid data
    let s := s.enter p d true false
    let s := if x < 4096 then s.ftFix false x else s
    let s := s.count (fPort p) 4
    if np then s.count (fPort p) 10 else s
  else s.refuses p

/-- FAST_DOORBELL_EFFECT: five edges after acceptance the INTID is set, or a fault goes to the fast fault queue, waiting
while that queue is full (R220). -/
def State.effectF (s : State) (p : Nat) : State :=
  match (s.port p).fast with
  | [] => s
  | d :: rest =>
    if s.clock.dp < d.acc + 5 ∨ (s.port p).lastFast = some s.clock.dp then s
    else
      let pop (s : State) : State :=
        s.modPort p fun x => { x with fast := rest, lastFast := some s.clock.dp }
      if d.verdict = 0 then
        ((pop (s.passCounts d.owner.toNat)).pend (dbIntid d.data) (.doorbell d.accEdge)).settleDb p d.id 1#2
      else if 4 ≤ (s.sampled.port p).faultQueue.length then s
      else
        let s := pop (s.faultCounts p d true d.verdict d.owner.toNat)
        s.modPort p fun x => { x with faultQueue := x.faultQueue ++ [dbRecord p d d.verdict] }

/-! ### Responses (R122, R126) -/

/-- DB_RESPONSE: the oldest awaiting doorbell, settled at an earlier edge, is answered or its response discarded; one an
edge. -/
def State.respond (s : State) (p : Nat) : State :=
  match (s.port p).awaiting with
  | [] => s
  | a :: rest =>
    match a.code with
    | none => s
    | some c =>
      if (s.port p).respAt = some s.clock.edge ∨ s.clock.edge ≤ a.settledAt then s
      else if a.discard then
        (s.modPort p fun x => { x with awaiting := rest, resp := 0#2, respAt := some s.clock.edge }).count (fPort p) 9
      else s.modPort p fun x => { x with awaiting := rest, resp := c, respAt := some s.clock.edge }

/-- The code on DB_RESP at this edge. -/
def State.dbResp (s : State) (p : Nat) : BitVec 2 :=
  if (s.port p).respAt = some s.clock.edge && !(s.port p).isMasked then (s.port p).resp else 0#2

/-- The responses of the doorbells accepted so far are to be discarded (R126). -/
def Port.discardAll (x : Port) : Port :=
  { x with awaiting := x.awaiting.map fun (a : Awaiting) => { a with discard := true } }

/-- A response driven at the very edge at which its port is masked is discarded with the others: DB_RESP reads IDLE (R126). -/
def State.discardNow (s : State) (p : Nat) : State :=
  let x := s.port p
  if x.respAt = some s.clock.edge ∧ x.resp ≠ 0#2 then
    (s.modPort p fun x => { x with resp := 0#2 }).count (fPort p) 9
  else s

/-- PORT_MASK: PORT_PWR_OK seen to fall. -/
def State.maskPort (s : State) (p : Nat) : State :=
  if (s.port p).pwrOk then
    ((s.discardNow p).modPort p fun x => { x.discardAll with pwrOk := false }).event (fPort p) 11 135
  else s

/-- PORT_UNMASK: PORT_PWR_OK seen high. -/
def State.unmaskPort (s : State) (p : Nat) : State := s.modPort p fun x => { x with pwrOk := true }

/-! ### The commit shadow's release (R132, R133) -/

/-- A normal doorbell accepted at or before an edge whose lookup in the store is still to be made. -/
def State.unlooked (s : State) (rights : Bool) (edge : Nat) : Bool :=
  s.ports.any fun e => e.2.normal.any fun (d : Doorbell) =>
    decide (d.acc ≤ edge) && (d.look rights).isNone

/-- SHADOW_RELEASE: every entry that no doorbell can need any more is released; one written at this edge may still be needed
by a doorbell accepted at it (R132). -/
def State.releaseShadow (s : State) : State :=
  { s with gate.shadow := s.gate.shadow.filter fun (x : Shadow) =>
      match x.edge with
      | none => true
      | some e => decide (s.clock.dp ≤ e) || s.unlooked x.rights e }

/-! ### What the spillway takes (R253) -/

/-- The head of a port's normal FIFO leaves for the spillway. -/
def State.headSpills (s : State) (p : Nat) : Bool :=
  match s.headReady p with
  | none => false
  | some d =>
    decide (d.gate ≠ 0) || d.divert.isSome ||
      match d.cistern with
      | none => false
      | some c =>
        match s.append c (dbRecord p d 0) (!s.missBefore c) false with
        | .diverted _ _ => true
        | _ => false

/-- SPILLWAY_APPEND: a waiting spillway record is taken or dropped. -/
def State.spillAppend (s : State) (src : SpillSource) : State :=
  match src with
  | .normal p => if s.headSpills p.toNat then s.effectN p.toNat cleanRead else s
  | .fast p =>
    match (s.port p.toNat).faultQueue with
    | [] => s
    | r :: rest =>
      match s.spillTake r with
      | none => s
      | some s => s.modPort p.toNat fun x => { x with faultQueue := rest }
  | .inside =>
    match s.pump.spill.inside with
    | [] => s
    | r :: rest =>
      match { s with pump.spill.inside := rest }.spillTake r with
      | none => s
      | some s => s

/-- CISTERN_APPEND: the record of a source is placed in its cistern's line buffer, or waits, or is diverted. -/
def State.cisternAppend (s : State) (src : AppendSource) (pr : PageRead) : State :=
  match src with
  | .port p =>
    match s.headReady p.toNat with
    | some d => if d.cistern.isSome then s.effectN p.toNat pr else s
    | none => s
  | .localQueue sl =>
    match s.localQ sl.toNat with
    | (c, _) :: _ => (s.readEntry c pr).appendLocal sl.toNat
    | [] => s
  | .missQueue sl =>
    match s.missQ sl.toNat with
    | (c, _) :: _ => (s.readEntry c pr).appendMiss sl.toNat
    | [] => s
  | .held c =>
    match s.cached c.toNat with
    | some x =>
      match x.held with
      | some (r, _) =>
        let sl := sliceOf c.toNat
        let s := s.readEntry c.toNat pr
        if (s.missQ sl).contains (c.toNat, r) then s.appendMiss sl
        else if (s.localQ sl).head? = some (c.toNat, r) then s.appendLocal sl
        else match r.source with
          | some (p, _) => s.effectN p pr
          | none => s
      | none => s
    | none => s

end Sys2Proof.Machine
end

