-- ==== Sys2Proof/Machine/Fuses.lean ====
section
/-! DEFINITION. Fuse words, their votes and margins, trims in force, lifecycle, user epoch and the factory-clean state (R327, R345 to R350, R414, R421 to R426). -/

namespace Sys2Proof.Machine

/-! ### Word numbers

0 identity scalar, 1 certificate, 2 its length, 3 part serial; 4 lifecycle bits, 5 to 68 user-epoch steps; 80 to 87
vault defaults; 90 TAP_IDCODE; 100 read assist, 101 synchroniser depth, 103 LF, 104 VF, 105 DISC, 200 to 455 the
delivery-wire taps of cores 0 to 255; 500 SEAL_ROOT, in the seal unit's own array. -/

abbrev fwScalar : Nat := 0
abbrev fwCert : Nat := 1
abbrev fwCertLen : Nat := 2
abbrev fwSerial : Nat := 3
abbrev fwLife : Nat := 4
abbrev fwEpoch (i : Nat) : Nat := 5 + i
abbrev fwVault (n : Nat) : Nat := 80 + n
abbrev fwIdcode : Nat := 90
abbrev fwTrim (k : Nat) : Nat := 100 + k
abbrev fwTap (n : Nat) : Nat := 200 + n
abbrev fwSeal : Nat := 500

/-- The route a vault pair takes when its default word is marginal (R348). -/
def vaultFallback : DWord := 0x00000C0000000100#64

/-- The ROM default of a trim (R421). -/
def romTrim (k : Nat) : Nat :=
  if k = 0 then 2 else if k = 1 then 3 else if k = 2 then 8 else if k = 3 then 8 else if k = 4 then 8 else 1250

/-- The value an unlisted fuse word holds (log entry 8). -/
def fuseDefault (w : Nat) : Nat :=
  if w = fwScalar then 1
  else if 80 ≤ w ∧ w < 88 then vaultFallback.toNat
  else if 100 ≤ w ∧ w < 106 then romTrim (w - 100)
  else if 200 ≤ w ∧ w < 456 then romTrim 2
  else 0

/-- The number of copies of a word (R348). -/
def copiesOf (w : Nat) : Nat := if 100 ≤ w ∧ w < 456 then 1 else 3

/-- The copies that an unlisted word reads. -/
def fuseBlank (w : Nat) : List FuseCopy :=
  List.replicate (copiesOf w) { low := fuseDefault w, high := fuseDefault w }

/-- The array's copies of a word, and the copies sensed at start-up. -/
def State.fuseArray (s : State) (w : Nat) : List FuseCopy := look (fuseBlank w) s.fuses.array w
def State.fuseShadow (s : State) (w : Nat) : List FuseCopy := look (fuseBlank w) s.fuses.shadow w

def State.setFuse (s : State) (w : Nat) (c : List FuseCopy) : State :=
  { s with fuses.array := ins (fuseBlank w) s.fuses.array w c }

/-- The clean copies' values: a copy is clean when its two reads are equal (R348). -/
def cleanValues (l : List FuseCopy) : List Nat :=
  l.filterMap fun c => if c.low = c.high then some c.low else none

/-- The value of a word: of one copy, that copy's; of three, that of two clean copies that agree; none when the word
is marginal (R348). -/
def fuseVote (l : List FuseCopy) : Option Nat :=
  match l with
  | [_] => (cleanValues l).head?
  | _ =>
    let v := cleanValues l
    v.find? fun x => decide (2 ≤ (v.filter fun y => decide (y = x)).length)

/-- A word's value in force, from the shadow. -/
def State.fuse (s : State) (w : Nat) : Option Nat := fuseVote (s.fuseShadow w)

/-- A word was marginal at start-up. -/
def State.fuseMarginal (s : State) (w : Nat) : Bool := (s.fuse w).isNone

/-! ### Margins (R348, R349) -/

def identityWords : List Nat := [fwScalar, fwCert, fwCertLen, fwSerial]
def epochWords : List Nat := (List.range 64).map fwEpoch
def stateWords : List Nat := fwLife :: epochWords

def State.idMarg (s : State) : Bool := identityWords.any s.fuseMarginal
def State.stateMarg (s : State) : Bool := stateWords.any s.fuseMarginal
def State.sealMarg (s : State) : Bool := s.fuseMarginal fwSeal

/-- HEALTH.FUSE_MARGINAL (R349). -/
def State.anyMarg (s : State) : Bool := s.idMarg || s.stateMarg

/-- Every fuse word of the fuse controller, in number order. -/
def fuseWords : List Nat :=
  identityWords ++ stateWords ++ (List.range 8).map fwVault ++ [fwIdcode, 100, 101, 103, 104, 105] ++
    (List.range 256).map fwTap

/-! ### Lifecycle and user epoch (R422, R423) -/

/-- The lifecycle bits in force. -/
def State.lifeBits (s : State) : Nat := (s.fuse fwLife).getD 0 ||| s.fuses.lifecycleAdd.toNat

/-- The lifecycle code in force: 1 MANUFACTURE, 2 FIELD, 3 RETIRED, 0 undetermined. -/
def State.lifecycle (s : State) : Nat :=
  if s.stateMarg then 0
  else if s.lifeBits % 4 = 0 then 1 else if s.lifeBits % 4 = 1 then 2 else 3

/-- USER_EPOCH sensed at start-up, and in force. -/
def State.epochShadow (s : State) : Nat := (epochWords.filter fun w => decide (s.fuse w = some 1)).length
def State.userEpoch (s : State) : Nat := s.epochShadow + s.fuses.epochAdd

/-- The test access port is open (R422). -/
def State.tapOpen (s : State) : Bool := s.fuses.sensed && decide (s.lifecycle = 1)

/-- RETIRED, or undetermined, which is treated so (R422). -/
def State.retired (s : State) : Bool := decide (s.lifecycle = 3) || decide (s.lifecycle = 0)

/-! ### Officers and the factory-clean state (R326, R327) -/

def State.officer (s : State) (i : Nat) : Option PubKey := look none s.keeper.officers i

/-- The occupied officer slots, as a bit per slot. -/
def State.occupied (s : State) : Nat :=
  (List.range 8).foldl (fun n i => if (s.officer i).isSome then n + 2 ^ i else n) 0

def State.officers (s : State) : Nat := ((List.range 8).filter fun i => (s.officer i).isSome).length

/-- Factory-clean: no officer, the test access port closed, no identity or state word marginal. -/
def State.factoryClean (s : State) : Bool :=
  decide (s.officers = 0) && !s.tapOpen && !s.anyMarg

/-! ### Trims (R421) -/

/-- The override bit of trim k in the registers. -/
def State.overridden (s : State) (k : Nat) : Bool := bit (s.reg fFuse 0x28) (8 + k)

/-- Trim k is in force from TRIM_USER; the taps as taken at the last READY. -/
def State.trimUser (s : State) (k : Nat) : Bool :=
  if k = 2 then decide (s.startup.tapInForce ≠ 16) else s.overridden k

/-- Some word of trim k is marginal. -/
def State.trimMarginal (s : State) (k : Nat) : Bool :=
  if k = 2 then (List.range 256).any fun n => s.fuseMarginal (fwTap n) else s.fuseMarginal (fwTrim k)

/-- Trim k is in force from its ROM default. -/
def State.trimRom (s : State) (k : Nat) : Bool := !s.trimUser k && s.trimMarginal k

/-- The user value of trim k. -/
def State.userTrim (s : State) (k : Nat) : Nat :=
  let u0 := s.reg fFuse 0x24
  let u1 := s.reg fFuse 0x28
  if k = 0 then bits u1 1 0 else if k = 1 then (if bit u1 2 then 3 else 2)
  else if k = 3 then bits u0 31 24 else if k = 4 then bits u0 23 16 else bits u0 15 0

/-- Trim k in force, the taps apart. -/
def State.trim (s : State) (k : Nat) : Nat :=
  if s.overridden k then s.userTrim k else (s.fuse (fwTrim k)).getD (romTrim k)

/-- The delivery-wire tap of core n in force. -/
def State.tapOf (s : State) (n : Nat) : Nat :=
  let base := (s.fuse (fwTap n)).getD (romTrim 2)
  if s.startup.tapInForce = 16 then base else min 15 (base + s.startup.tapInForce - 8)

/-- The tap trim that a READY after a warm reset takes from TRIM_USER1. -/
def State.tapTaken (s : State) : Nat :=
  let adj := bits (s.reg fFuse 0x28) 6 4
  if s.overridden 2 then (if adj < 4 then 8 + adj else adj) else 16

/-- Synchroniser depth, filter lengths and discrepancy limit in force. -/
def State.depth (s : State) : Nat := s.trim 1
def State.lineFilter (s : State) : Nat := atLeast1 (s.trim 3)
def State.vaultFilter (s : State) : Nat := atLeast1 (s.trim 4)
def State.discLimit (s : State) : Nat := atLeast1 (s.trim 5)

/-! ### The sense and re-sense (R348, R350) -/

/-- The shadow taken from the array at start-up. -/
def State.senseFuses (s : State) : State :=
  { s with fuses.shadow := s.fuses.array, fuses.lifecycleAdd := 0#2, fuses.epochAdd := 0, fuses.sensed := true }

/-- The array as the environment says its copies now read. -/
def State.drift (s : State) (l : List FuseDrift) : State :=
  l.foldl (fun (s : State) d =>
    let c := s.fuseArray d.word
    if d.copy.toNat < c.length then s.setFuse d.word (c.set d.copy.toNat d.reads) else s) s

/-- A re-sense: the words that drift from the start-up sense are counted and raised; the numbers of words without a
majority and of drifted words. A copy programmed since start-up reads otherwise than then. -/
def State.resense (s : State) : Nat × Nat × State :=
  let ds := fuseWords.filter fun w => decide (s.fuseArray w ≠ s.fuseShadow w)
  let ms := fuseWords.filter fun w => (fuseVote (s.fuseArray w)).isNone
  (ms.length, ds.length, ds.foldl (fun (s : State) _ => s.event fFuse 3 147) s)

/-! ### Programming (R423) -/

/-- One copy of a word given more bits, both margins clean or not. -/
def State.burnCopy (s : State) (w copy v : Nat) (clean : Bool) : State :=
  let c := s.fuseArray w
  let reads : FuseCopy := { low := if clean then v else (c.getD copy { low := 0, high := 0 }).low, high := v }
  s.setFuse w (c.set copy reads)

/-- The copies of the words that a burn programs, in order. -/
def burnPlan (words : List Nat) : List (Nat × Nat) :=
  (words.map fun w => (List.range (copiesOf w)).map fun i => (w, i)).flatten

end Sys2Proof.Machine
end

