-- ==== Sys2Proof/Machine/KeeperBase.lean ====
section
/-! DEFINITION. The keeper's frame: opcodes, header checks, results, notifies, tokens, the engine queue, service points and the watchdog (R287 to R324). -/

namespace Sys2Proof.Machine

/-! ### Statuses (R293) -/

abbrev stOk : Nat := 0x00
abbrev stBusy : Nat := 0x01
abbrev stLength : Nat := 0x02
abbrev stRange : Nat := 0x03
abbrev stDenied : Nat := 0x04
abbrev stBadSig : Nat := 0x05
abbrev stBadKey : Nat := 0x06
abbrev stStale : Nat := 0x07
abbrev stUncorr : Nat := 0x08
abbrev stPreempted : Nat := 0x09
abbrev stAborted : Nat := 0x0A
abbrev stAuthFail : Nat := 0x0B
abbrev stMarginal : Nat := 0x0C
abbrev stDuplicate : Nat := 0x0D
abbrev stVoided : Nat := 0x0E
abbrev stOverrun : Nat := 0x0F
abbrev stOverlap : Nat := 0x10
abbrev stNotLead : Nat := 0x11

/-! ### Opcodes (R307 to R317) -/

/-- The framing of an opcode: H0 only, resumable, engine-bound, the size and greatest number of its items where
it has items, its payload size, whether longer payloads are framed by the command, its FLAGS bits, and the
length of its result. -/
structure OpInfo where
  h0 : Bool
  long : Bool
  engine : Bool
  item : Nat
  most : Nat
  size : Nat
  free : Bool
  flags : Nat
  rlen : Nat
deriving DecidableEq, Repr

def plainOp (h0 : Bool) (size rlen : Nat) : OpInfo :=
  { h0 := h0, long := false, engine := false, item := 0, most := 0, size := size, free := false, flags := 0,
    rlen := rlen }

def itemOp (h0 : Bool) (item most : Nat) : OpInfo :=
  { plainOp h0 4 4 with item := item, most := most }

def longOp (size rlen : Nat) : OpInfo := { plainOp true size rlen with long := true, flags := 1 }

def engineOp (h0 : Bool) (size rlen : Nat) : OpInfo := { plainOp h0 size rlen with engine := true }

/-- The opcode tables; none for an opcode not assigned. -/
def opInfo (op : Nat) : Option OpInfo :=
  match op with
  | 0x00 => some (plainOp false 0 0)
  | 0x01 => some (plainOp false 0 16)
  | 0x02 => some (plainOp false 8 0)
  | 0x03 => some (plainOp true 0 0)
  | 0x04 => some (plainOp true 4 0)
  | 0x10 => some (itemOp false 12 340)
  | 0x11 => some (itemOp true 4 1021)
  | 0x12 => some (itemOp false 8 510)
  | 0x13 => some (longOp 4 4)
  | 0x20 => some (itemOp false 20 204)
  | 0x30 => some { itemOp false 4 1021 with flags := 2 }
  | 0x31 => some (itemOp false 4 1021)
  | 0x32 => some (itemOp false 4 1021)
  | 0x33 => some (itemOp false 4 1021)
  | 0x40 => some (plainOp true 0 4)
  | 0x41 => some (longOp 4 32)
  | 0x42 => some (longOp 4 4)
  | 0x50 => some (longOp 24 12)
  | 0x51 => some (longOp 24 12)
  | 0x60 => some { plainOp true 4 72 with free := true }
  | 0x61 => some (engineOp false 72 4)
  | 0x62 => some (plainOp false 0 76)
  | 0x63 => some (plainOp true 4 0)
  | 0x70 => some (engineOp true 132 0)
  | 0x71 => some (plainOp false 0 548)
  | 0x80 => some (engineOp false 32 292)
  | 0x81 => some (plainOp false 0 4)
  | 0x90 => some { plainOp false 0 32 with free := true }
  | 0x91 => some (plainOp true 4 0)
  | 0xA0 => some (plainOp true 0 12)
  | 0xA1 => some (longOp 16 4)
  | 0xA2 => some (plainOp true 0 4)
  | 0xF0 => some (engineOp true 4 4)
  | 0xF1 => some (plainOp true 4 4)
  | 0xF2 => some (plainOp true 0 4)
  | _ => none

/-! ### Payload fields -/

/-- The little-endian integer at an offset of a payload. -/
def Cmd.field (c : Cmd) (off n : Nat) : Nat := ofLe ((c.payload.drop off).take n)

/-- Bytes of the payload. -/
def Cmd.slice (c : Cmd) (off n : Nat) : List Byte := (c.payload.drop off).take n

/-- FLAGS.RESUME. -/
def Cmd.resumes (c : Cmd) : Bool := bit c.flags 0

/-- COUNT of a command with items. -/
def Cmd.items (c : Cmd) : Nat := c.field 0 2

/-- A list cut into pieces of k. -/
def cut (k : Nat) : Nat → List Byte → List (List Byte)
  | 0, _ => []
  | n + 1, l => l.take k :: cut k n (l.drop k)

/-- The items of a command. -/
def Cmd.itemList (c : Cmd) (k : Nat) : List (List Byte) := cut k c.items (c.payload.drop 4)

/-- Some byte at the offsets is not zero. -/
def Cmd.nonZero (c : Cmd) (offs : List Nat) : Bool := offs.any fun o => decide (c.field o 1 ≠ 0)

/-- A GROUP_WRITE item whose reserved byte is not zero, or a field that its MASK does not name (R308; DEDUCED, log entry
82: a part of check 7, as an unused half is). -/
def badGroupItem (i : List Byte) : Bool :=
  let mask := ofLe ((i.drop 2).take 1)
  decide (ofLe ((i.drop 5).take 1) ≠ 0) || (decide (mask % 2 = 0) && decide (ofLe ((i.drop 3).take 1) ≠ 0)) ||
    (decide (mask / 2 % 2 = 0) && decide (ofLe ((i.drop 4).take 1) ≠ 0)) ||
    (decide (mask / 4 % 2 = 0) && decide (ofLe ((i.drop 6).take 2) ≠ 0))

/-- Check 7: a reserved byte or bit of the framing is not zero (R298, R307 to R317). -/
def Cmd.badFraming (c : Cmd) : Bool :=
  match c.opcode.toNat with
  | 0x04 => c.nonZero [1, 2, 3]
  | 0x10 => c.nonZero [2, 3]
  | 0x11 => c.nonZero [2, 3]
  | 0x12 => c.nonZero [2, 3] || (c.itemList 8).any badGroupItem
  | 0x13 => c.nonZero [1, 2, 3] || decide (4 ≤ c.field 0 1)
  | 0x20 => c.nonZero [2, 3] || (c.itemList 20).any fun i =>
      let halves := ofLe ((i.drop 2).take 1)
      decide (halves = 0) || decide (3 < halves) || decide (ofLe ((i.drop 3).take 1) ≠ 0) ||
        (decide (halves % 2 = 0) && decide (ofLe ((i.drop 4).take 8) ≠ 0)) ||
        (decide (halves < 2) && decide (ofLe ((i.drop 12).take 8) ≠ 0))
  | 0x30 => c.nonZero [2, 3]
  | 0x31 => c.nonZero [2, 3]
  | 0x32 => c.nonZero [2, 3]
  | 0x33 => c.nonZero [2, 3]
  | 0x41 => c.nonZero [2, 3] || decide (128 ≤ c.field 0 2)
  | 0x42 => c.nonZero [3] || decide (128 ≤ c.field 0 2)
  | 0x50 => c.nonZero [20, 21, 22, 23]
  | 0x51 => c.nonZero [20, 21, 22, 23]
  | 0x60 => c.nonZero [1]
  | 0x61 => c.nonZero [5, 6, 7]
  | 0x70 => c.nonZero [2, 3]
  | 0x91 => c.nonZero [1, 2, 3] || decide (16 ≤ c.field 0 1)
  | 0xA1 => c.nonZero [12, 13, 14, 15]
  | 0xF0 => c.nonZero [1, 2, 3] || decide (32 ≤ c.field 0 1)
  | 0xF1 => c.nonZero [1, 2, 3]
  | _ => false

/-- BODY_LEN of each staged kind (R313). -/
def bodyLen (kind : Nat) : Option Nat :=
  if kind = 1 then some 12 else if kind = 2 then some 68 else if kind = 3 then some 4
  else if kind = 4 then some 0 else if kind = 5 then some 4 else none

/-- Check 6 of STAGE: BODY_LEN differs from its kind's size, or from LEN − 4. -/
def Cmd.badBody (c : Cmd) : Bool :=
  decide (c.field 2 2 ≠ c.len - 4) ||
    match bodyLen (c.field 0 1) with
    | some n => decide (c.field 2 2 ≠ n)
    | none => false

/-- The outcome of the checks of R298 before step 9: proceed, or a status; `counted` is false for step 8. -/
inductive Checked where
  | proceed
  | status (st : Nat) (refused : Bool)

/-- The lifecycle state admits an opcode (R424). -/
def State.lifeAdmits (s : State) (op : Nat) : Bool :=
  let image := decide (op = 0x50) || decide (op = 0x51)
  if op = 0x60 ∨ op = 0x70 ∨ op = 0xF1 ∨ image then !s.retired && !(image && (s.sealMarg || s.stateMarg)) else true

/-- The issuer is admitted to the opcode (check 3). -/
def State.admitted (s : State) (c : Cmd) (i : OpInfo) : Bool :=
  (!i.h0 || decide (c.host = 0)) && (decide (c.opcode ≠ 0x70#8) || (c.factoryClean && c.presence)) &&
    s.lifeAdmits c.opcode.toNat

/-- Checks 1 to 8 of R298. -/
def State.check (s : State) (c : Cmd) : Checked :=
  if 4088 < c.len then .status stLength true else
  match opInfo c.opcode.toNat with
  | none => .status stRange true
  | some i =>
    if c.top ≠ 0#8 ∨ c.flags.toNat &&& (255 - i.flags) ≠ 0 then .status stRange true
    else if !s.admitted c i then .status stDenied true
    else if c.resumes then if c.len = 8 then .proceed else .status stLength true
    else if c.len < i.size || (decide (i.item = 0) && !i.free && decide (c.len ≠ i.size)) then
      .status stLength true
    else if i.item ≠ 0 ∧ i.most < c.items then .status stRange true
    else if i.item ≠ 0 ∧ c.len ≠ 4 + c.items * i.item then .status stLength true
    else if c.opcode = 0x60#8 && c.badBody then .status stLength true
    else if c.badFraming then .status stRange true
    else if i.item ≠ 0 ∧ c.items = 0 then .status stOk false
    else .proceed

/-! ### Results (R292, R294) -/

/-- The bytes of a mailbox from a list. -/
def boxBytes : Nat → List Byte → Tbl Byte
  | _, [] => []
  | a, b :: t => if b = 0#8 then boxBytes (a + 1) t else (a, b) :: boxBytes (a + 1) t

/-- The completion set of a mailbox (R294). -/
def State.notifyBox (s : State) (host : Nat) : State :=
  let w := s.reg fKeeper (0x800 + 4 * host)
  let x := bits w 16 0
  let r := s.route x
  if !bit w 31 then s
  else if decide (160 ≤ x) && rtEnable r && !rtMode r && decide (rtOwner r = host) then
    s.pendOrPoison x (.software s.clock.edge) 0
  else s.count fKeeper 9

/-- The result image written and the mailbox DONE. Writing every page of the mailbox clears its poison. -/
def State.finish (s : State) (c : Cmd) (status : Nat) (result : List Byte) : State :=
  let head := [c.opcode, BitVec.ofNat 8 status] ++ leBytes 2 result.length ++ leBytes 2 c.seq.toNat ++
    [3#8, 0#8]
  let box : Mailbox := { s.box c.host with st := .done, bytes := boxBytes 0 (head ++ result) }
  let s := s.setBox c.host box
  let s := s.askUnit 6 1 0
  let s := (List.range 64).foldl
    (fun (s : State) i => s.unpoison 6 (64 * c.host + i)) s
  s.notifyBox c.host

/-- A command that reached DONE past the checks of R298 steps 1 to 8 (R323). -/
def State.done (s : State) (c : Cmd) (status : Nat) (result : List Byte) : State :=
  (s.count fKeeper 3).finish c status result

/-- n zero bytes. -/
def zeros (n : Nat) : List Byte := List.replicate n 0#8

/-- The result of a command with the fields it reached, the rest zero. -/
def Cmd.blank (c : Cmd) : List Byte :=
  match opInfo c.opcode.toNat with
  | some i => zeros i.rlen
  | none => []

/-- The running command ends. -/
def State.endRun (s : State) (status : Nat) (result : List Byte) : State :=
  match s.keeper.run with
  | none => s
  | some r =>
    { s.usedBox.done r.cmd status result with
      keeper.run := none, keeper.words := [], keeper.wordsAt := none, keeper.fetch := none, keeper.digesting := false }

/-- The running command ends with the fields of its result zero. -/
def State.endZero (s : State) (status : Nat) : State :=
  match s.keeper.run with
  | some r => s.endRun status r.cmd.blank
  | none => s

/-- The running command ends with WRITTEN or DONE in its result. -/
def State.endCount (s : State) (status n : Nat) : State := s.endRun status (leBytes 2 n ++ zeros 2)

/-- The result of a re-encode cut short: the stores re-encoded before it. -/
def State.endStrength (s : State) (status : Nat) : State :=
  match s.keeper.run with
  | some r => s.endRun status (leBytes 2 (r.acc.getD 0 0) ++ leBytes 1 (r.cmd.field 2 1) ++ zeros 1)
  | none => s

/-- The running command's record changed. -/
def State.setRun (s : State) (r : Run) : State := { s with keeper.run := some r }

/-- A command taken and not begun. -/
def Run.start (c : Cmd) : Run :=
  { cmd := c, phase := .fresh, todo := [], written := 0, step := 0, granted := none, marked := false, askedAt := none,
    acc := [] }

/-- The keeper processor executes (R318, R319). -/
def State.keeperAlive (s : State) : Bool := !s.keeper.held && !s.keeper.restarting

/-- A failover has frozen the block and the keeper has not come to its next service point yet (R360). -/
def State.keeperOn (s : State) : Bool :=
  match s.twin.failover with
  | some f => f.keeperOn
  | none => false

/-- A command's first step is in progress: it runs to its end, which is the keeper's next service point (R300, R360). -/
def State.midStep (s : State) : Bool :=
  match s.keeper.run with
  | some r => decide (r.phase = .fresh)
  | none => false

/-- The keeper goes on with commands: it executes, and no restore-factory sequence runs as an approval's last step
(R297, R427). -/
def State.keeperGoes (s : State) : Bool :=
  s.startup.ready && s.keeperAlive && (!s.frozen || s.keeperOn) && decide (s.startup.factoryStep = 0)

/-- An edge of the keeper's clock KCLK, at which the keeper acts (R20, R23). -/
def State.atKclk (s : State) : Bool := decide (s.clock.edge % Config.kclk = 0)

/-- The running command, if it is of an opcode, in a phase, and the keeper may go on with it. -/
def State.phaseOf (s : State) (op : Nat) (ph : Phase) : Option Run :=
  if !s.keeperGoes then none else
  match s.keeper.run with
  | some r =>
    if r.cmd.opcode = BitVec.ofNat 8 op ∧ r.phase = ph ∧ (ph ≠ .fresh ∨ !r.cmd.resumes) then some r else none
  | none => none

/-- The same where the present edge is one of the keeper's clock, at which its own steps are taken (R23). -/
def State.runOf (s : State) (op : Nat) (ph : Phase) : Option Run := if s.atKclk then s.phaseOf op ph else none

/-! ### Tokens (R302 to R304) -/

def State.token (s : State) (host : Nat) : Option Token := look none s.keeper.tokens host
def State.setToken (s : State) (host : Nat) (t : Option Token) : State :=
  { s with keeper.tokens := ins none s.keeper.tokens host t }

/-- A token's bytes (R302). -/
def tokenBytes (t : Token) (host : Nat) : List Byte :=
  leBytes 4 t.step ++ [BitVec.ofNat 8 host, t.opcode] ++ leBytes 2 t.tokenId.toNat

/-- The token that a payload names (R303): live in the mailbox, its OPCODE and HOST those of the command and the mailbox,
its TOKEN_ID the live token's. STEP is not compared: the command goes on from the live token's (DEDUCED, log entry 83). -/
def State.tokenNamed (s : State) (host : Nat) (l : List Byte) : Option Token :=
  (s.token host).filter fun t => decide ((l.take 8).drop 4 = (tokenBytes t host).drop 4)

/-- A rekey that ROUTE_REKEY asked for is asked for no longer; a key loaded for it alone is dropped (R304). -/
def Hash.unask (h : Hash) : Hash := { h with asked := false, keyReady := h.keyReady && (h.reqPend || !h.asked) }

def State.unaskRekeys (s : State) : State := { s with routes.rt := s.routes.rt.unask, routes.rg := s.routes.rg.unask }

/-- The hosts whose live token is of a group. -/
def State.tokensOf (s : State) (g : Nat) : List Nat :=
  s.keeper.tokens.filterMap fun e => match e.2 with
    | some t => if opGroup t.opcode.toNat = some g then some e.1 else none
    | none => none

/-- An image command is abandoned. Pass two of a restore leaves its record until the configuration is refilled (R419). -/
def State.dropImage (s : State) : State :=
  { s with startup.image := s.startup.image.filter fun (i : Image) => decide (i.step = .apply) }

/-- A token voided: its command is abandoned at its checkpoint (R304). -/
def State.voidToken (s : State) (host : Nat) : State :=
  match s.token host with
  | none => s
  | some t =>
    let s := s.setToken host none
    let s := if t.opcode = 0x41#8 then { s with integrity.pass := none } else s
    let s := if t.opcode = 0x13#8 then s.unaskRekeys else s
    let s :=
      if t.opcode = 0x42#8 then
        { s with integrity.journal := s.integrity.journal.map fun (j : Reencode) => { j with running := false } }
      else s
    if t.opcode = 0x50#8 ∨ t.opcode = 0x51#8 then s.dropImage else s

/-- STEP of a running resumable command, the index of the step that it would run next (R302): the line of an image, the number
of pages that a scrub pass has taken, the number of chunks that a re-pair has opened, or the run's own count. -/
def State.stepIndex (s : State) (r : Run) : Nat :=
  match opGroup r.cmd.opcode.toNat with
  | some 1 => if r.cmd.opcode = 0x41#8 then (s.integrity.pass.map fun p => p.pages).getD r.step else r.step
  | some 2 => (s.startup.image.map fun i => i.offset / 64).getD r.step
  | some 3 => (s.twin.repair.map fun a => a.opened).getD r.step
  | _ => r.step

/-- The running resumable command stops at its step boundary with a token (R301, R302). -/
def State.preempt (s : State) : State :=
  match s.keeper.run with
  | none => s
  | some r =>
    let id := s.keeper.nextToken
    let kept : Run := if r.cmd.opcode = 0x51#8 then { r with marked := false, acc := [] } else r
    let t : Token := { tokenId := id, opcode := r.cmd.opcode, step := s.stepIndex r, issued := s.slowMark, run := kept }
    let s := { s with gate.shadow := s.gate.shadow.filter fun (x : Shadow) => x.edge.isSome }
    let s := { s with keeper.nextToken := if id = 0xFFFF#16 then 1#16 else id + 1, keeper.run := none }
    let s := ((s.voidToken r.cmd.host).setToken r.cmd.host (some t)).count fKeeper 5
    s.done r.cmd stPreempted (tokenBytes t r.cmd.host)

/-- The SCRUB and STRENGTH_SET group is held by a re-encode that no command runs (R339). -/
def State.reencodeHolds (s : State) : Bool :=
  match s.integrity.journal with
  | some j => j.running && !(s.tokensOf 1).any fun h => match s.token h with
      | some t => decide (t.opcode = 0x42#8)
      | none => false
  | none => false

/-- A new command of an exclusive group: BUSY where another mailbox holds a live token of it, and this mailbox's
own token is voided (R304). -/
def State.enterGroup (s : State) (c : Cmd) : Option State :=
  match opGroup c.opcode.toNat with
  | none => some s
  | some g =>
    if (s.tokensOf g).any fun h => decide (h ≠ c.host) then none
    else if g = 1 && (s.reencodeHolds || s.twin.repair.isSome) then none
    else some ((s.tokensOf g).foldl (fun (s : State) h => s.voidToken h) s)

/-- TOKEN_EXPIRE: a token not resumed within 1,250 SCLK is voided. -/
def State.expireToken (s : State) (host : Nat) : State :=
  match s.token host with
  | some t => if s.slowRan t.issued Config.second then s.voidToken host else s
  | none => s

/-! ### Random words (R306) -/

/-- A command begins to wait for random words. -/
def State.askWords (s : State) (r : Run) : State :=
  { s with keeper.run := some { r with phase := .random, step := max r.step 1, askedAt := some s.clock.dp },
           keeper.words := [], keeper.wordsAt := some s.clock.dp }

/-- 625,000 KCLK have passed since words were first asked for. -/
def State.waitedOut (s : State) (since : Nat) : Bool := decide (since + 2 * 625000 ≤ s.clock.dp)

/-- The words received, when there are n; taken in order of receipt. -/
def State.gotWords (s : State) (n : Nat) : Option (List DWord) :=
  if n ≤ s.keeper.words.length then some (s.keeper.words.take n) else none


/-! ### The engine queue (R296, R297) -/

/-- An entry at the head whose operation is to start now, unless it is an APPROVE, which is checked first. -/
def State.startHead (s : State) : State :=
  match s.keeper.engine with
  | e :: rest =>
    if e.started.isNone ∧ e.run.cmd.opcode ≠ 0x61#8 then
      { s with keeper.engine := { e with started := some s.clock.dp } :: rest }
    else s
  | [] => s

/-- An entry put in the engine queue: behind those of earlier edges, and among those of its own edge by host, lowest first
(R335). One that its own edge had started and that now stands behind it starts when it comes to the head. -/
def putEngine (e : EngineEntry) : List EngineEntry → List EngineEntry
  | [] => [e]
  | x :: t =>
    if x.entered = e.entered ∧ e.run.cmd.host < x.run.cmd.host then
      e :: (x :: t).map fun (y : EngineEntry) => { y with started := none }
    else x :: putEngine e t

/-- A command enters the engine queue with an operation of so many KCLK. -/
def State.enqueue (s : State) (r : Run) (lasts : Nat) : State :=
  let e : EngineEntry := { run := r, entered := s.clock.edge, started := none, lasts := lasts, ended := false }
  { s with keeper.engine := putEngine e s.keeper.engine }.startHead

/-- The head leaves the queue and the next one starts. -/
def State.dequeue (s : State) : State :=
  { s with keeper.engine := s.keeper.engine.tail }.startHead

/-- The keeper is at a step boundary at which the rest of an engine command may run: between commands, or where the
command it runs has stopped between steps or waits; not among a short command's items (R297), and not while an ATTEST that has
not reached the engine or a CONFIG_DIGEST runs (R340). -/
def State.atBoundary (s : State) : Bool :=
  match s.keeper.run with
  | none => true
  | some r => r.granted.isNone && decide (r.cmd.opcode ≠ 0x80#8) && decide (r.cmd.opcode ≠ 0x91#8) &&
      ((opGroup r.cmd.opcode.toNat).isSome || decide (r.phase ≠ .items))

/-- The head's operation has run its time. -/
def State.engineReady (s : State) : Option EngineEntry :=
  match s.keeper.engine with
  | e :: _ =>
    match e.started with
    | some t => if t + 2 * e.lasts ≤ s.clock.dp ∧ !e.ended then some e else none
    | none => none
  | [] => none

/-- ENGINE_BUSY. -/
def State.engineBusy (s : State) : Bool :=
  match s.keeper.engine with
  | e :: _ => (match e.started with
    | some t => decide (s.clock.dp < t + 2 * e.lasts) && !e.ended
    | none => false)
  | [] => false

/-- A queued engine command ends with its result. -/
def State.endEngine (s : State) (e : EngineEntry) (status : Nat) (result : List Byte) : State :=
  (s.dequeue).done e.run.cmd status result

/-- The attestation at the head of the queue that waits for a fresh signing nonce, with the edge of its request (R306). -/
def State.retryHead (s : State) : Option (EngineEntry × Nat) :=
  match s.keeper.engine with
  | e :: _ =>
    if e.ended && decide (e.run.cmd.opcode = 0x80#8) then e.run.askedAt.map fun t => (e, t) else none
  | [] => none

/-- RANDOM_WAIT_TIMEOUT: nothing within 625,000 KCLK of the first request: a rekey is no longer asked for, and the command
that waits, running or at the head of the engine queue, ends. -/
def State.wordsTimeout (s : State) : State :=
  let waits : Bool := match s.keeper.run with
    | some r => decide (r.phase = .random) && (r.askedAt.map s.waitedOut).getD false
    | none => false
  if waits then
    let s := match s.keeper.run with
      | some r => if r.cmd.opcode = 0x13#8 then s.unaskRekeys else s
      | none => s
    s.endZero stAborted
  else match s.retryHead with
    | some (e, t) => if s.waitedOut t then s.endEngine e stAborted e.run.cmd.blank else s
    | none => s

/-! ### Staged changes end (R338) -/

/-- The staged change ends without commit; queued approvals of it will be answered VOIDED. -/
def State.endStaged (s : State) : State :=
  match s.keeper.staged with
  | none => s
  | some c => { s with keeper.staged := none, keeper.endedStages := c.stageId :: s.keeper.endedStages }

/-- A void: counted and raised. -/
def State.voidStaged (s : State) : State :=
  match s.keeper.staged with
  | none => s
  | some _ => s.endStaged.event fLife 4 145

/-! ### Watchdog (R318, R319) -/

/-- What the units do with a command cut short: a reservation released, its sequence ended, its pass or image
dropped, its rekey no longer asked for. -/
def State.abandon (s : State) (op : Nat) : State :=
  let s := { s with sluice.locks := s.sluice.locks.filter fun (l : Lock) =>
    l.unit.isSome || l.ended || (decide (l.owner ≠ 1) && decide (l.owner ≠ 2)) }
  let s := { s with gate.shadow := s.gate.shadow.filter fun (x : Shadow) => x.edge.isSome }
  if op = 0x13 then s.unaskRekeys
  else if op = 0x41 then { s with integrity.pass := none }
  else if op = 0x42 then
    { s with integrity.journal := s.integrity.journal.map fun (j : Reencode) => { j with running := false } }
  else if op = 0x50 ∨ op = 0x51 then s.dropImage
  else s

/-- 65,536 KCLK have passed without a service point. -/
def State.watchdogDue (s : State) : Bool :=
  s.startup.ready && s.keeperAlive && !s.frozen && decide (s.keeper.serviceAt + 2 * 65536 ≤ s.clock.dp)

/-- WATCHDOG_EXPIRE. -/
def State.watchdog (s : State) : State :=
  if !s.watchdogDue then s
  else
    let s := s.event fKeeper 6 144
    let s := match s.keeper.run with
      | some r => s.abandon r.cmd.opcode.toNat
      | none => s.abandon 0
    let cmds := (match s.keeper.run with
      | some r => [r.cmd]
      | none => []) ++ s.keeper.engine.map fun e => e.run.cmd
    let s := { s with keeper.run := none, keeper.engine := [], keeper.fetch := none, keeper.words := [],
                      keeper.wordsAt := none, keeper.digesting := false }
    let s := cmds.foldl (fun (s : State) c => s.done c stAborted []) s
    let s := (keys s.keeper.tokens).foldl (fun (s : State) h => s.voidToken h) s
    let s := s.voidStaged
    let recent := (s.keeper.expiries.filter fun t => !s.slowRan t Config.second) ++ [s.slowMark]
    let s := { s with keeper.expiries := recent, keeper.restarting := true, keeper.restartAt := s.clock.dp }
    if 3 ≤ recent.length then { s with keeper.held := true } else s

/-- KEEPER_RESTART_DONE: the restarted keeper has checked its ROM. -/
def State.restartDone (s : State) (romOk : Bool) : State :=
  if s.keeper.restarting && romOk then
    { s with keeper.restarting := false, keeper.serviceAt := s.clock.dp }.startHead
  else s

/-! ### Service points (R300, R301, R305) -/

/-- One class acknowledged by the keeper and recorded; a presentation of an INTID whose page is poisoned is withdrawn (R108,
R390). -/
def State.keeperTake (s : State) (fast : Bool) : State :=
  match (if fast then s.seenF 256 else s.seenN 256) with
  | none => s
  | some p =>
    let r := s.readInt p.intid 3
    if !r.1.usable then (if fast then r.2.withdrawF 256 else r.2.withdrawN 256) else
    let s := (r.2.take 256 fast p).count fKeeper 7
    { s with keeper.intLast := 0x80000000#32 ||| flag32 30 fast ||| at32 0 (intidOf p.intid) }

/-- One class completed by the keeper. -/
def State.keeperComplete (s : State) (fast : Bool) : State :=
  match s.act 256 fast with
  | none => s
  | some a =>
    let r := s.readInt a.intid 3
    (r.2.release 256 fast a r.1.usable).count fReservoir 6

/-- A page of keeper RAM is poisoned: the keeper is held stopped at its next step (R390, log entry 36). -/
def State.ramPoisoned (s : State) : Bool := (List.range 4096).any fun p => s.poisoned 5 p

/-- KEEPER_SERVICE_POINT: INTIDs presented to T256 absorbed, the watchdog restarted, and a running resumable
command preempted by a fast one. -/
def State.servicePoint (s : State) : State :=
  if !s.startup.ready || !s.keeperAlive || s.frozen || !s.atKclk then s
  else if s.ramPoisoned then { s with keeper.held := true, keeper.heldByRam := true }
  else
  let s := { s with keeper.serviceAt := s.clock.dp }
  let fast := (s.seenF 256).isSome
  let s := (s.keeperTake false).keeperTake true
  let s := (s.keeperComplete true).keeperComplete false
  match s.keeper.run with
  | some r =>
    if fast && !r.cmd.resumes && (opGroup r.cmd.opcode.toNat).isSome && decide (r.phase ≠ .fresh) && r.granted.isNone then
      s.preempt
    else s
  | none => s

/-! ### Taking a command (R289, R290, R295, R298) -/

/-- A command taken from its mailbox: its header checks, or it runs. -/
def State.takeCmd (s : State) (c : Cmd) : State :=
  let s := { s with keeper.submitted := ins none s.keeper.submitted c.host none }
  let s := (s.setBox c.host { s.box c.host with st := .running }).askUnit 6 1 0
  let s := s.askUnit 5 0 0
  if c.unreadable then s.done c stUncorr []
  else match s.check c with
    | .status st refused =>
      if refused then (s.count fKeeper 4).finish c st [] else s.finish c st c.blank
    | .proceed => s.setRun (Run.start c)

/-- The mailboxes QUEUED with a command taken by rounds. -/
def State.queuedBoxes (s : State) : List Nat :=
  s.keeper.submitted.filterMap fun e => match e.2 with
    | some _ => some e.1
    | none => none

/-- MAILBOX_ROUND: a round between commands, or at a step boundary of a resumable command, which another mailbox's
win preempts (R295, R301). The rest of a command whose engine operation has ended goes first (R297). -/
def State.mailboxRound (s : State) : State :=
  if !s.keeperGoes || !s.atKclk then s else
  let q := s.queuedBoxes
  let go (s : State) (win : Nat) (idxs : List Nat) : State :=
    let s := s.arbCharge 51 win idxs [win]
    match look none s.keeper.submitted win with
    | some c => s.takeCmd c
    | none => s
  match s.keeper.run with
  | none =>
    if s.engineReady.isSome then s else
    match s.arbWinner 51 q with
    | some w => go s w q
    | none => s
  | some r =>
    if (opGroup r.cmd.opcode.toNat).isNone || decide (r.phase = .fresh) || r.granted.isSome || s.engineReady.isSome then s
    else
      let others := q.filter fun h => decide (h ≠ r.cmd.host)
      if others.isEmpty then s
      else
        let idxs := putIn r.cmd.host others
        match s.arbWinner 51 idxs with
        | none => s
        | some w =>
          if w = r.cmd.host then s.arbCharge 51 w idxs [w]
          else go s.preempt w idxs

/-- COMMAND_RESUME: a resume token checked, and the preempted command continued (R303). -/
def State.commandResume (s : State) : State :=
  if !s.keeperGoes || !s.atKclk then s else
  match s.keeper.run with
  | none => s
  | some r =>
    if r.phase ≠ .fresh || !r.cmd.resumes then s
    else
      match (s.tokenNamed r.cmd.host (r.cmd.slice 0 8)).filter fun t => decide (t.opcode = r.cmd.opcode) with
      | none => s.endZero stStale
      | some t =>
        let c : Cmd := { t.run.cmd with seq := r.cmd.seq }
        (s.setToken r.cmd.host none).setRun { t.run with cmd := c }

end Sys2Proof.Machine
end

