-- ==== Sys2Proof/Machine/Stores.lean ====
section
/-! DEFINITION. Locked sequences, route and rights item writes, rekey, migration and the conflict monitor (R133 to R136, R156 to R167, R194 to R196, R213, R458). -/

namespace Sys2Proof.Machine

/-! ### Locked sequences (R194, R195) -/

/-- LOCK_LAST of a broken sequence. -/
def lockRecord (l : Lock) (sweep : Bool) : Word :=
  0x80000000#32 ||| flag32 30 sweep ||| at32 24 l.memory ||| at32 16 l.bank ||| at32 0 l.owner

/-- The commit-shadow entry reserved and not used is released (R133). -/
def State.dropReserved (s : State) : State :=
  { s with gate.shadow := s.gate.shadow.filter fun (x : Shadow) => x.edge.isSome }

/-- SHADOW_STAT.USED. -/
def State.shadowUsed (s : State) : Nat := s.gate.shadow.length

/-- A write of n entries reserves their commit-shadow entries, or waits for them (R133). -/
def State.reserveShadows (s : State) (r : Run) (rights : Bool) (n : Nat) (counted : Bool) : State :=
  if s.shadowUsed + n ≤ 16 then
    let x : Shadow := { rights := rights, idx := 0, old := 0#128, edge := none }
    { s with gate.shadow := s.gate.shadow ++ List.replicate n x }.setRun { r with marked := true }
  else
    let s := s.setRun { r with marked := false }
    if counted then s.count fGate 7 else s

/-- The current item reserves a commit-shadow entry, or waits for one (R133). -/
def State.reserveShadow (s : State) (r : Run) (counted : Bool) : State :=
  s.reserveShadows r (decide (r.cmd.opcode = 0x20#8)) 1 counted

/-- The route or rights page that pass two of a restore writes next: the store, the page and its bytes (R419). -/
def Image.pageNext (i : Image) : Option (Bool × Nat × List Byte) :=
  if i.step = .apply ∧ (i.sectType = 2 ∨ i.sectType = 3) ∧ 64 ≤ i.sectLeft ∧ 64 ≤ i.plain.length then
    some (decide (i.sectType = 3), i.sectPos / 64, i.plain.take 64)
  else none

/-- The page that the running IMAGE_RESTORE writes next. -/
def State.imagePage (s : State) : Option (Run × Bool × Nat × List Byte) :=
  match s.phaseOf 0x51 .waiting, s.startup.image with
  | some r, some i => i.pageNext.map fun p => (r, p)
  | _, _ => none

/-- A page's entries as bytes: the entries it changes, with their new content. -/
def State.pageChanges (s : State) (rights : Bool) (page : Nat) (b : List Byte) : List (Nat × BitVec 128) :=
  let n := if rights then 4 else 8
  let w := if rights then 16 else 8
  ((List.range n).map fun j => (n * page + j, BitVec.ofNat 128 (ofLe ((b.drop (w * j)).take w)))).filter
    fun (e : Nat × BitVec 128) => (rights || decide (72 ≤ e.1)) && decide (s.stored rights e.1 ≠ e.2)

/-- A restored page's turn: an entry of the commit shadow is reserved for each entry that it changes, once for a page
(R133, R419). R146 counts the writes that waited, and R419 has the page written as one for several entries: a page that must
wait counts once in SHADOW_WAITS (DESIGN CHOICE, log entry 106). -/
def State.pageTurn (s : State) : State :=
  match s.imagePage with
  | some (r, rights, page, b) =>
    let key := [if rights then 1 else 0, page]
    if r.acc = key then s
    else s.reserveShadows { r with acc := key } rights (s.pageChanges rights page b).length true
  | none => s

/-- SHADOW_RESERVE: a waiting write reserves released entries. -/
def State.shadowReserve (s : State) : State :=
  match s.keeper.run with
  | some r =>
    if r.phase = .items ∧ (r.cmd.opcode = 0x10#8 ∨ r.cmd.opcode = 0x20#8) ∧ !r.marked ∧ s.shadowUsed < 16 then
      s.reserveShadow r false
    else
      match s.imagePage with
      | some (r, rights, page, b) =>
        if r.marked || r.acc.isEmpty then s else s.reserveShadows r rights (s.pageChanges rights page b).length false
      | none => s
  | none => s

/-! ### Tier 3 of a bank (R154, R174, R200) -/

/-- The run reads the stores for their digests (R315, R347): a CONFIG_DIGEST or an ATTEST that has begun. -/
def Run.digests (r : Run) : Bool :=
  (decide (r.cmd.opcode = 0x80#8) || decide (r.cmd.opcode = 0x91#8)) && decide (r.phase = .items)

/-- The stores that a digest command reads: both for ATTEST, those its SCOPE names for CONFIG_DIGEST. -/
def Run.scope (r : Run) : Nat := if r.cmd.opcode = 0x80#8 then 3 else ofLe (r.cmd.payload.take 1)

/-- The first page of the route store that holds an entry of ROUTE_DIGEST: INTID 72 (R347). -/
abbrev digestFirst : Nat := 9

/-- The store and the page, in index order, that a digest reads next: the pages of the route store from that of INTID 72, then
those of the rights store, each where it is in the scope. -/
def State.digestAt (s : State) : Option (Nat × Nat) :=
  match s.keeper.run with
  | some r =>
    if !r.digests then none
    else
      let routes := if r.scope.testBit 0 then 16384 - digestFirst else 0
      if r.step < routes then some (0, digestFirst + r.step)
      else if r.scope.testBit 1 ∧ r.step < routes + 16384 then some (1, r.step - routes)
      else none
  | none => none

/-- The page a digest reads next, unless it is poisoned: the reading stops there. -/
def State.digestNext (s : State) : Option (Nat × Nat) :=
  s.digestAt.filter fun p => !s.poisoned p.1 ((s.hash (decide (p.1 = 1))).physical p.2)

/-- The memory and bank that the keeper's current item needs. -/
def State.keeperBank (s : State) : Option (Nat × Nat) :=
  match s.keeper.run with
  | some r =>
    if r.phase ≠ .items ∨ r.granted.isSome then none
    else if r.digests then s.digestNext.map fun p => (p.1, (s.hash (decide (p.1 = 1))).bank p.2)
    else if r.cmd.opcode = 0x10#8 then
      match r.todo with
      | i :: _ => if r.marked then some (0, s.routes.rt.bank (ofLe (i.take 4) % 131072 / 8)) else none
      | [] => none
    else if r.cmd.opcode = 0x20#8 then
      match r.todo with
      | i :: _ => if r.marked then some (1, s.routes.rg.bank (ofLe (i.take 2) / 4)) else none
      | [] => none
    else if r.cmd.opcode = 0x12#8 then if r.todo.isEmpty then none else some (3, 0)
    else none
  | none => none

/-- STRENGTH_SET is the running command, past its checks. -/
def State.strengthRuns (s : State) : Bool :=
  match s.keeper.run with
  | some r => decide (r.cmd.opcode = 0x42#8) && decide (r.phase = .items)
  | none => false

/-- The memory and bank of the next page to re-encode, for STRENGTH_SET or for keeper work that no command runs (R339,
R398). -/
def State.reencodeBank (s : State) : Option (Nat × Nat) :=
  match s.integrity.journal with
  | some j =>
    if j.running && (s.strengthRuns || s.reencodeHolds) then
      some (j.store, if j.store < 2 then j.next % 16 else 0)
    else none
  | none => none

/-- The bank of the page that a restore writes next, once its commit-shadow entries are reserved (R133, R419). -/
def State.restoreBank (s : State) : Option (Nat × Nat) :=
  match s.imagePage with
  | some (r, rights, page, _) => if r.marked then some (if rights then 1 else 0, (s.hash rights).bank page) else none
  | none => none

/-- The number of chunks of a re-pair stream, and the store, bank, first row and pages of a chunk (R372). -/
def chunkCount : Nat := 670

def chunkAt (n : Nat) : Nat × Nat × Nat :=
  if n < 512 then (n / 256, n % 256 / 16, 64 * (n % 16))
  else if n < 522 then (2, 0, 64 * (n - 512)) else if n < 526 then (3, 0, 64 * (n - 522))
  else if n < 542 then (4, 0, 64 * (n - 526)) else if n < 606 then (5, 0, 64 * (n - 542))
  else (6, 0, 64 * (n - 606))

/-- A chunk of a re-pair stream may be staged: its slot's previous chunk has been acknowledged (R372). -/
def Repair.stages (r : Repair) : Bool :=
  decide (r.phase = 3) && decide (r.staged < chunkCount) && decide (r.staged < r.opened + r.slots)

/-- The memory and bank of the next chunk of a re-pair stream. -/
def State.stageBank (s : State) : Option (Nat × Nat) :=
  match s.twin.repair with
  | some r => if r.stages then some ((chunkAt r.staged).1, (chunkAt r.staged).2.1) else none
  | none => none

/-- A keeper-marked sequence in progress. -/
def State.markedLock (s : State) : Option Lock := s.sluice.locks.find? fun (l : Lock) => decide (l.owner = 1) && !l.ended

/-- The bank that the next keeper-marked sequence asks for: a page to re-encode or to restore, or a chunk of a re-pair
stream. One is made at a time. -/
def State.markedBank (s : State) : Option (Nat × Nat) :=
  if s.sluice.locks.any fun (l : Lock) => decide (l.owner = 1) && (!l.ended || l.holds s.clock.dp) then none
  else (s.reencodeBank.or s.restoreBank).or s.stageBank

/-- The bank in which the window read that holds the ordering point waits. -/
def State.windowBank (s : State) : Option (Nat × Nat) :=
  match s.front.hold with
  | some (.window rights idx _ _) =>
    let page := pageOf rights idx
    if (s.hash rights).moving page then none
    else some (if rights then 1 else 0, (s.hash rights).bank page)
  | _ => none

/-- The banks of a store, and the pages of each. -/
def banksOf (store : Nat) : Nat := if store < 2 then 16 else 1
def pagesPerBank (store : Nat) : Nat := Config.storePages store / banksOf store

/-- SCRUB is the running command, past its checks. -/
def State.scrubRuns (s : State) : Bool :=
  match s.keeper.run with
  | some r => decide (r.cmd.opcode = 0x41#8) && decide (r.phase = .waiting)
  | none => false

/-- A scrub access to a bank is in progress. -/
def State.scrubbing (s : State) (store bank : Nat) : Bool :=
  s.sluice.locks.any fun (l : Lock) =>
    l.scrub.isSome && !l.ended && decide (l.memory = store) && decide (l.bank = bank) && l.holds s.clock.dp

/-- The banks in which a SCRUB pass has a page left, in every store named: each bank's next page is asked for as soon as its
previous access ends, while the command runs; a preempted pass keeps its position (R394). -/
def State.passBanks (s : State) : List (Nat × Nat) :=
  if !s.scrubRuns then [] else
  match s.integrity.pass with
  | some p => p.stores.flatMap fun st =>
      ((List.range (banksOf st)).filter fun b => decide (look 0 p.next (16 * st + b) < pagesPerBank st) && !s.scrubbing st b).map
        fun b => (st, b)
  | none => []

/-- The banks of the scrubber's next pages, when a walker or a SCRUB pass asks for them. A walker whose EN bit is 0 asks for
nothing, not even what it had asked for (R392). -/
def State.scrubBanks (s : State) : List (Nat × Nat) :=
  let ctrl := s.sampled.reg fIntegrity 0x20
  if bit ctrl 31 then []
  else
    let mine (st : Nat) : Bool := match s.integrity.pass with
      | some p => p.stores.contains st
      | none => false
    s.passBanks ++ s.integrity.walkers.filterMap fun e =>
      if e.2.wants && bit ctrl (8 + e.1) && !mine e.1 then some (e.1, if e.1 < 2 then e.2.next % 16 else 0) else none

/-- The tier-3 requesters of a bank: 0 keeper, 1 scrubber, 2 window read. -/
def State.maintBids (s : State) (m b : Nat) : List Nat :=
  (if (decide (s.keeperBank = some (m, b)) || decide (s.markedBank = some (m, b))) && s.keeperAlive then [0] else []) ++
    (if s.scrubBanks.contains (m, b) then [1] else []) ++
    (if s.windowBank = some (m, b) then [2] else [])

/-- The tier-3 arbiter of a bank; the memories other than the two stores have one each (log entry 18). -/
def maintArb (m b : Nat) : Nat := if m = 0 then 300 + b else if m = 1 then 316 + b else 340 + m

/-- A memory other than the two stores is held by a locked sequence at this edge. -/
def State.memoryHeld (s : State) (m : Nat) : Bool :=
  s.sluice.locks.any fun (l : Lock) => decide (l.memory = m) && l.holds s.clock.dp

/-- The data-plane units of a memory that wait for its bank, in rising order (R453). -/
def State.unitsWaiting (s : State) (m : Nat) : List Nat :=
  sorted ((s.sluice.units.filter fun (u : UnitAsk) => decide (u.memory = m)).map UnitAsk.unit)

/-- A tier-2 round of the one bank of a memory other than the two stores: the winner's oldest page update begins its
locked sequence (R194, R200, R453). -/
def State.unitRound (s : State) (m : Nat) : State :=
  let idxs := s.unitsWaiting m
  if s.memoryHeld m then s else
  match s.arbWinner (400 + m) idxs with
  | none => s
  | some w =>
    match s.sluice.units.find? fun (u : UnitAsk) => decide (u.memory = m) && decide (u.unit = w) with
    | none => s
    | some u =>
      let s := if s.arbForced (400 + m) idxs then s.count fSluice 9 else s
      let s := s.arbCharge (400 + m) w idxs [w]
      let l : Lock := { memory := m, bank := 0, owner := 2, grant := s.clock.dp, lasts := s.clock.dp + u.lasts, unit := some w,
                        ended := false }
      { s with sluice.units := s.sluice.units.erase u, sluice.locks := s.sluice.locks ++ [l] }

/-- The bank is free for a maintenance grant at this edge: held by nothing, with no lookup and no data-plane unit waiting
for it. -/
def State.maintFree (s : State) (m b : Nat) : Bool :=
  if m < 2 then !s.bankHeld (decide (m = 1)) b && (s.bankRequests (decide (m = 1)) b).isEmpty
  else !s.memoryHeld m && (s.unitsWaiting m).isEmpty

/-- A tier-3 requester is granted the bank at this edge. -/
def State.maintWins (s : State) (who m b : Nat) : Bool :=
  s.maintFree m b && decide (s.arbWinner (maintArb m b) (s.maintBids m b) = some who)

/-- The charge of a tier-3 round. -/
def State.chargeMaint (s : State) (who m b : Nat) : State :=
  let ids := s.maintBids m b
  let s := if s.arbForced (maintArb m b) ids then s.count fSluice 9 else s
  s.arbCharge (maintArb m b) who ids [who]

/-- A locked sequence of the keeper begins at this edge. -/
def State.lockFor (s : State) (m b owner length : Nat) : State :=
  let l : Lock := { memory := m, bank := b, owner := owner, grant := s.clock.dp, lasts := s.clock.dp + length,
                    unit := none, ended := false }
  let s := s.chargeMaint 0 m b
  { s with sluice.locks := s.sluice.locks ++ [l] }

/-- One page of a digest is read: one grant of the maintenance tier (R154, R315). -/
def State.digestRead (s : State) (r : Run) (m b : Nat) : State :=
  let s := s.chargeMaint 0 m b
  let grants := ins none s.sluice.grants (bankArb (decide (m = 1)) b) (some s.clock.dp)
  State.setRun { s with sluice.grants := grants } { r with step := r.step + 1 }

/-- The keeper's item, and its next marked sequence, are granted their banks at this edge where they can be. -/
def State.grantKeeper (s : State) : State :=
  if !s.keeperAlive then s else
  let s := match s.keeperBank, s.keeper.run with
    | some (m, b), some r =>
      if r.digests then if s.maintWins 0 m b then s.digestRead r m b else s
      else if s.maintWins 0 m b then (s.lockFor m b 2 8).setRun { r with granted := some s.clock.dp } else s
    | _, _ => s
  match s.markedBank with
  | some (m, b) =>
    if s.maintWins 0 m b then
      let mine := s.strengthRuns || s.imagePage.isSome
      let s := s.lockFor m b 1 63
      match s.keeper.run with
      | some r => if mine then s.setRun { r with granted := some s.clock.dp } else s
      | none => s
    else s
  | none => s

/-- The edge of a sequence's write: g + 3 on a clean page, g + 2 + c on a corrected one (R156). -/
def writeEdge (g c : Nat) : Nat := if c = 0 then g + 3 else g + 2 + c

/-- STRENGTH_SET ends with a status, its journal left where it stands; a re-encode that no command runs takes the page
again. -/
def State.stopReencode (s : State) (status : Nat) : State :=
  if s.strengthRuns then
    let s := { s with integrity.journal := s.integrity.journal.map fun (j : Reencode) => { j with running := false } }
    s.endStrength status
  else s

/-! ### Writing a route (R158, R213, R458) -/

/-- The entry's previous content kept in the reserved shadow entry (R132). -/
def State.shadowWrite (s : State) (rights : Bool) (idx : Nat) : State :=
  let used := s.gate.shadow.filter fun (x : Shadow) => x.edge.isSome
  let x : Shadow := { rights := rights, idx := idx, old := s.stored rights idx, edge := some s.clock.dp }
  { s with gate.shadow := used ++ [x] }

/-- A route entry and its mirrors take a value. -/
def State.setRoute (s : State) (x : Nat) (r : DWord) : State :=
  let s := { s with routes.entries := ins 0#64 s.routes.entries x r }
  let s :=
    if 72 ≤ x ∧ x < 4096 then
      let f := s.ft x
      s.setFt x { c0 := ftMirror f.c0 r, c1 := ftMirror f.c1 r, c2 := ftMirror f.c2 r }
    else s
  if 72 ≤ x ∧ x < 160 then { s with routes.mirror := ins 0#16 s.routes.mirror x (mirrorWord r) } else s

/-- The next item of an item command, or its end with status OK. -/
def State.nextItem (s : State) (r : Run) : State :=
  let r := { r with todo := r.todo.tail, written := r.written + 1, granted := none, marked := false }
  if r.todo.isEmpty then (s.setRun r).endCount stOk r.written
  else s.reserveShadow r true

/-- An item's sequence ends without a write and the command with a status. -/
def State.failItem (s : State) (r : Run) (status m b : Nat) : State :=
  ((s.unlock m b).dropReserved.setRun r).endCount status r.written

/-- ROUTE_ITEM_WRITE: the write edge of a granted item. -/
def State.routeItem (s : State) (pr : PageRead) : State :=
  match s.phaseOf 0x10 .items with
  | none => s
  | some r =>
    match r.todo, r.granted with
    | i :: _, some g =>
      let x := ofLe (i.take 4) % 131072
      let page := x / 8
      let b := s.routes.rt.bank page
      let rd := s.readPage 0 (s.routes.rt.physical page) 3 false pr
      if !rd.1.usable then
        if g + 2 ≤ s.clock.dp then rd.2.failItem r stUncorr 0 b else s
      else if s.clock.dp < writeEdge g rd.1.correction then s
      else
        let s := (rd.2.rewriteEpoch 0 (s.routes.rt.physical page)).shadowWrite false x
        let s := (s.setRoute x (BitVec.ofNat 64 (ofLe (i.drop 4)))).emptyCaches
        ((s.recheck.count fRoute 14).unlock 0 b).nextItem r
    | _, _ => s

/-- RIGHTS_ITEM_WRITE: the write edge of a granted item, with the recheck of R135. -/
def State.rightsItem (s : State) (pr : PageRead) : State :=
  match s.phaseOf 0x20 .items with
  | none => s
  | some r =>
    match r.todo, r.granted with
    | i :: _, some g =>
      let rid := ofLe (i.take 2)
      let halves := ofLe ((i.drop 2).take 1)
      let page := rid / 4
      let b := s.routes.rg.bank page
      let rd := s.readPage 1 (s.routes.rg.physical page) 3 false pr
      if !rd.1.usable then
        if g + 2 ≤ s.clock.dp then rd.2.failItem r stUncorr 1 b else s
      else if s.clock.dp < writeEdge g rd.1.correction then s
      else
        let old := s.rightsEntry rid
        let inForce := bit s.sampled.gate.setB r.cmd.host
        let names := if inForce then decide (2 ≤ halves) else decide (halves % 2 = 1)
        if r.cmd.host ≠ 0 && names then rd.2.failItem r stDenied 1 b
        else
          let a : DWord := if halves % 2 = 1 then BitVec.ofNat 64 (ofLe ((i.drop 4).take 8)) else rgHalf old false
          let h : DWord := if 2 ≤ halves then BitVec.ofNat 64 (ofLe ((i.drop 12).take 8)) else rgHalf old true
          let s := (rd.2.rewriteEpoch 1 (s.routes.rg.physical page)).shadowWrite true rid
          let s := { s with gate.rights := ins 0#128 s.gate.rights rid (rgJoin a h) }
          ((s.emptyCaches.count fGate 6).unlock 1 b).nextItem r
    | _, _ => s

/-! ### The conflict monitor (R159, R160) -/

/-- 256 × a / b, rounded down, saturating at 0xFF. -/
def share (a b : Nat) : Nat := sat 255 (256 * a / b)

/-- The bank with the largest saturation count, the lowest on a tie. -/
def hotBank (t : Tbl Nat) : Nat :=
  (List.range 16).foldl (fun m b => if look 0 t m < look 0 t b then b else m) 0

/-- The spacing of R160 has elapsed, counted under R26. -/
def State.spaced (s : State) (h : Hash) : Bool := s.slowRan h.spacedAt Config.second

/-- MONITOR_WINDOW_CLOSE: the closing edge of a store's monitor window. -/
def State.monitorClose (s : State) (rights : Bool) : State :=
  let h := s.hash rights
  if !s.running || decide (s.clock.dp < h.windowAt + Config.monWindow) then s
  else
    let b := s.sampled
    let closing := b.hash rights
    let ctrl := b.reg fRoute 0x24
    let hot := hotBank closing.sat
    let most := look 0 closing.sat hot
    let trig := decide (atLeast1 (bits ctrl 7 0) * Config.monWindow ≤ most * 256) &&
      decide (closing.reads * 256 < atLeast1 (bits ctrl 15 8) * 16 * Config.monWindow)
    let w := 0x80000000#32 ||| flag32 30 trig ||| at32 24 hot ||| at32 16 (share most Config.monWindow) |||
      at32 8 (share closing.reads (16 * Config.monWindow))
    let starts := trig && bit (b.reg fRoute 0x20) (if rights then 1 else 0) && !closing.migActive &&
      b.spaced closing
    let sat := (List.range 16).foldl (fun t i => ins 0 t i (look 0 h.sat i - look 0 closing.sat i)) []
    let s := s.setHash rights
      { h with sat := sat, reads := h.reads - closing.reads, windowAt := s.clock.dp, monLast := w, reqPend := h.reqPend || starts }
    if !trig then s
    else
      let s := s.event fRoute 12 136
      if starts then s else s.count fRoute 13

/-! ### Rekey and migration (R160 to R167) -/

/-- The pace P. -/
def State.pace (s : State) : Nat := 64 * 2 ^ min (bits (s.reg fRoute 0x20) 18 16) 6

/-- A store waits for a fresh key. -/
def Hash.wantsKey (h : Hash) : Bool := (h.reqPend || h.asked) && !h.keyReady && !h.migActive

/-- A random word loaded into the slot not named by KEY_SEL (R152). -/
def Hash.loadKey (h : Hash) (w : DWord) : Hash :=
  if h.sel then { h with key0 := w, keyReady := true } else { h with key1 := w, keyReady := true }

/-- REKEY_START: with the fresh key loaded, the migration starts and REQ_PEND clears. -/
def State.rekeyStart (s : State) (rights : Bool) : State :=
  let h := s.hash rights
  if s.running && s.keeperAlive && h.keyReady && (h.reqPend || h.asked) && !h.migActive then
    let s := s.setHash rights
      { h with migActive := true, migRow := 0, tickAt := s.clock.dp, baseTick := s.clock.dp, baseRow := 0,
               reserved := false, reqPend := false, asked := false, keyReady := false,
               spacedAt := s.slowMark, since := s.slowMark }
    s.count fRoute (if rights then 10 else 9)
  else s

/-- MIGRATION_ROW_TICK: the row's 16 banks are requested (R163). -/
def State.rowTick (s : State) (rights : Bool) : State :=
  let h := s.hash rights
  if s.running && h.migActive && !h.reserved && decide (h.tickAt ≤ s.clock.dp) then
    s.setHash rights { h with reserved := true, tickAt := s.clock.dp }
  else s

/-- A poison map after the pages of a row have moved from bank b to bank b XOR d. -/
def movePoison (t : Tbl Bool) (store row d : Nat) : Tbl Bool :=
  (List.range 16).foldl
    (fun acc b => ins false acc (pageKey store (row * 16 + (b ^^^ d))) (look false t (pageKey store (row * 16 + b))))
    t

/-- The reads of a row's 16 pages, bank by bank, with the longest correction among them. -/
def State.readRow (s : State) (store row : Nat) (pages : List PageRead) : Nat × State :=
  (List.range 16).foldl
    (fun (t : Nat × State) b =>
      let r := t.2.readPage store (row * 16 + b) 5 false (pages.getD b cleanRead)
      (max t.1 r.1.correction, r.2)) (0, s)

/-- The edge g at which the last of a row's 16 banks is reserved: the tick, or the first edge after the last locked
sequence that held one (R163). -/
def State.rowGrant (s : State) (rights : Bool) : Nat :=
  let m := if rights then 1 else 0
  (s.sluice.locks.filter fun (l : Lock) => decide (l.memory = m)).foldl (fun g (l : Lock) => max g (l.lasts + 1))
    (s.hash rights).tickAt

/-- MIGRATION_ROW_WRITE: the write edge of a row's sequence, g + 3 on clean pages and g + 2 + c where one needs correction
(R156, R163, R165, R166). From the edge after it the banks serve others again (R164). R162 does not say which pace counts when
HASH_CTRL is written during a migration: the next tick is reckoned from the base row with the pace in force before this edge
(DESIGN CHOICE, log entry 105). -/
def State.rowWrite (s : State) (rights : Bool) (pages : List PageRead) : State :=
  let h := s.hash rights
  let m := if rights then 1 else 0
  let rd := s.readRow m h.migRow pages
  if !s.running || !h.reserved || !h.migActive || decide (s.clock.dp < writeEdge (s.rowGrant rights) rd.1) then s
  else
    let held := (List.range 16).foldl (fun t b => ins none t (bankArb rights b) (some s.clock.dp)) s.sluice.grants
    let row := h.migRow
    let fresh := if h.sel then h.key0 else h.key1
    let old := if h.sel then h.key1 else h.key0
    let d := bankHash row old ^^^ bankHash row fresh
    let s := { rd.2 with sluice.grants := held }
    let s := (s.modWell false fun w => { w with poison := movePoison w.poison m row d }).modWell true
      fun w => { w with poison := movePoison w.poison m row d }
    let s := (List.range 16).foldl (fun (s : State) b => (s.setEpoch m (row * 16 + b) (!h.sel)).wroteWhole m (row * 16 + b)) s
    let s := s.count fRoute 11
    if row = 1023 then
      (s.setHash rights { h with sel := !h.sel, gen := h.gen + 1, migActive := false, migRow := 0,
                                 reserved := false }).event fRoute 15 137
    else
      let next := max (h.baseTick + (row + 1 - h.baseRow) * s.sampled.pace) (s.clock.dp + 1)
      s.setHash rights { h with migRow := row + 1, reserved := false, tickAt := next }

end Sys2Proof.Machine
end

