-- ==== Sys2Proof/Machine/Levels.lean ====
section
/-! DEFINITION. Level lines, vault pairs, the zeroize path, the vault sweep and the standby latches (R265 to R279, R458). -/

namespace Sys2Proof.Machine

/-! ### Wires (R265, R266)

Wires 0 to 55 are LV_IN, 56 + 2n is VA_n and 57 + 2n is VB_n. -/

abbrev wireA (n : Nat) : Nat := 56 + 2 * n
abbrev wireB (n : Nat) : Nat := 57 + 2 * n

/-- Line i is asserted low. -/
def State.lineLow (s : State) (i : Nat) : Bool :=
  if i < 32 then bit (s.reg fLevel 0x28) i else bit (s.reg fLevel 0x2C) (i - 32)

/-- Line i is enabled. -/
def State.lineOn (s : State) (i : Nat) : Bool :=
  if i < 32 then bit (s.reg fLevel 0x20) i else bit (s.reg fLevel 0x24) (i - 32)

/-- A wire is asserted at a pin level: VA high, VB low, a line by its polarity. -/
def State.assertedAt (s : State) (w : Nat) (high : Bool) : Bool :=
  if w < 56 then high != s.lineLow w else if w % 2 = 0 then high else !high

/-- The filter length of a wire. -/
def State.filterOf (s : State) (w : Nat) : Nat := if w < 56 then s.lineFilter else s.vaultFilter

/-- The synchronised sample of a wire at an edge. -/
def Wire.shown (w : Wire) (e : Nat) : Bool := lineLevel w.syn e

/-- The filter's value of a wire at an edge. -/
def Wire.filtered (w : Wire) (e : Nat) : Bool := lineLevel w.fil e

/-- The filtered value of line i at an edge: 0 while the line is not enabled. -/
def State.lineUp (s : State) (i e : Nat) : Bool := s.lineOn i && (s.wire i).filtered e

/-- What a filter of length f that stands at `cur` comes to over the runs of a sample, oldest first, but for the last. -/
def settles (f : Nat) : Bool → Line → Bool
  | cur, a :: b :: t => settles f (if a.2 != cur && decide (a.1 + f ≤ b.1) then a.2 else cur) (b :: t)
  | cur, _ => cur

/-- The filter's value when the newest run of the sample begins: its value now, with the earlier runs that reach F after its
last change. -/
def Wire.settled (w : Wire) (f : Nat) : Bool :=
  let done := match w.fil with
    | c :: _ => c.1 + 1
    | [] => 0
  settles f (lineNewest w.fil) (w.syn.filter fun c => decide (done ≤ c.1)).reverse

/-- A level captured at this edge shows from k + D − 1 on: a run that this change cuts short of the filter counts in GLITCH. -/
def State.capture (s : State) (wi : Nat) (high : Bool) : State :=
  let w := s.wire wi
  let v := s.assertedAt wi high
  let from_ := s.clock.edge + s.depth - 1
  let f := s.filterOf wi
  if v = lineNewest w.syn then s
  else
    let short := match w.syn with
      | c :: _ => c.2 != w.settled f && decide (from_ < c.1 + f)
      | [] => false
    let s := s.setWire wi { w with syn := noteChange w.syn (f + 8) from_ v }
    if short then s.event fLevel 3 142 else s

/-- Before READY nothing is sampled or filtered: the pin's level is what sampling begins with (R409). -/
def State.pinLevel (s : State) (wi : Nat) (high : Bool) : State :=
  s.setWire wi { s.wire wi with syn := if s.assertedAt wi high then [(s.clock.edge, true)] else [] }

/-- The filter takes a new value at this edge, if the sample has shown it for F consecutive edges. -/
def State.filterEdge (s : State) (wi : Nat) : Option State :=
  let w := s.wire wi
  let e := s.clock.edge
  let v := w.shown e
  if v ≠ lineNewest w.fil ∧ lineStart w.syn e + s.filterOf wi ≤ e + 1 then
    some (s.setWire wi { w with fil := noteChange w.fil 8 e v })
  else none

/-- A sample filtered afresh from an edge: the run that it shows there counts from there (R265, R421). -/
def Wire.afresh (w : Wire) (e : Nat) (flip : Bool) : Wire :=
  let later := w.syn.takeWhile fun c => decide (e < c.1)
  let past := w.syn.dropWhile fun c => decide (e < c.1)
  { w with syn := (later.map fun c => (c.1, c.2 != flip)) ++ (e, w.shown e != flip) :: past.take 1 }

/-- Every filter starts afresh at this edge (R265, R421). -/
def State.refilter (s : State) (ws : List Nat) : State :=
  ws.foldl (fun (s : State) i =>
    let w := s.wire i
    if w.syn.isEmpty then s else s.setWire i (w.afresh s.clock.edge false)) s

/-! ### Vault pairs (R267, R268) -/

def State.inService (s : State) (n : Nat) : Bool := rtEnable (s.route (64 + n))

/-- The filtered asserted states of a pair's wires at this edge. -/
def State.pairA (s : State) (n : Nat) : Bool := (s.wire (wireA n)).filtered s.clock.edge
def State.pairB (s : State) (n : Nat) : Bool := (s.wire (wireB n)).filtered s.clock.edge

/-- P_n as it now stands, and at an edge. -/
def Pair.p (p : Pair) : Bool := lineNewest p.pl
def Pair.pAtEdge (p : Pair) (e : Nat) : Bool := lineLevel p.pl e

/-- The edge of P_n's last change. -/
def Pair.pAt (p : Pair) : Nat :=
  match p.pl with
  | c :: _ => c.1
  | [] => 0

/-- The disagreement count after the edge before this one. -/
def Pair.count (p : Pair) (e : Nat) : Nat :=
  match p.since with
  | some k => min (e - k) 65535
  | none => 0

/-- DISC_LAST of a disagreement (R268). -/
def discWord (n length : Nat) (tamper firstB : Bool) : Word :=
  0x80000000#32 ||| flag32 30 tamper ||| flag32 29 firstB ||| at32 16 n ||| at32 0 (min length 0xFFFF)

/-- P_n takes a value at this edge; a rise counts in VAULT_ASSERT (R268, R283). -/
def State.setP (s : State) (n : Nat) (v : Bool) : State :=
  let p := s.pair n
  if p.p = v then s
  else
    let s := s.setPair n { p with pl := noteChange p.pl 8 s.clock.edge v }
    if v then s.count fLevel 5 else s

/-- A disagreement ends short of DISC. -/
def State.discShort (s : State) (n d : Nat) : State :=
  let w := discWord n d false (s.pair n).firstB
  { s.event fLevel 6 143 with levels.discLast := w }

/-- A pair computed anew at an edge at which one of its wires' filtered values, its service or DISC changed. Where d + 1 has
come to DISC, P_n stands as it is for the DISC_TAMPER of the edge. -/
def State.pairEdge (s : State) (n : Nat) : State :=
  let a := s.pairA n
  let b := s.pairB n
  let p := s.pair n
  let e := s.clock.edge
  if !s.inService n then (s.setPair n { p with since := none, tamper := false }).setP n (a && b)
  else if a = b then
    let d := p.count e
    let s := if 1 ≤ d ∧ !p.tamper then s.discShort n d else s
    (s.setPair n { p with since := none, tamper := false }).setP n a
  else
    let since := p.since.getD e
    let first := if p.since.isSome then p.firstB else b
    let reached := decide (s.discLimit ≤ e - since + 1)
    (s.setPair n { p with since := some since, firstB := first, tamper := p.tamper && reached }).setP n (p.p && reached)

/-- A pair is to be computed anew at an edge, once for all that changes there; `begins` says that its service begins then. -/
def State.pairDue (s : State) (n e : Nat) (begins : Bool) : State :=
  { s with levels.dirty := (s.levels.dirty.filter fun (d : Nat × Nat × Bool) => decide (d ≠ (n, e, begins))) ++ [(n, e, begins)] }

/-- The pairs whose wires, service or limit have changed by this edge, each computed from what stands now. P_n of a pair whose
service begins is taken from this edge on (R339). -/
def State.pairsNow (s : State) : State :=
  let due := s.levels.dirty.filter fun (d : Nat × Nat × Bool) => decide (d.2.1 ≤ s.clock.edge)
  let s := { s with levels.dirty := s.levels.dirty.filter fun (d : Nat × Nat × Bool) => decide (s.clock.edge < d.2.1) }
  due.foldl
    (fun (s : State) d =>
      let s := if d.2.2 && s.pairA d.1 == s.pairB d.1 then s else s.pairEdge d.1
      if d.2.2 && (s.pair d.1).p then s.setPair d.1 { s.pair d.1 with pl := [(s.clock.edge, true)], seen := false } else s) s

/-- DISC_TAMPER: the disagreement count reaches DISC. A count started from a standby latch ends short where the wires agree
by then (R279). -/
def State.discTamper (s : State) (n : Nat) : State :=
  let p := s.pair n
  match p.since with
  | some k =>
    if s.inService n ∧ !p.tamper ∧ s.discLimit ≤ s.clock.edge - k + 1 ∧ k ≤ s.clock.edge then
      if s.pairA n = s.pairB n then
        let s := s.discShort n (s.clock.edge - k)
        (s.setPair n { p with since := none }).setP n (s.pairA n)
      else
        let s := s.setPair n { p with tamper := true }
        let w := discWord n s.discLimit true p.firstB
        { (s.count fLevel 7).setP n true with levels.discLast := w }
    else s
  | none => s

/-! ### Zeroize latches (R270 to R273) -/

/-- ZEROIZE_REQ. -/
def State.zeroize (s : State) : Bool := decide (s.levels.islandA.z ||| s.levels.islandB.z ≠ 0#8)

/-- Z_n of either well. -/
def State.zLatched (s : State) (n : Nat) : Bool := bit (s.levels.islandA.z ||| s.levels.islandB.z) n

/-- The clocks run: neither well is in power-on reset. -/
def State.clocked (s : State) : Bool := !s.startup.inReset

/-- Latches set in the islands; a rise of ZEROIZE_REQ is counted while clocked. -/
def State.latchZ (s : State) (f : Island → Byte) : State :=
  let was := s.zeroize
  let s := s.modIslands fun i => { i with z := i.z ||| f i }
  if !was && s.zeroize && s.clocked then s.count fStandby 6 else s

/-- ZEROIZE_LATCH_SET: the asynchronous set of Z_n where ZEN_n is 1. -/
def State.asyncZ (s : State) (n : Nat) : State := s.latchZ fun i => i.zen &&& BitVec.ofNat 8 (2 ^ n)

/-- VAULT_SET: at an edge with P_n = 1 for a pair in service Z_n is set, and three edges after such an edge the INTID is
(R268, R270, R223). -/
def State.vaultSet (s : State) (n : Nat) : State :=
  let p := s.pair n
  let e := s.clock.edge
  if !s.sampled.inService n ∨ p.setAt = some e then s
  else
    let up := p.pAtEdge e
    let s := s.setPair n { p with setAt := some e, seen := p.seen || up }
    let s := if up then s.latchZ fun _ => BitVec.ofNat 8 (2 ^ n) else s
    if 3 ≤ e ∧ p.pAtEdge (e - 3) then s.pend (64 + n) (.level (lineStart p.pl (e - 3))) else s

/-! ### The sweep (R196, R274) -/

/-- Some pair in service is asserted at this edge. -/
def State.sweeping (s : State) : Bool := (List.range 8).any fun n => s.sampled.inService n && (s.pair n).pAtEdge s.clock.edge

/-- The route-enable words are cleared, and presentations that this makes untenable are withdrawn. -/
def State.clearHosts (s : State) : State := ((s.setReg fRoute 0x40 0#32).setReg fRoute 0x44 0#32).recheck

/-! ### Sets of level lines (R83, R233, R458) -/

/-- LEVEL_SET: three edges after an edge at which the line was filtered asserted, one set, or one record for its rise. The
mirrors are read as they stood before this edge (R22, R215). -/
def State.levelSet (s : State) (i : Nat) : State :=
  let w := s.wire i
  let e := s.clock.edge
  let last := look none s.levels.levelSetAt i
  if i ≥ 56 ∨ e < 3 ∨ last = some e ∨ !s.lineUp i (e - 3) then s
  else
    let rise := lineStart w.fil (e - 3)
    let fresh := match last with
      | some t => decide (t < rise + 3)
      | none => true
    let t := State.ftFix { s with levels.levelSetAt := ins none s.levels.levelSetAt i (some e) } false (72 + i)
    match s.sampled.mirrorCistern (72 + i) with
    | some c => if fresh then t.localOrDrop c (madeRec (72 + i) 0x0D 0) else t
    | none => t.pend (72 + i) (.level rise)

/-! ### Wires into lines and pairs -/

/-- LEVEL_INPUT_CHANGE. -/
def State.wireChange (s : State) (w : Nat) (high : Bool) : State :=
  if 72 ≤ w then s else if s.startup.ready then s.capture w high else s.pinLevel w high

/-- LEVEL_FILTER_EDGE: the filtered value changes; a line's rise counts, a vault wire's pair is computed anew when all that
changes at this edge has come. -/
def State.wireFilter (s : State) (w : Nat) : State :=
  if 72 ≤ w then s else
  match s.filterEdge w with
  | none => s
  | some s =>
    if w < 56 then if s.lineUp w s.clock.edge then s.count fLevel 4 else s
    else s.pairDue ((w - 56) / 2) s.clock.edge false

/-- A write of LV_EN or LV_POL takes effect: lines newly enabled show their filter from this edge, lines whose polarity
changed are filtered afresh (R265). `on` and `low` are the settings before it. -/
def State.linesChanged (s : State) (on low : Nat → Bool) : State :=
  (List.range 56).foldl
    (fun (s : State) i =>
      let w := s.wire i
      let s :=
        if low i != s.lineLow i then s.setWire i (w.afresh s.clock.edge true) else s
      let w := s.wire i
      if s.lineOn i && !on i && !w.fil.isEmpty then
        let up := w.filtered s.clock.edge
        let s := s.setWire i { w with fil := if up then [(s.clock.edge, true)] else [] }
        if up then s.count fLevel 4 else s
      else s) s

/-- A trim in force has changed: inputs are filtered afresh where depth or filter length changed, and every disagreement
is compared with the new limit (R421). -/
def State.trimsChanged (s : State) (depth lf vf : Nat) : State :=
  let lines := decide (depth ≠ s.depth) || decide (lf ≠ s.lineFilter)
  let wires := decide (depth ≠ s.depth) || decide (vf ≠ s.vaultFilter)
  let s := if lines then s.refilter (List.range 56) else s
  let s := if wires then s.refilter ((List.range 16).map fun i => 56 + i) else s
  (List.range 8).foldl (fun (s : State) n => if (s.pair n).since.isSome then s.pairEdge n else s) s

/-! ### Standby latches (R277, R278) -/

/-- A standby latch set in each well's island. -/
def State.stbyLatch (s : State) (src : StbySource) : State :=
  match src with
  | .zeroize n => s.latchZ fun i => if i.standby then i.zen &&& BitVec.ofNat 8 (2 ^ n.toNat) else 0#8
  | .discrepancy n =>
    s.modIslands fun i => if i.standby then { i with q := i.q ||| (i.zen &&& BitVec.ofNat 8 (2 ^ n.toNat)) } else i
  | .level l => s.modIslands fun i =>
      if i.standby then { i with levels := i.levels ||| (i.lvEn &&& i.wakeMask &&& BitVec.ofNat 56 (2 ^ l.toNat)) } else i
  | .wake => s.modIslands fun i => if i.standby then { i with wake := true } else i

/-- A wake source is latched in an island. -/
def Island.wakes (i : Island) : Bool :=
  i.wake || decide (i.z ≠ 0#8) || decide (i.q ≠ 0#8) || decide (i.levels ≠ 0#56)

/-- HEALTH.WAKE_PEND. -/
def State.wakePend (s : State) : Bool :=
  (s.levels.islandA.standby && s.levels.islandA.wakes) || (s.levels.islandB.standby && s.levels.islandB.wakes)

/-- ZEN_n of both islands. -/
def State.setZen (s : State) (n : Nat) (v : Bool) : State :=
  s.modIslands fun i => { i with zen := setBit i.zen n v }

/-! ### Cores (R103) -/

/-- CORE_SLEEP_SEEN. -/
def State.sleepSeen (s : State) (n : Nat) : State :=
  if (s.core n).asleep then s
  else ((s.modCore n fun c => { c with asleep := true }).withdrawN n).withdrawF n

/-- CORE_WAKE_SEEN: rounds for the core may be held from the next edge (R105). -/
def State.wakeSeen (s : State) (n : Nat) : State :=
  if !(s.core n).asleep then s
  else s.modCore n fun c =>
    { c with asleep := false, fromN := max c.fromN (s.clock.dp + 1), fromF := max c.fromF (s.clock.dp + 1) }

end Sys2Proof.Machine
end

