-- ==== Sys2Proof/Machine/Flags.lean ====
section
/-! DEFINITION. The status words: each bit follows its cause (R43). -/

namespace Sys2Proof.Machine

/-! ### HEALTH (R280, R281) -/

/-- The mirror is paired and trusted. -/
def State.mirrorOk (s : State) : Bool := s.startup.ready && s.paired

/-- HEALTH.READY: from READY until the next reset or standby entry. -/
def State.healthReady (s : State) : Bool := s.startup.ready && !s.levels.islandA.standby && !s.levels.islandB.standby

/-- HEALTH.SLOW_STALL (R48). -/
def State.slowStall (s : State) : Bool := decide (s.clock.refreshedAt + 2000000 < s.clock.edge)

/-- P_n of every pair, as a bit per pair. -/
def State.vaultNow (s : State) : Nat :=
  (List.range 8).foldl (fun m n => if (s.pair n).p then m + 2 ^ n else m) 0

/-- The bits that follow their causes asynchronously, in standby and in reset too. -/
def State.healthLive (s : State) : Word :=
  flag32 30 (s.levels.islandA.standby || s.levels.islandB.standby) ||| flag32 28 s.wakePend |||
    flag32 23 s.zeroize ||| at32 0 (s.levels.islandA.z ||| s.levels.islandB.z).toNat

/-- Delivery outputs are frozen by a failover: from f to r, and for as long as neither well is healthy (R364). -/
def State.frozenOut (s : State) : Bool := s.twin.failover.isSome || (s.twin.fabricFault && s.startup.ready)

/-- The bits of HEALTH that are driven by clocked logic. -/
def State.healthClocked (s : State) : Word :=
  flag32 31 s.healthReady ||| flag32 29 s.levels.stbyOk ||| flag32 27 s.twin.leadB ||| flag32 26 s.mirrorOk |||
    flag32 25 s.frozenOut ||| flag32 24 s.twin.fabricFault |||
    flag32 22 s.slowStall ||| flag32 21 (s.keeper.held || s.keeper.restarting) ||| flag32 20 s.anyMarg |||
    flag32 19 (!s.levels.rndHealth) ||| flag32 18 s.pump.spill.dead |||
    flag32 17 (!s.lead.poison.isEmpty) ||| at32 8 s.vaultNow

/-- The bits of the HEALTH mirror that hold their last clocked value while nothing is clocked. -/
abbrev healthHeld : Word := 0x2F7EFF00#32

/-- HEALTH[31:0] at the boundary: the lead's register, or, in power-on reset, the mirror of the well that last led. -/
def State.health (s : State) : Word :=
  if s.startup.inReset then ((s.island s.twin.leadB).health &&& healthHeld) ||| s.healthLive
  else s.healthClocked ||| s.healthLive

/-- A well's FAULT driver while clocked: before READY high once the well has failed a step, or with both (R408); from READY
on high in a well held in well reset, and in a running well while it has no mirror or FABRIC_FAULT is 1 (R368). -/
def State.faultDriver (s : State) (b : Bool) : Bool :=
  let w := s.well b
  if s.startup.ready then w.power && (w.held || !s.mirrorOk || s.twin.fabricFault)
  else decide (w.failed ≠ 0) || s.twin.fabricFault

/-- The boundary FAULT, the OR of both drivers (R18); in power-on reset 0, in standby its last clocked value (R441). -/
def State.faultOut (s : State) : Bool :=
  if s.startup.inReset then s.levels.islandA.standby && s.levels.islandA.fault
  else s.faultDriver false || s.faultDriver true

/-- The HEALTH mirrors, and FAULT's output cell, take the last clocked value. -/
def State.mirrorHealth (s : State) : State :=
  let h := s.health
  let f := s.faultOut
  s.modIslands fun i => { i with health := h, fault := f }

/-! ### Level and standby pages (R282 to R286) -/

/-- A word of 32 lines from a predicate; lines above 55 read 0. -/
def lineWord (f : Nat → Bool) (hi : Bool) : Word :=
  (List.range 32).foldl
    (fun (w : Word) i =>
      let l := if hi then 32 + i else i
      if l < 56 ∧ f l then w ||| at32 i 1 else w) 0#32

/-- LV_SYNC: nothing is sampled before READY (R409). -/
def State.lvSync (s : State) (hi : Bool) : Word :=
  if s.startup.ready then lineWord (fun i => (s.wire i).shown s.clock.edge) hi else 0#32
def State.lvFilt (s : State) (hi : Bool) : Word := lineWord (fun i => s.lineUp i s.clock.edge) hi

/-- VAULT_STAT. -/
def State.vaultStat (s : State) : Word :=
  (List.range 8).foldl
    (fun (w : Word) n =>
      let a := s.pairA n
      let b := s.pairB n
      w ||| flag32 (4 * n) a ||| flag32 (4 * n + 1) b ||| flag32 (4 * n + 2) (s.pair n).p ||| flag32 (4 * n + 3) (a != b))
    0#32

/-- TRIM_INFORCE. -/
def State.trimInforce (s : State) : Word :=
  at32 24 (s.trim 3 % 256) ||| at32 16 (s.trim 4 % 256) ||| at32 0 (s.trim 5 % 65536)

/-- ZSTAT of the lead well. -/
def State.zstat (s : State) : Word :=
  let i := s.island s.twin.leadB
  at32 16 i.zen.toNat ||| at32 8 i.q.toNat ||| at32 0 i.z.toNat

/-! ### Ingress ports and the gate (R141, R143) -/

/-- PORT_STAT. -/
def State.portStat (s : State) (p : Nat) : Word :=
  let x := s.port p
  let fenced := match x.normal with
    | d :: _ => dbFence d.data
    | [] => false
  at32 24 (min x.awaiting.length 127) ||| at32 16 x.normal.length ||| at32 8 x.fast.length ||| flag32 3 fenced |||
    flag32 2 (x.isMasked && !(x.normal.isEmpty && x.fast.isEmpty)) ||| flag32 1 x.isMasked ||| flag32 0 x.pwrOk

/-- SHADOW_STAT. -/
def State.shadowStat (s : State) : Word := flag32 8 (decide (16 ≤ s.shadowUsed)) ||| at32 0 s.shadowUsed

/-- A doorbell accepted before the host's last change of selection is not settled (R136). -/
def State.oldInUse (s : State) (h : Nat) : Bool :=
  s.ports.any fun p => p.2.unsettled.any fun (u : Unsettled) => u.olds.contains h

/-- HOST_STAT. -/
def State.hostStat (s : State) (h : Nat) : Word :=
  flag32 8 (s.hostEnabled h) ||| flag32 1 (s.oldInUse h) ||| flag32 0 (bit s.gate.setB h)

/-! ### Route page (R168 to R173) -/

/-- HASH_STAT. -/
def State.hashStat (s : State) (rights : Bool) : Word :=
  let h := s.hash rights
  flag32 31 h.migActive ||| flag32 30 h.reqPend ||| flag32 29 (s.startup.ready && !s.spaced h) ||| flag32 28 h.sel |||
    at32 16 h.migRow ||| at32 0 h.gen.toNat

/-- A slow-domain copy: the age of the refresh and a saturating count of SCLK edges. -/
def State.slowCopy (s : State) (n : Nat) : Word := at32 28 (s.clock.sclkCount.toNat % 16) ||| at32 0 (min n 0xFFFFFFF)

/-! ### Sluice (R207 to R210) -/

/-- WINDOW_STAT. -/
def State.windowStat (s : State) : Word :=
  if s.startup.ready then at32 0 (min (s.clock.dp - s.sluice.targetLast) 0x1FFFF) else 0#32

/-- HOLD_LEFT of a group. -/
def State.holdLeft (s : State) (g : Nat) : Nat :=
  let x := s.group g
  if x.heldAt s.clock.dp then (x.holdEnd - s.clock.dp + 63) / 64 else 0

def State.grpCfg (s : State) (g : Nat) : Word :=
  at32 8 (s.group g).owner.toNat ||| at32 0 (s.group g).weight.toNat
def State.grpHold (s : State) (g : Nat) : Word :=
  at32 16 (s.holdLeft g) ||| at32 0 (s.group g).interval.toNat
def State.grpLive (s : State) (g : Nat) : Word :=
  at32 16 (s.group g).credit ||| at32 12 (s.group g).age ||| at32 0 (s.group g).wait
def State.grpStat (s : State) (g : Nat) : Word :=
  let x := s.group g
  let on := s.eligibleSomewhere g s.clock.dp
  flag32 31 (decide (waitLimit (s.reg fSluice 0x20) ≤ x.wait)) ||| flag32 30 (x.heldAt s.clock.dp) ||| flag32 29 on |||
    flag32 28 (x.used || on) ||| at32 0 x.next

/-! ### Fast lane (R229) -/

/-- FL_CORE_STAT. -/
def State.flCoreStat (s : State) : Word :=
  let n := bits (s.reg fFast 0x38) 7 0
  let awake := s.awake n && !s.maskF n && (s.core n).actF.isNone && (s.seenF n).isNone
  let picked := match (s.core n).presF with
    | some p => if s.clock.dp ≤ p.loadAt && (s.int p.intid).pending && s.isFast p.intid && s.enabled p.intid &&
        decide (s.targetOf p.intid = some n) then 1 else 0
    | none => 0
  flag32 31 awake ||| at32 16 (min ((s.candsF n s.clock.dp).length + picked) 4096) ||| at32 0 (s.core n).fptr

/-! ### Reservoir (R93, R109) -/

def slotWord (x : Option Slot) : Word :=
  match x with
  | none => 0x80000000#32
  | some p => flag32 30 p.dup ||| at32 0 (intidOf p.intid)

def State.actWord (s : State) (x : Option ActSlot) : Word :=
  match x with
  | none => 0#32
  | some a => 0x80000000#32 ||| flag32 30 a.dup ||| flag32 29 (s.int a.intid).pending ||| at32 0 (intidOf a.intid)

/-- CORE_STAT. -/
def State.coreStat (s : State) (n : Nat) : Word :=
  let c := s.core n
  flag32 8 c.asleep ||| flag32 5 c.wake ||| flag32 4 (s.seenF n).isSome ||| flag32 3 (s.seenN n).isSome |||
    flag32 1 c.actF.isSome ||| flag32 0 c.actN.isSome

/-- PRIV_PEND of a core. -/
def State.privPend (s : State) (n : Nat) (hi : Bool) : Word :=
  (List.range 32).foldl
    (fun (w : Word) i =>
      if (s.int (privKey n (if hi then 32 + i else i))).pending then w ||| at32 i 1 else w) 0#32

/-- The INTID that QUERY names. -/
def State.queryKey (s : State) : Nat :=
  let q := s.reg fReservoir 0x20
  keyOn (bits q 25 18) (bits q 16 0)

/-- A loaded presentation slot holds a key (R109, R193). -/
def State.shown (s : State) (key : Nat) : Bool :=
  let holds (x : Option Slot) : Bool := (x.map fun p => decide (p.intid = key)).getD false
  s.cores.any fun c => holds (s.seenN c.1) || holds (s.seenF c.1)

/-- QUERY_STATE. -/
def State.queryState (s : State) : Word :=
  let k := s.queryKey
  let x := s.int k
  let line := if isPrivate k then false
    else if k < 72 then (s.pair (k - 64)).p else if k < 128 then s.lineUp (k - 72) s.clock.edge else false
  let cistern := !isPrivate k && rtMode (s.route k)
  at32 12 (if x.active then (s.holder k).getD 0 else 0) ||| flag32 8 line ||| flag32 7 cistern |||
    flag32 6 (s.enabled k) ||| flag32 5 (s.isFast k) ||| flag32 4 (s.shown k) ||| flag32 1 x.active ||| flag32 0 x.pending

/-! ### Pump and outbound port (R260, R263) -/

/-- SPILL_STAT. -/
def State.spillStat (s : State) : Word :=
  let l := s.spillLog
  let fill := s.spillFill
  let mark := bits s.spillCtrl 23 20 * 2 ^ (l - 4)
  let ok := decide (4 ≤ l) && decide (l ≤ 20)
  flag32 31 s.pump.spill.dead ||| flag32 30 (ok && decide (2 ^ l ≤ fill)) |||
    flag32 29 (ok && decide (mark ≠ 0) && decide (mark ≤ fill)) ||| at32 0 (min fill 0x1FFFFF)

/-- The cache entry of the cistern that C_SEL names. -/
def State.selected (s : State) : Option Cached :=
  let c := bits (s.reg fPump 0x44) 14 0
  if c = 0 then none else s.cached c

def isOpen (x : Cached) : Bool := decide (x.st = .opened) && !x.closing

def brokenReason (x : Cached) : Option (BitVec 6) :=
  match x.st with
  | .broken r => some r
  | _ => none

def State.cStat (s : State) : Word :=
  match s.selected with
  | none => 0#32
  | some x =>
    0x80000000#32 ||| flag32 30 (isOpen x) ||| flag32 29 (brokenReason x).isSome ||| flag32 28 x.floatUp |||
      flag32 27 x.held.isSome ||| flag32 26 x.pinned ||| at32 0 (min x.fill 0x1FFFFF)

def State.cInfo (s : State) : Word :=
  match s.selected with
  | none => 0#32
  | some x => at32 26 ((brokenReason x).getD 0#6).toNat ||| at32 0 x.cross.toNat

def State.cTotal (s : State) : Word :=
  match s.selected with
  | none => 0#32
  | some x => x.total

/-- OUT_STAT: the accesses that hold a place against the limits of R254 (R456). -/
def State.outStat (s : State) : Word :=
  let taken := s.pump.issued.filter fun a => a.takenAt.isSome
  let rd := taken.filter fun a => a.req.kind.isRead
  let wr := taken.filter fun a => a.req.kind.isLine || (a.req.kind.isStaging && !a.req.kind.isRead)
  at32 16 (min rd.length 64) ||| at32 0 (min wr.length 256)

/-! ### Keeper page (R321 to R324) -/

def State.keepStat (s : State) : Word :=
  let k := s.keeper
  let recent := (k.expiries.filter fun t => !s.slowRan t Config.second).length
  let cur := match k.run with
    | some r => flag32 28 true ||| at32 16 r.cmd.host ||| at32 0 r.cmd.opcode.toNat
    | none => 0#32
  flag32 31 k.held ||| flag32 30 k.restarting ||| flag32 29 s.engineBusy ||| at32 26 (min recent 3) ||| cur |||
    at32 8 (min k.engine.length 255)

def keepVersion : Word := 0x01000000#32 ||| at32 0 Config.romPatch.toNat

def MbState.code : MbState → Nat
  | .idle => 0
  | .queued => 1
  | .running => 2
  | .done => 3

/-- MB_STATE of mailbox n. -/
def State.mbState (s : State) (n : Nat) : Word :=
  at32 24 (s.box n).opcode.toNat ||| at32 16 (s.box n).st.code ||| at32 0 (s.box n).seq.toNat

/-! ### Twin page (R380 to R382) -/

def PairState.code : PairState → Nat
  | .paired => 0
  | .divergent => 1
  | .repairing => 2
  | .untrusted => 3
  | .absent => 4

def State.twinStat (s : State) : Word :=
  let t := s.twin
  let up := match s.mirror.validAt with
    | some e => decide (s.clock.edge ≤ e + 1024)
    | none => false
  at32 28 t.pair.code ||| flag32 27 t.leadB ||| flag32 26 s.frozenOut ||| flag32 25 t.untrusted |||
    flag32 24 up ||| flag32 23 t.swapPend.isSome ||| flag32 22 t.repair.isSome ||| flag32 21 t.wellA.held |||
    flag32 20 t.wellB.held

def State.repairStat (s : State) : Word :=
  let ph := match s.twin.repair with
    | some r => if r.phase = 1 then 1 else if r.phase ≤ 3 then 2 else 3
    | none => 0
  let chunks := match s.twin.repair with
    | some r => min r.opened 0x3FF
    | none => 0
  at32 30 (min s.twin.retries 3) ||| at32 28 ph ||| at32 16 chunks ||| at32 0 s.twin.failCause

/-! ### Integrity page (R400, R401) -/

def State.strengthStat (s : State) : Word :=
  (List.range 7).foldl (fun (w : Word) i => w ||| at32 (4 * i) (s.strengthOf i)) 0#32

def State.reStat (s : State) : Word :=
  match s.integrity.journal with
  | none => 0#32
  | some j => 0x80000000#32 ||| at32 28 j.store ||| at32 24 j.oldT ||| at32 20 j.newT ||| at32 0 j.next

def State.scrubPos (s : State) : Word :=
  let st := bits (s.reg fIntegrity 0x2C) 2 0
  let w := look Walker.reset s.integrity.walkers st
  let owned := match s.integrity.pass with
    | some p => decide (p.stores.head? = some st)
    | none => false
  if st = 7 then 0#32 else flag32 31 owned ||| at32 16 w.passes.toNat ||| at32 0 w.next

/-- The poisoned pages of a store in the lead. -/
def State.poisonCount (s : State) (store : Nat) : Nat :=
  (s.lead.poison.filter fun e => decide (e.1 / 65536 = store)).length

def State.poisonRead (s : State) : Word :=
  let sel := s.reg fIntegrity 0x3C
  let st := bits (s.reg fIntegrity 0x2C) 2 0
  flag32 31 (s.poisoned (bits sel 18 16) (bits sel 15 0)) |||
    at32 0 (if st = 7 then 0 else min (s.poisonCount st) 0xFFFF)

/-! ### Fuses, lifecycle, start-up (R421 to R431) -/

/-- A re-sense runs: the scheduled one, or FUSE_RESENSE's (R350). -/
def State.resenseRuns (s : State) : Bool :=
  s.fuses.resensing || match s.keeper.run with
    | some r => decide (r.cmd.opcode = 0xF2#8) && decide (r.phase = .waiting)
    | none => false

/-- FUSE_STAT. -/
def State.fuseStat (s : State) : Word :=
  let vd := (List.range 8).foldl (fun m n => if s.fuseMarginal (fwVault n) then m + 2 ^ n else m) 0
  flag32 31 s.resenseRuns ||| flag32 30 s.idMarg ||| flag32 29 s.stateMarg ||| flag32 28 s.sealMarg ||| at32 8 vd

def State.trimStat (s : State) : Word :=
  let set (f : Nat → Bool) : Nat := (List.range 6).foldl (fun m k => if f k then m + 2 ^ k else m) 0
  at32 24 (set s.trimUser) ||| at32 16 (set s.trimRom) ||| flag32 2 (decide (s.depth = 3)) ||| at32 0 (s.trim 0 % 4)

def State.lcStat (s : State) : Word :=
  at32 24 s.lifecycle ||| flag32 23 s.factoryClean ||| flag32 22 s.levels.presence ||| flag32 21 s.tapOpen |||
    flag32 20 s.keeper.staged.isSome ||| at32 8 s.userEpoch ||| at32 0 s.epochShadow

end Sys2Proof.Machine
end

