-- ==== Sys2Proof/Machine/RegRead.lean ====
section
/-! DEFINITION. What a read of each register gives, side effects apart (R41 to R56, R93, R141 to R145, R168, R207, R229, R260, R263, R282, R285, R322, R380, R400, R428 to R431). -/

namespace Sys2Proof.Machine

/-! ### The common header (R42) -/

/-- Some counter of a frame has OVF set. -/
def State.anyOvf (s : State) (f : Nat) : Bool :=
  (List.range (ncnt f)).any fun i => (s.counter (ckey f i)).ovf

/-- The arm of a frame counts as open until its 65th ICLK edge (R57). -/
def State.openArm (s : State) (f : Nat) : Option Arm :=
  (s.arm f).filter fun a => decide (s.clock.edge < a.edge + 65 * Config.iclk)

/-- ARM_LEFT at this edge. -/
def State.armLeft (s : State) (a : Arm) : Nat := 65 - (s.clock.edge - a.edge) / Config.iclk

def State.guardStat (s : State) (f : Nat) : Word :=
  match s.openArm f with
  | none => 0#32
  | some a => 0x80000000#32 ||| at32 24 a.host.toNat ||| at32 16 (s.armLeft a) ||| at32 0 a.offset

def State.pageStat (s : State) (f : Nat) : Word :=
  flag32 4 (!s.startup.ready) ||| flag32 3 (decide (f = fFuse) && s.clock.slowPend) ||| flag32 2 (s.anyOvf f) |||
    flag32 1 (decide (s.lock f ≠ 0#32)) ||| flag32 0 (s.openArm f).isSome

/-- A header register. -/
def State.readHeader (s : State) (f o : Nat) : Word :=
  if o = 0x00 then pageId f
  else if o = 0x04 then 0x01000000#32 ||| flag32 8 s.twin.leadB
  else if o = 0x08 then pageCap f
  else if o = 0x0C then s.pageStat f
  else if o = 0x10 then s.lock f
  else if o = 0x14 then s.guardStat f
  else if o = 0x18 then s.front.snapSeq
  else if o = 0x1C then s.fault f
  else 0#32

/-! ### Counters (R50, R51, R55) -/

/-- The high word's latch of a counter. -/
def Counter.hiWord (c : Counter) : Word := flag32 31 c.latchOvf ||| at32 0 c.latchHi.toNat

/-- A live counter word; the low word's read also loads the latch. -/
def State.readCounter (s : State) (f o : Nat) : Word :=
  let i := (o - 0x400) / 8
  let c := s.counter (ckey f i)
  if ncnt f ≤ i then 0#32 else if o % 8 = 0 then c.count.setWidth 32 else c.hiWord

/-- A snapshot holding word. -/
def State.readHeld (s : State) (f o : Nat) : Word :=
  let i := (o - 0x600) / 8
  let c := s.counter (ckey f i)
  if ncnt f ≤ i then 0#32
  else if o % 8 = 0 then c.heldCount.setWidth 32
  else flag32 31 c.heldOvf ||| (c.heldCount >>> 32).setWidth 32

/-- The latch of a counter loaded with the rest of the count from before this edge (R51, R54). -/
def State.latchCounter (s : State) (f i : Nat) : State :=
  if ncnt f ≤ i then s else
  let c := s.sampled.counter (ckey f i)
  s.setCounter (ckey f i) { s.counter (ckey f i) with latchHi := (c.count >>> 32).setWidth 16, latchOvf := c.ovf }

/-! ### RWG registers (R57, R61) -/

/-- The committed value of an RWG register. -/
def State.readRwg (s : State) (f o : Nat) : Word :=
  if isHostFrame f then flag32 0 (bit s.gate.setB (f - 0x40))
  else
    let c := s.core (f - 0x80)
    if o = 0x40 then at32 0 c.mask.toNat
    else if o = 0x60 then loWord c.privClass
    else if o = 0x64 then hiWord c.privClass
    else 0#32

/-! ### Pages -/

def State.readPort (s : State) (p o : Nat) : Word :=
  if o = 0x2C then s.portStat p else if o = 0x38 then (s.port p).errRid
  else if o = 0x3C then (s.port p).errInfo ||| at32 24 p else 0#32

def State.readHost (s : State) (h o : Nat) : Word :=
  if o = 0x24 then s.hostStat h else if o = 0x28 then look 0#32 s.gate.faultRid h
  else if o = 0x2C then look 0#32 s.gate.faultInfo h else 0#32

def State.readCore (s : State) (n o : Nat) : Word :=
  let c := s.core n
  if o = 0x20 ∨ o = 0x24 then slotWord (s.seenN n)
  else if o = 0x30 ∨ o = 0x34 then slotWord (s.seenF n)
  else if o = 0x2C then s.actWord c.actN else if o = 0x3C then s.actWord c.actF
  else if o = 0x44 then s.coreStat n
  else if o = 0x50 then loWord c.privEn else if o = 0x54 then hiWord c.privEn
  else if o = 0x58 then s.privPend n false else if o = 0x5C then s.privPend n true
  else 0#32

def State.readRoute (s : State) (o : Nat) : Word :=
  if o = 0x28 then s.hashStat false else if o = 0x2C then s.hashStat true
  else if o = 0x30 then s.routes.rt.monLast else if o = 0x34 then s.routes.rg.monLast
  else if o = 0x38 then s.clock.rekeyAgeRt else if o = 0x3C then s.clock.rekeyAgeRg else 0#32

def State.readFast (s : State) (o : Nat) : Word :=
  if o = 0x28 then s.fast (bits (s.reg fFast 0x24) 11 0) else if o = 0x2C then s.routes.ftVoteLast
  else if o = 0x30 then s.routes.latLast else if o = 0x3C then s.flCoreStat else 0#32

def State.readSluice (s : State) (o : Nat) : Word :=
  if o = 0x40 then s.windowStat else if o = 0x44 then s.sluice.lockLast else 0#32

/-- Group registers of group page k (R209). -/
def State.readGroup (s : State) (k o : Nat) : Word :=
  if o < 0x800 then 0#32 else
  let g := 128 * k + (o - 0x800) / 16
  if o % 16 = 0 then s.grpCfg g else if o % 16 = 4 then s.grpHold g
  else if o % 16 = 8 then s.grpLive g else s.grpStat g

def State.readPump (s : State) (o : Nat) : Word :=
  if o = 0x3C then s.spillStat else if o = 0x40 then s.pump.spill.total
  else if o = 0x48 then s.cStat else if o = 0x4C then s.cInfo else if o = 0x50 then s.cTotal
  else if o = 0x54 then s.pump.walkLast else 0#32

def State.readLevel (s : State) (o : Nat) : Word :=
  if o = 0x30 then s.lvSync false else if o = 0x34 then s.lvSync true
  else if o = 0x38 then s.lvFilt false else if o = 0x3C then s.lvFilt true
  else if o = 0x40 then s.vaultStat else if o = 0x44 then s.trimInforce
  else if o = 0x48 then s.levels.discLast else 0#32

def State.readStandby (s : State) (o : Nat) : Word :=
  if o = 0x28 then s.health else if o = 0x2C then s.zstat else if o = 0x30 then s.levels.wakeCause else 0#32

def State.readKeeper (s : State) (o : Nat) : Word :=
  if o = 0x20 then s.keepStat else if o = 0x24 then keepVersion else if o = 0x2C then s.keeper.intLast
  else if 0x900 ≤ o ∧ o < 0xA00 then s.mbState ((o - 0x900) / 4) else 0#32

def State.readTwin (s : State) (o : Nat) : Word :=
  if o = 0x24 then s.twinStat else if o = 0x28 then s.twin.lastEvent else if o = 0x2C then s.repairStat
  else if o = 0x30 then loWord s.twin.lastCompare else if o = 0x34 then hiWord s.twin.lastCompare else 0#32

def State.readIntegrity (s : State) (o : Nat) : Word :=
  if o = 0x24 then s.strengthStat else if o = 0x28 then s.reStat else if o = 0x30 then s.scrubPos
  else if o = 0x34 then s.integrity.errLast else if o = 0x38 then s.lead.uncorrLast
  else if o = 0x40 then s.poisonRead else 0#32

def State.readFuse (s : State) (o : Nat) : Word :=
  if o = 0x20 then s.fuseStat else if o = 0x2C then s.trimStat
  else if o = 0x30 then at32 0 s.clock.dcStaged.toNat
  else if o = 0x34 then s.clock.resenseAge else 0#32

/-- A register without a stored value, in its frame. -/
def State.readStatus (s : State) (f o : Nat) : Word :=
  if isCoreFrame f then s.readCore (f - 0x80) o
  else if isHostFrame f then s.readHost (f - 0x40) o
  else if f = 0 then if o = 0x20 then s.clock.sclkCount else 0#32
  else if f = 1 then if o = 0x20 then s.startup.startStat else 0#32
  else if f < 0x12 then s.readPort (f - 2) o
  else if f = fGate then if o = 0x20 then s.shadowStat else 0#32
  else if f = fRoute then s.readRoute o
  else if f = fReservoir then if o = 0x24 then s.queryState else 0#32
  else if f = fFast then s.readFast o
  else if f = fSluice then s.readSluice o
  else if f < fPump then s.readGroup (f - 0x17) o
  else if f = fPump then s.readPump o
  else if f = fLevel then s.readLevel o
  else if f = fStandby then s.readStandby o
  else if f = fKeeper then s.readKeeper o
  else if f = fTwin then s.readTwin o
  else if f = fIntegrity then s.readIntegrity o
  else if f = fFuse then s.readFuse o
  else if f = fOut then if o = 0x28 then s.outStat else 0#32
  else if f = fLife then
    if o = 0x20 then s.lcStat else if o = 0x24 then s.startup.imageLast else 0#32
  else 0#32

/-- The registers whose value stands elsewhere than in the register table. -/
def elsewhere (f o : Nat) : Bool :=
  isCoreFrame f || (decide (fGroup 0 ≤ f) && decide (f < fPump) && decide (0x800 ≤ o)) ||
    (decide (f = fFuse) && decide (o = 0x30))

/-- The register at a word-aligned offset of a frame, as a read at this edge returns it (R38, R41). -/
def State.readReg (s : State) (f o : Nat) : Word :=
  if o < 0x20 then s.readHeader f o
  else if 0x400 ≤ o ∧ o < 0x600 then s.readCounter f o
  else if 0x600 ≤ o ∧ o < 0x800 then s.readHeld f o
  else if (rwgMask f o).isSome then s.readRwg f o
  else if 0x800 ≤ o && (rwgMask f (o - 0x800)).isSome then ~~~(s.readRwg f (o - 0x800))
  else if (regInfo f o).isSome && !elsewhere f o then s.reg f o
  else s.readStatus f o

end Sys2Proof.Machine
end

