-- ==== Sys2Proof/Machine/Access.lean ====
section
/-! DEFINITION. Register accesses at the ordering point: gates, refusals, locks, guards, views, and the registers with effects of their own (R33 to R73, R86 to R102, R136, R140, R170, R289, R290). -/

namespace Sys2Proof.Machine

/-! ### Refusals (R37, R42, R454) -/

/-- The reasons of PAGE_FAULT. -/
abbrev rsLocked : Nat := 1
abbrev rsWriteOnce : Nat := 2
abbrev rsMismatch : Nat := 3
abbrev rsTimeout : Nat := 4
abbrev rsOrder : Nat := 5
abbrev rsForm : Nat := 6
abbrev rsDenied : Nat := 7
abbrev rsWidth : Nat := 8
abbrev rsWindow : Nat := 9
abbrev rsUncorr : Nat := 10

/-- The frame in which a refusal at a place is recorded: windows have none of their own. -/
def Place.page : Place → Nat
  | .frame f _ _ => f
  | _ => fBlock

def Place.view : Place → Nat
  | .frame _ v _ => v
  | _ => 0

def Place.offset : Place → Nat
  | .frame _ _ o => o
  | .mailbox _ o => o % 4096
  | .window _ o => o % 4096
  | .unmapped => 0

/-- The word PAGE_FAULT takes. -/
def faultWord (reason view offset : Nat) (read : Bool) (host : HostId) : Word :=
  at32 28 reason ||| at32 26 view ||| flag32 25 read ||| at32 18 host.toNat ||| at32 0 offset

/-- The counter kind of a reason: 0 lock violation, 1 guard fault, 2 access fault; none for UNCORRECTABLE. -/
def reasonKind (reason : Nat) : Option Nat :=
  if reason = rsUncorr then none
  else if reason = rsDenied ∨ reason = rsWidth then some 2
  else if reason = rsLocked ∨ reason = rsWriteOnce ∨ reason = rsWindow then some 0
  else some 1

/-- A fault recorded on a page and counted: the page's counter, the well total and the fabric event. -/
def State.recordPage (s : State) (f reason : Nat) (w : Word) : State :=
  let s := s.setFault f w
  match reasonKind reason with
  | none => s
  | some k => ((s.count f k).count fBlock (3 + k)).raise (128 + k)

/-- What one half of an access did. -/
structure HalfResult where
  s : State
  code : Code
  data : Word

def ok (s : State) (w : Word) : HalfResult := { s := s, code := .ok, data := w }

/-- A half refused at a byte offset of the block. -/
def State.refuse (s : State) (a : Access) (byte reason : Nat) : HalfResult :=
  let p := placeOf byte
  { s := s.recordPage p.page reason (faultWord reason p.view p.offset (!a.write) a.host), code := .refused, data := 0#32 }

/-! ### The page access gate (R139, R140) -/

/-- A bit of a pair of host words. -/
def hostBit (lo hi : Word) (h : Nat) : Bool := if h < 32 then bit lo h else bit hi (h - 32)

/-- Host h is admitted to core n's page. -/
def State.coreAdmits (s : State) (n h : Nat) : Bool :=
  let w := s.reg fGate (0xC80 + 4 * (n / 2))
  let sh := if n % 2 = 0 then 0 else 16
  decide (h = 0) || (bit w (15 + sh) && decide (bits w (13 + sh) (8 + sh) = h)) ||
    (bit w (7 + sh) && decide (bits w (5 + sh) sh = h))

/-- Host h is admitted to global frame k. -/
def State.globalAdmits (s : State) (k h : Nat) (write : Bool) : Bool :=
  let b := 0xA00 + 16 * k + if write then 8 else 0
  decide (h = 0) || (hostBit (s.reg fGate b) (s.reg fGate (b + 4)) h && !(write && decide (k = fGate)))

/-- The store entry that a window offset names. -/
def windowIndex (rights : Bool) (off : Nat) : Nat := if rights then off / 16 else off / 8

/-- The gate of R140. -/
def State.admits (s : State) (a : Access) : Bool :=
  let h := a.host.toNat
  match placeOf a.byte with
  | .frame f _ _ =>
    if isCoreFrame f then s.coreAdmits (f - 0x80) h
    else if isHostFrame f then decide (h = 0) || decide (h = f - 0x40)
    else s.globalAdmits f h a.write
  | .mailbox n _ => decide (h = n)
  | .window rights off =>
    let i := windowIndex rights off
    a.write || decide (h = 0) ||
      (if rights then decide (rgHost (rgHalf (s.rightsEntry i) false) = h) else decide (rtOwner (s.route i) = h))
  | .unmapped => true

/-- The owning-host rule of R87 for an INTID named on core n's page. -/
def State.ownerAdmits (s : State) (key h : Nat) : Bool := decide (h = 0) || decide (s.ownerOf key = h)

/-- A register's own further admission rule for reads (R109, R229, R260). -/
def State.readAdmits (s : State) (f o h : Nat) : Bool :=
  if f = fFast ∧ o = 0x28 then decide (h = 0) || decide (ftOwner (s.fast (bits (s.reg fFast 0x24) 11 0)) = h)
  else if f = fFast ∧ o = 0x3C then s.coreAdmits (bits (s.reg fFast 0x38) 7 0) h
  else if f = fReservoir ∧ o = 0x24 then
    if isPrivate s.queryKey then s.coreAdmits (coreOfKey s.queryKey) h else s.ownerAdmits s.queryKey h
  else if f = fPump ∧ (o = 0x48 ∨ o = 0x4C ∨ o = 0x50) then
    decide (h = 0) || match s.selected with
      | some x => decide (dscOwner x.w2 = h)
      | none => false
  else true

/-! ### Reads with effects (R94, R99, R108, R216) -/

/-- An acknowledge through a base-view read of ACK_N or ACK_F. A page uncorrectable in the lead alone is answered so, and the
state is that of the mirror, which goes on with it (R390). -/
def State.ackRead (s : State) (n : Nat) (fast : Bool) (pr : PageRead) : HalfResult :=
  match (if fast then s.seenF n else s.seenN n) with
  | none => ok (s.count (fCore n) 5) 0x80000000#32
  | some p =>
    let sram := decide (4096 ≤ p.intid) && !isPrivate p.intid
    let r := if sram then s.readPage 2 (reservoirPage p.intid) 2 false pr else (⟨true, false, 0⟩, s)
    if r.1.usable then
      let t := r.2.take n fast p
      if r.1.leadError then { s := t, code := .uncorrectable, data := 0#32 } else ok t (slotWord (some p))
    else { s := if fast then r.2.withdrawF n else r.2.withdrawN n, code := .uncorrectable, data := 0#32 }

/-- A read of a group's configuration, which stands in its page; GRP_LIVE and GRP_STAT stand in flops (R206, R210). -/
def groupPageRead (f o : Nat) : Bool :=
  decide (fGroup 0 ≤ f) && decide (f < fPump) && decide (0x800 ≤ o) && decide (o % 16 < 8)

/-- The page, with its store, that a register read takes its word from: a group's page, or QUERY_STATE's reservoir page. -/
def State.pageOfRead (s : State) (f o : Nat) : Option (Nat × Nat) :=
  if groupPageRead f o then some (3, (128 * (f - 0x17) + (o - 0x800) / 16) / 4)
  else if f = fReservoir ∧ o = 0x24 ∧ 4096 ≤ s.queryKey ∧ s.queryKey < 131072 then some (2, reservoirPage s.queryKey)
  else none

/-- One half of an access reads its page for the register port: an access reads it once, with its first half (R390). -/
def State.readHalf (s : State) (a : Access) (byte : Nat) : Option (Nat × Nat) → PageResult × State
  | none => (⟨true, false, 0⟩, s)
  | some (m, page) => if byte = a.byte ∨ m = 2 then (s.readPage m page 2 false a.page) else (⟨true, false, 0⟩, s)

/-- What the port answers on a page: UNCORRECTABLE where the page holds no data, or the lead alone finds it so (R37, R390). -/
def PageResult.answers (r : PageResult) : Bool := r.usable && !r.leadError

/-- A register read answered UNCORRECTABLE. -/
def uncorr (s : State) : HalfResult := { s := s, code := .uncorrectable, data := 0#32 }

/-- One half of a read of a frame: the registers as they stand before this edge (R22, R54, R66). The latch of a counter is as
the lower half of the same read has left it (R51). -/
def State.readFrame (s : State) (a : Access) (byte f view o : Nat) : HalfResult :=
  let b := s.sampled
  if !b.readAdmits f o a.host.toNat then s.refuse a byte rsDenied
  else if isCoreFrame f && decide (view = 0) && (decide (o = 0x20) || decide (o = 0x30)) then
    s.ackRead (f - 0x80) (decide (o = 0x30)) a.page
  else
    let r := s.readHalf a byte (b.pageOfRead f o)
    if !r.1.answers then uncorr r.2 else
    let s := r.2
    let w := if 0x400 ≤ o ∧ o < 0x600 ∧ o % 8 = 4 then s.readReg f o else b.readReg f o
    if 0x400 ≤ o ∧ o < 0x600 ∧ o % 8 = 0 then ok (s.latchCounter f ((o - 0x400) / 8)) w
    else if f = fFast ∧ o = 0x28 then ok (s.ftFix false (bits (b.reg fFast 0x24) 11 0)) w
    else ok (if groupPageRead f o then s.askRead 3 0 else s) w

/-! ### Mailboxes (R71, R289, R290, R319) -/

/-- A word of a mailbox's bytes. -/
def Mailbox.word (m : Mailbox) (o : Nat) : Word :=
  BitVec.ofNat 32 (ofLe ((List.range 4).map fun i => look 0#8 m.bytes (o + i)))

/-- A word written into a mailbox's bytes. -/
def Mailbox.setWord (m : Mailbox) (o : Nat) (w : Word) : Mailbox :=
  let bytes := (List.range 4).foldl (fun t i => ins 0#8 t (o + i) (BitVec.ofNat 8 (w.toNat / 256 ^ i))) m.bytes
  { m with bytes := bytes }

/-- The mailbox page that an offset lies in. -/
def boxPage (n o : Nat) : Nat := 64 * n + o / 64

/-- One half of a read of a mailbox window, as it stands before this edge. -/
def State.readBox (s : State) (a : Access) (byte n o : Nat) : HalfResult :=
  let m := s.sampled.box n
  if 0x1000 ≤ o then ok s 0#32
  else
    match m.st with
    | .queued => ok s (if o = 4 then at32 16 1 ||| at32 0 m.seq.toNat else 0#32)
    | .running => ok s (if o = 4 then at32 16 2 ||| at32 0 m.seq.toNat else 0#32)
    | st =>
      let r := s.readHalf a byte (some (6, boxPage n o))
      if !r.1.answers then uncorr r.2 else
      let s := r.2
      if o = 4 then ok (s.askRead 6 0) ((m.word 4 &&& 0xFF00FFFF#32) ||| at32 16 st.code)
      else ok (s.askRead 6 0) (m.word o)

/-- PRESENCE as the synchroniser shows it at this edge: the level it has had since edge `at_`, or still the other one (R24). -/
def State.presenceSeen (s : State) (level : Bool) (at_ : Nat) : Bool :=
  if at_ + s.depth ≤ s.clock.edge then level else !level

/-- The command as sampled at its submit edge. -/
def State.sample (s : State) (n : Nat) (presence unreadable : Bool) : Cmd :=
  let m := s.box n
  let len := bits (m.word 0) 31 16
  { host := n, opcode := (m.word 0).setWidth 8, flags := (m.word 0 >>> 8).setWidth 8, len := len,
    seq := (m.word 4).setWidth 16, top := (m.word 4 >>> 24).setWidth 8,
    payload := (List.range (min len 4088)).map fun i => look 0#8 m.bytes (8 + i),
    stagedAt := s.keeper.staged.map fun c => c.stageId.toNat, presence := presence, factoryClean := s.factoryClean,
    unreadable := unreadable }

/-- The pages of a mailbox up to page `last` read as its command is sampled: page 0 with the verdict of the row, the others as
they stand (R289, R390). Whether every page is usable. -/
def State.samplePages (s : State) (n : Nat) (pr : PageRead) (last : Nat) : Bool × State :=
  (List.range (last + 1)).foldl
    (fun (r : Bool × State) i =>
      let q := r.2.readPage 6 (boxPage n (64 * i)) 3 false (if i = 0 then pr else cleanRead)
      (r.1 && q.1.usable, q.2)) (true, s)

/-- A command submitted: QUEUED, an approval also into the engine queue (R296), or answered at once while the keeper is
held stopped (R319). -/
def State.submit (s : State) (n : Nat) (w : Word) (presence : Bool) (pr : PageRead) : State :=
  let s := s.setBox n ((s.box n).setWord 4 w)
  let len := min (bits ((s.box n).word 0) 31 16) 4088
  let r := s.samplePages n pr (len / 64)
  let bad := !r.1
  let s := { r.2 with levels.presence := presence }
  let c := s.sample n presence bad
  let s := s.setBox n { s.box n with st := .queued, opcode := c.opcode, seq := c.seq }
  if s.keeper.held then (s.count fKeeper 4).finish c stAborted []
  else if c.opcode = 0x61#8 then s.enqueue (Run.start c) 0
  else { s with keeper.submitted := ins none s.keeper.submitted n (some c) }

/-- One half of a write to a mailbox window: a read-modify-write of its page. The verdict that the row gives is that of this
read, or, of a submit, that of the sampling that follows it (DEDUCED, log entry 95). -/
def State.writeBox (s : State) (a : Access) (byte n o : Nat) (w : Word) : HalfResult :=
  if 0x1000 ≤ o then ok s 0#32
  else
    match (s.sampled.box n).st with
    | .queued => ok (s.count fKeeper 8) 0#32
    | .running => ok (s.count fKeeper 8) 0#32
    | _ =>
      let r := s.readPage 6 (boxPage n o) 2 false (if o = 4 then cleanRead else a.page)
      if !r.1.usable then r.2.refuse a byte rsUncorr
      else
        let s := (r.2.askUnit 6 0 r.1.correction).wroteWhole 6 (boxPage n o)
        if o = 4 then ok (s.submit n w (s.presenceSeen a.presence a.presenceAt) a.page) 0#32
        else ok (s.setBox n ((s.box n).setWord o w)) 0#32

/-! ### Guards (R57 to R62) -/

/-- The arm of a frame discarded at its 65th ICLK edge (R59). -/
def State.expireArm (s : State) (f : Nat) : State :=
  match s.arm f with
  | none => s
  | some a =>
    if s.clock.edge < a.edge + 65 * Config.iclk then s
    else (s.setArm f none).recordPage f rsTimeout (faultWord rsTimeout 0 a.offset false a.host)

/-- A commit of RULESET_SEL on host page h (R136). -/
def State.commitRuleset (s : State) (h : Nat) (b : Bool) : State :=
  let s := (s.count (fHost h) 5).count fGate 5
  if bit s.gate.setB h = b then s
  else
    let sw := ins none s.gate.swapAt h (some s.clock.dp)
    { s with gate.setB := setBit s.gate.setB h b, gate.swapAt := sw }.markOld h |>.emptyCaches

/-- The commit of a guarded value. -/
def State.commit (s : State) (f o : Nat) (v : Word) : State :=
  if isHostFrame f then s.commitRuleset (f - 0x40) (bit v 0)
  else
    let n := f - 0x80
    if o = 0x40 then (s.modCore n fun c => { c with mask := v.setWidth 4 }).recheck
    else if o = 0x60 then (s.modCore n fun c => { c with privClass := joinWords v (hiWord c.privClass) }).recheck
    else if o = 0x64 then (s.modCore n fun c => { c with privClass := joinWords (loWord c.privClass) v }).recheck
    else
      let s := if bit v 0 then s.drop n false else s
      if bit v 1 then s.drop n true else s

/-- A base-view 32-bit write to an RWG register or a complement address. A write to X + 0x800 from another host whose value is
not the complement either falls under two rows of R59: GUARD_ORDER is recorded (DESIGN CHOICE, log entry 87). -/
def State.guardWrite (s : State) (a : Access) (byte f o : Nat) (w : Word) : HalfResult :=
  let s := s.expireArm f
  match s.arm f with
  | none =>
    if 0x800 ≤ o then s.refuse a byte rsOrder
    else ok (s.setArm f (some { value := w, host := a.host, edge := s.clock.edge, offset := o })) 0#32
  | some g =>
    let s := s.setArm f none
    if o ≠ g.offset + 0x800 ∨ a.host ≠ g.host then s.refuse a byte rsOrder
    else if w ≠ ~~~g.value then s.refuse a byte rsMismatch
    else ok (s.commit f g.offset g.value) 0#32

/-- A guarded address reached by a view or by a 64-bit write (R60). -/
def State.guardForm (s : State) (a : Access) (byte f : Nat) : HalfResult :=
  ((s.expireArm f).setArm f none).refuse a byte rsForm

/-! ### Software sets (R86 to R88, R96) -/

/-- A counted software set of an INTID, or its POISON record (R390). -/
def State.swSet (s : State) (key host : Nat) (pr : PageRead) : State :=
  let sram := decide (4096 ≤ key) && !isPrivate key
  let r := if sram then s.readPage 2 (reservoirPage key) 4 false pr else (⟨true, false, 0⟩, s)
  if r.1.usable then (r.2.count fReservoir 4).pend key (.software s.clock.edge)
  else r.2.spillRec (madeRec (intidOf key) 6 host)

/-- SGI_SEND on core n's page. -/
def State.sgiSend (s : State) (a : Access) (byte n : Nat) (w : Word) : HalfResult :=
  let t := bits w 23 16
  if !s.sampled.coreAdmits t a.host.toNat then s.refuse a byte rsDenied
  else ok ((s.swSet (privKey t (bits w 3 0)) a.host.toNat a.page).count (fCore n) 8) 0#32

/-- PEND_SET on core n's page. A record that finds the local queue full holds the ordering point (R457). -/
def State.pendSet (s : State) (a : Access) (byte n : Nat) (w : Word) : HalfResult :=
  let x := bits w 16 0
  let h := a.host.toNat
  if x < 64 then ok (s.swSet (privKey n x) h a.page) 0#32
  else if !s.sampled.ownerAdmits x h then (s.ftRead x).refuse a byte rsDenied
  else
    let r := s.sampled.route x
    let s := s.ftRead x
    if !rtEnable r then ok (s.spillRec (madeRec x 9 h)) 0#32
    else if rtMode r then
      if s.localRoom (rtCistern r) then ok (s.pushLocal (rtCistern r) (madeRec x 0x0C h)) 0#32
      else ok { s with front.hold := some (.pendSet a.host x (rtCistern r) .ok) } 0#32
    else ok (s.swSet x h a.page) 0#32

/-- EOI_N or EOI_F on core n's page (R95, R100, R390). -/
def State.eoi (s : State) (n : Nat) (fast : Bool) (w : Word) (pr : PageRead) : State :=
  match s.act n fast with
  | some act =>
    if intidOf act.intid = bits w 16 0 then
      let sram := decide (4096 ≤ act.intid) && !isPrivate act.intid
      let r := if sram then s.readPage 2 (reservoirPage act.intid) 4 false pr else (⟨true, false, 0⟩, s)
      ((r.2.release n fast act r.1.usable).count (fCore n) 6).count fReservoir 6
    else s.event (fCore n) 7 132
  | none => s.event (fCore n) 7 132

/-! ### Views and locks (R34, R63 to R65) -/

/-- The value a view write forms. -/
def viewed (view : Nat) (old w mask : Word) : Word :=
  let v := if view = 0 then w else if view = 1 then old ||| w else if view = 2 then old &&& ~~~w else old ^^^ w
  (v &&& mask) ||| (old &&& ~~~mask)

/-- A lock group of a page is locked. -/
def State.locked (s : State) (f : Nat) (g : Option Nat) : Bool :=
  match g with
  | none => false
  | some g => bit (s.lock f) g || bit (s.lock f) 31

/-- A write to PAGE_LOCK: bits are only set, through the base and SET views. -/
def State.writeLock (s : State) (a : Access) (byte f view : Nat) (w : Word) : HalfResult :=
  if !isGlobal f then ok s 0#32
  else if bit (s.lock f) 31 then s.refuse a byte rsLocked
  else if view ≤ 1 then ok { s with front.locks := ins 0#32 s.front.locks f (s.lock f ||| w) } 0#32
  else ok s 0#32

/-- A counter of a frame that its page's chapter gives (R41 and each chapter's table). -/
def counterExists (f i : Nat) : Bool :=
  decide (i < ncnt f) && !(decide (f = fGate) && decide (8 ≤ i) && decide (i < 17)) &&
    !(decide (f = fPump) && decide (i = 16)) && !(decide (f = fIntegrity) && decide (i = 13))

/-- The increments that this edge has already made to a counter. -/
def State.edgeCount (s : State) (key : Nat) : Nat := ((s.counter key).count - (s.sampled.counter key).count).toNat

/-- A counter written: the written bits replace those of the count before the edge, OVF is cleared, and the edge's increments
are added after (R52). Whether the edge wraps the counter is judged of the count so formed, and not of the one it replaces (R53). -/
def State.formCounter (s : State) (key : Nat) (written : BitVec 48 → BitVec 48) : State :=
  let k := s.edgeCount key
  let old := (s.sampled.counter key).count
  let c := { s.counter key with count := written old, ovf := false }
  let r := c.add k
  let s := s.setCounter key r.1
  let s := if 2 ^ 48 ≤ old.toNat + k then { s with ovfs := s.ovfs - 1 } else s
  if r.2 then { s with ovfs := s.ovfs + 1 } else s

/-- The count with its low word, or its high half, replaced. -/
def putLow (w : Word) (n : BitVec 48) : BitVec 48 := (n &&& 0xFFFF00000000#48) ||| w.setWidth 48
def putHigh (w : Word) (n : BitVec 48) : BitVec 48 := (n &&& 0xFFFFFFFF#48) ||| ((w.setWidth 48 &&& 0xFFFF#48) <<< 32)

/-- A base-view write to a live counter word (R52). -/
def State.writeCounter (s : State) (f o : Nat) (w : Word) : State :=
  let i := (o - 0x400) / 8
  if counterExists f i then s.formCounter (ckey f i) (if o % 8 = 0 then putLow w else putHigh w) else s

/-- A 64-bit base-view write to a counter's pair (R52). -/
def State.writePair (s : State) (f o : Nat) (d : DWord) : State :=
  let i := (o - 0x400) / 8
  if counterExists f i then s.formCounter (ckey f i) (fun n => putHigh (hiWord d) (putLow (loWord d) n)) else s

/-! ### Registers with effects -/

/-- A group's weight and owner written: with weight 0 its credit, age and wait are cleared, and USED stays (R181, R204, R210). -/
def State.setGrpCfg (s : State) (g : Nat) (w : Word) : State :=
  s.modGroup g fun x =>
    let x := { x with weight := w.setWidth 8, owner := BitVec.ofNat 6 (bits w 13 8) }
    if bits w 7 0 = 0 then { x with credit := 0, age := 0, wait := 0, snap := none } else x

/-- A group's INTERVAL written: a running hold ends no later than the new interval from here (R190). -/
def State.setGrpHold (s : State) (g n : Nat) : State :=
  let e := s.clock.dp
  s.modGroup g fun x =>
    { x with interval := BitVec.ofNat 16 n,
             holdEnd := if x.holdFrom < e ∧ e < x.holdEnd then min x.holdEnd (e + 64 * n) else x.holdEnd }

/-- A write to a group register (R181, R190, R209). -/
def State.writeGroup (s : State) (a : Access) (byte f view o : Nat) (w : Word) : HalfResult :=
  let g := 128 * (f - 0x17) + (o - 0x800) / 16
  if o % 16 = 0 then
    if s.locked f (some 0) then s.refuse a byte rsLocked
    else ok ((s.updatePage 3 0 (g / 4) 2).setGrpCfg g (viewed view (s.grpCfg g) w 0x3FFF#32)) 0#32
  else if o % 16 = 4 then
    if s.locked f (some 1) then s.refuse a byte rsLocked
    else ok ((s.updatePage 3 0 (g / 4) 2).setGrpHold g (bits (viewed view (s.grpHold g) w 0xFFFF#32) 15 0)) 0#32
  else ok s 0#32

/-- SPILL_CONSUMED written: a fill above 2^L is made 2^L (R253). -/
def State.spillConsumed (s : State) (v : Word) : State :=
  let s := s.setReg fPump 0x38 v
  let l := s.spillLog
  if 2 ^ l < s.spillFill then
    (s.setReg fPump 0x38 (s.pump.spill.total - BitVec.ofNat 32 (2 ^ l))).count fPump 12
  else s

/-- FL_LAT_MAX written: a larger latency measured at this edge is applied after the write (R46). -/
def State.latMaxWritten (s : State) (v : Word) : State :=
  let live := s.reg fFast 0x34
  s.setReg fFast 0x34 (if live ≠ s.sampled.reg fFast 0x34 ∧ v.toNat < live.toNat then live else v)

/-- SPILL_CTRL written: SPILL_TOTAL is zero but for the appends of this edge, and the dead state is left unless this edge
entered it (R46, R253). -/
def State.spillWritten (s : State) (v : Word) : State :=
  let b := s.sampled.pump.spill
  let spill := { s.pump.spill with total := s.pump.spill.total - b.total, dead := s.pump.spill.dead && !b.dead }
  { s.setReg fPump 0x34 v with pump.spill := spill }

/-- A stored register takes a value, with the effect its chapter gives the write. -/
def State.storeReg (s : State) (f o : Nat) (v : Word) : State :=
  if f = fRoute ∧ (o = 0x40 ∨ o = 0x44) then
    let s := s.setReg f o v
    if s.sweeping then s.clearHosts else s.recheck
  else if f = fFast ∧ o = 0x34 then s.latMaxWritten v
  else if f = fPump ∧ o = 0x34 then s.spillWritten v
  else if f = fPump ∧ o = 0x38 then s.spillConsumed v
  else if f = fLevel then (s.setReg f o v).linesChanged s.lineOn s.lineLow
  else if f = fFuse then (s.setReg f o v).trimsChanged s.depth s.lineFilter s.vaultFilter
  else s.setReg f o v

/-- A write to a register of the register table, by its mask, view and lock. -/
def State.writeReg (s : State) (a : Access) (byte f view o : Nat) (w : Word) : HalfResult :=
  match regInfo f o with
  | none => ok s 0#32
  | some i =>
    if i.baseOnly ∧ view ≠ 0 then ok s 0#32
    else if s.locked f i.group then s.refuse a byte rsLocked
    else if f = fTwin ∧ o = 0x20 then
      let acts := decide (view = 0) || bit w 16
      if acts && s.front.injectWritten then s.refuse a byte rsWriteOnce
      else
        let s := if acts then { s with front.injectWritten := true } else s
        ok (s.setReg f o (viewed view (s.reg f o) w i.mask)) 0#32
    else if f = fFuse ∧ o = 0x30 then
      let v := viewed view (at32 0 s.clock.dcStaged.toNat) w i.mask
      ok { s with clock.dcStaged := v.setWidth 20, clock.slowPend := true, clock.dcAt := some s.clock.edge } 0#32
    else ok (s.storeReg f o (viewed view (s.reg f o) w i.mask)) 0#32

/-- A counter's holding pair takes the count and OVF from before this edge (R56). -/
def State.holdCounter (b s : State) (key : Nat) : State :=
  let c := b.counter key
  s.setCounter key { s.counter key with heldCount := c.count, heldOvf := c.ovf }

/-- A snapshot: every live counter of before this edge copied into its holding pair. Requests of one edge make one snapshot
(R55). -/
def State.takeSnapshot (s : State) : State :=
  if s.front.snapAt = some s.clock.edge then s
  else
    let b := s.sampled
    let s := (sorted (keys b.front.counters ++ keys s.front.counters)).foldl b.holdCounter s
    { s with front.snapSeq := s.front.snapSeq + 1, front.snapAt := some s.clock.edge }

/-- TWIN_INJECT (R381): the next signature of the named wells inverted, or their frames suppressed. -/
def State.inject (s : State) (w : Word) : State :=
  let act (s : State) (b : Bool) : State :=
    if bits w 9 8 = 1 then s.modWell b fun x => { x with invertNext := true }
    else if bits w 9 8 = 2 then s.modWell b fun x => { x with mutedUntil := s.clock.edge + 1280 }
    else s
  let s := if bit w 0 then act s false else s
  if bit w 1 then act s true else s

/-- One half of a write to a frame. -/
def State.writeFrame (s : State) (a : Access) (byte f view o : Nat) (w : Word) : HalfResult :=
  if isGuarded f o then
    if view ≠ 0 then s.guardForm a byte f else s.guardWrite a byte f o w
  else if o = 0x10 then s.writeLock a byte f view w
  else if o < 0x20 then ok s 0#32
  else if 0x400 ≤ o ∧ o < 0x600 then ok (if view = 0 then s.writeCounter f o w else s) 0#32
  else if 0x600 ≤ o ∧ o < 0x800 then ok s 0#32
  else if isCoreFrame f then
    let n := f - 0x80
    if o = 0x50 then
      let v := viewed view (loWord (s.core n).privEn) w 0xFFFFFFFF#32
      ok (s.modCore n fun c => { c with privEn := joinWords v (hiWord c.privEn) }).recheck 0#32
    else if o = 0x54 then
      let v := viewed view (hiWord (s.core n).privEn) w 0xFFFFFFFF#32
      ok (s.modCore n fun c => { c with privEn := joinWords (loWord c.privEn) v }).recheck 0#32
    else if view ≠ 0 then ok s 0#32
    else if o = 0x28 then ok (s.eoi n false w a.page) 0#32
    else if o = 0x38 then ok (s.eoi n true w a.page) 0#32
    else if o = 0x48 then s.sgiSend a byte n w
    else if o = 0x4C then s.pendSet a byte n w
    else ok s 0#32
  else if f = fBlock then
    ok (if o = 0x24 ∧ view = 0 ∧ bit w 0 then s.takeSnapshot else s) 0#32
  else if f = fTwin ∧ o = 0x38 then
    if view ≠ 0 then ok s 0#32
    else if !bit (s.reg fTwin 0x20) 16 then s.refuse a byte rsLocked
    else ok (s.inject w) 0#32
  else if decide (fGroup 0 ≤ f) && decide (f < fPump) && decide (0x800 ≤ o) then s.writeGroup a byte f view o w
  else s.writeReg a byte f view o w

/-! ### An access at the ordering point (R36, R66) -/

/-- One half of an access: its byte offset and its data. -/
def State.half (s : State) (a : Access) (byte : Nat) (w : Word) : HalfResult :=
  match placeOf byte with
  | .unmapped => { s := s, code := .unmapped, data := 0#32 }
  | .window _ _ => if a.write then s.refuse a byte rsWindow else ok s 0#32
  | .mailbox n o => if a.write then s.writeBox a byte n o w else s.readBox a byte n o
  | .frame f view o =>
    if a.write then s.writeFrame a byte f view o w
    else s.readFrame a byte f view o

/-- The worse of two codes (R37). -/
def Code.worse : Code → Code → Code
  | .uncorrectable, _ => .uncorrectable
  | _, .uncorrectable => .uncorrectable
  | .refused, _ => .refused
  | _, .refused => .refused
  | .unmapped, _ => .unmapped
  | _, .unmapped => .unmapped
  | .ok, .ok => .ok

/-- A response driven (R435). -/
def State.answer (s : State) (code : Code) (data : DWord) : State :=
  { s with front.response := some { code := code, data := data }, front.responseAt := s.clock.edge }

/-- RS_VALID: the response is present for one ICLK edge, the first at or after the edge at which it was made (R435). -/
def State.rsValid (s : State) : Bool :=
  let k := (s.front.responseAt + (Config.iclk - 1)) / Config.iclk * Config.iclk
  s.front.response.isSome && decide (k ≤ s.clock.edge) && decide (s.clock.edge < k + Config.iclk)

/-- A write that now holds the ordering point is answered when its record has been placed (R457). -/
def State.answerUnlessHeld (s : State) (code : Code) (data : DWord) : State :=
  match s.front.hold with
  | some (.pendSet h x c _) => { s with front.hold := some (.pendSet h x c code) }
  | _ => s.answer code data

def HalfResult.answer (r : HalfResult) : State := r.s.answerUnlessHeld r.code (r.data.setWidth 64)

/-- A half lies on a guarded address of a frame. -/
def guardedAt (byte : Nat) : Bool :=
  match placeOf byte with
  | .frame f _ o => isGuarded f o
  | _ => false

def frameAt (byte : Nat) : Nat := (placeOf byte).page

/-- A read of the fence register or of a store window, which holds the ordering point (R66). -/
def State.holdRead (s : State) (a : Access) : Option State :=
  match placeOf a.byte with
  | .frame f _ 0x30 =>
    if 2 ≤ f ∧ f < 0x12 then
      let p := f - 2
      let covered := ((s.sampled.port p).unsettled.filter fun (u : Unsettled) => decide (u.acc < s.clock.dp)).length
      let high := if a.wide then s.sampled.readReg f 0x34 else 0#32
      let h : Hold := .fence a.host p (s.port p).nextId s.clock.dp (sat 0xFFFF covered) high
      some { s with front.hold := some h }
    else none
  | .window rights off =>
    let i := windowIndex rights off
    if !rights ∧ i < 72 then none
    else some { s with front.hold := some (.window rights i (off / 4 % if rights then 4 else 2) a.wide) }
  | _ => none

/-- A 64-bit access lies on a counter's pair, through the base view. -/
def counterPair (byte : Nat) : Bool :=
  match placeOf byte with
  | .frame _ view o => decide (view = 0) && decide (0x400 ≤ o) && decide (o < 0x600)
  | _ => false

/-- A 64-bit write to a counter's pair. -/
def State.pairWrite (s : State) (a : Access) : State :=
  match placeOf a.byte with
  | .frame f _ o => s.writePair f o a.data
  | _ => s

/-- The words of a window entry that a read names. -/
def entryData (e : BitVec 128) (word : Nat) (wide : Bool) : DWord :=
  let d : DWord := (e >>> (32 * word)).setWidth 64
  if wide then d else d &&& 0xFFFFFFFF#64

/-- The response of a 64-bit access: the worse code, and data zero unless both halves are OK (R37; log entry 88). -/
def State.answerPair (s : State) (code : Code) (data : DWord) : State :=
  s.answerUnlessHeld code (if code = .ok then data else 0#64)

/-- A write of the keeper's own: not gated and not guarded, attributed to H0, and answered to nobody. A write to an RWG register
commits at once, one to a complement address is ignored (R62). -/
def State.keeperPass (s : State) (a : Access) : State :=
  match placeOf a.byte with
  | .frame f _ o =>
    if isGuarded f o then if o < 0x800 then s.commit f o (loWord a.data) else s
    else (s.half a a.byte (loWord a.data)).s
  | _ => s

/-- An access performed at the edge at which it passes the ordering point. R410 has register writes before READY ignored with OK,
R72 has every window write refused and counted, and neither names the other: before READY a window write too is answered OK,
with no record and no count (DESIGN CHOICE, log entry 102). -/
def State.perform (s : State) (a : Access) : State :=
  if a.keeper then s.keeperPass a else
  match placeOf a.byte with
  | .unmapped => s.answer .unmapped 0#64
  | p =>
    if a.write && !s.startup.ready then s.answer .ok 0#64
    else if a.byte % 4 ≠ 0 ∨ (a.wide ∧ a.byte % 8 ≠ 0) then (s.refuse a a.byte rsWidth).answer
    else if !s.sampled.admits a then (s.refuse a a.byte rsDenied).answer
    else
      match (if a.write then none else s.holdRead a) with
      | some s => s
      | none =>
        match p, a.write with
        | .window false off, false =>
          let e := (s.sampled.route (windowIndex false off)).setWidth 128
          s.answer .ok (entryData e (off / 4 % 2) a.wide)
        | _, _ =>
          if !a.wide then (s.half a a.byte (loWord a.data)).answer
          else if a.write && counterPair a.byte then (s.pairWrite a).answerPair .ok 0#64
          else if a.write && (guardedAt a.byte || guardedAt (a.byte + 4)) then
            (s.guardForm a a.byte (frameAt a.byte)).answer
          else
            let lo := s.half a a.byte (loWord a.data)
            let hi := lo.s.half a (a.byte + 4) (hiWord a.data)
            hi.s.answerPair (lo.code.worse hi.code) (joinWords lo.data hi.data)

/-! ### The ends of a hold (R66, R69, R170, R457) -/

/-- The doorbells a fence covers that are not settled. -/
def State.fenceLeft (s : State) (port bound since : Nat) : Bool :=
  (s.port port).unsettled.any fun (u : Unsettled) => decide (u.id < bound) && decide (u.acc < since)

/-- The hold ends. -/
def State.endHold (s : State) : State := { s with front.hold := none }

/-- DB_FENCE_ANSWER: every covered doorbell has settled. -/
def State.fenceAnswer (s : State) : State :=
  match s.front.hold with
  | some (.fence _ p bound since waited high) =>
    if s.fenceLeft p bound since then s else s.endHold.answer .ok (joinWords (at32 0 waited) high)
  | _ => s

/-- DB_FENCE_TIMEOUT: doorbells still unsettled after 65,536 FCLK. -/
def State.fenceTimeout (s : State) : State :=
  match s.front.hold with
  | some (.fence _ p bound since waited high) =>
    if s.fenceLeft p bound since ∧ since + Config.timeout ≤ s.clock.dp then
      s.endHold.answer .ok (joinWords (flag32 31 true ||| at32 0 waited) high)
    else s
  | _ => s

/-- WINDOW_READ_ANSWER: the window read granted its bank, and the entry as it stands there; UNCORRECTABLE where the lead finds
the page so (R390). -/
def State.windowAnswer (s : State) (pr : PageRead) : State :=
  match s.front.hold, s.windowBank with
  | some (.window rights idx word wide), some (m, b) =>
    if !s.maintWins 2 m b then s
    else
      let s := s.chargeMaint 2 m b
      let id := bankArb rights b
      let s := { s with sluice.grants := ins none s.sluice.grants id (some s.clock.dp) }
      let page := (s.hash rights).physical (pageOf rights idx)
      let r := s.readPage m page 2 false pr
      if r.1.usable && !r.1.leadError then r.2.endHold.answer .ok (entryData (s.stored rights idx) word wide)
      else r.2.endHold.answer .uncorrectable 0#64
  | _, _ => s

/-- A PEND_SET record that waited for a place in the local queue enters it (R457). -/
def State.pendSetPlaced (s : State) : State :=
  match s.front.hold with
  | some (.pendSet host x c code) =>
    if s.localRoom c then ((s.pushLocal c (madeRec x 0x0C host.toNat)).endHold).answer code 0#64 else s
  | _ => s

end Sys2Proof.Machine
end

