-- ==== Sys2Proof/Machine/Crypto.lean ====
section
/-! DEFINITION. The standards the manual names: CRC-64 (ECMA-182), SHA-256 and HMAC (FIPS 180-4, 198-1), P-256 (FIPS 186-5), AES-256-GCM (FIPS 197, SP 800-38D). PRESUMED from the standards, log entry 20. -/

namespace Sys2Proof.Machine

/-! ### CRC-64 (R355) -/

/-- One bit folded in, most significant first. -/
def crcBit (c : DWord) (b : Bool) : DWord :=
  if c.msb != b then (c <<< 1) ^^^ 0x42F0E1EBA9EA3693#64 else c <<< 1

/-- One byte folded in. -/
def crcByte (c : DWord) (x : Byte) : DWord := [7, 6, 5, 4, 3, 2, 1, 0].foldl (fun c i => crcBit c (bit x i)) c

/-- A chained signature over bytes. -/
def crc64 (c : DWord) (l : List Byte) : DWord := l.foldl crcByte c

/-! ### SHA-256 -/

def shaK : List Word :=
  [0x428a2f98#32, 0x71374491#32, 0xb5c0fbcf#32, 0xe9b5dba5#32, 0x3956c25b#32, 0x59f111f1#32, 0x923f82a4#32, 0xab1c5ed5#32,
   0xd807aa98#32, 0x12835b01#32, 0x243185be#32, 0x550c7dc3#32, 0x72be5d74#32, 0x80deb1fe#32, 0x9bdc06a7#32, 0xc19bf174#32,
   0xe49b69c1#32, 0xefbe4786#32, 0x0fc19dc6#32, 0x240ca1cc#32, 0x2de92c6f#32, 0x4a7484aa#32, 0x5cb0a9dc#32, 0x76f988da#32] ++
  [0x983e5152#32, 0xa831c66d#32, 0xb00327c8#32, 0xbf597fc7#32, 0xc6e00bf3#32, 0xd5a79147#32, 0x06ca6351#32, 0x14292967#32,
   0x27b70a85#32, 0x2e1b2138#32, 0x4d2c6dfc#32, 0x53380d13#32, 0x650a7354#32, 0x766a0abb#32, 0x81c2c92e#32, 0x92722c85#32,
   0xa2bfe8a1#32, 0xa81a664b#32, 0xc24b8b70#32, 0xc76c51a3#32, 0xd192e819#32, 0xd6990624#32, 0xf40e3585#32, 0x106aa070#32] ++
  [0x19a4c116#32, 0x1e376c08#32, 0x2748774c#32, 0x34b0bcb5#32, 0x391c0cb3#32, 0x4ed8aa4a#32, 0x5b9cca4f#32, 0x682e6ff3#32,
   0x748f82ee#32, 0x78a5636f#32, 0x84c87814#32, 0x8cc70208#32, 0x90befffa#32, 0xa4506ceb#32, 0xbef9a3f7#32, 0xc67178f2#32]

/-- The eight working words. -/
structure Sha where
  a : Word
  b : Word
  c : Word
  d : Word
  e : Word
  f : Word
  g : Word
  h : Word
deriving DecidableEq, Repr

def shaInit : Sha :=
  ⟨0x6a09e667#32, 0xbb67ae85#32, 0x3c6ef372#32, 0xa54ff53a#32, 0x510e527f#32, 0x9b05688c#32, 0x1f83d9ab#32, 0x5be0cd19#32⟩

def shaRound (x : Sha) (k w : Word) : Sha :=
  let s1 := x.e.rotateRight 6 ^^^ x.e.rotateRight 11 ^^^ x.e.rotateRight 25
  let t1 := x.h + s1 + ((x.e &&& x.f) ^^^ (~~~x.e &&& x.g)) + k + w
  let s0 := x.a.rotateRight 2 ^^^ x.a.rotateRight 13 ^^^ x.a.rotateRight 22
  let t2 := s0 + ((x.a &&& x.b) ^^^ (x.a &&& x.c) ^^^ (x.b &&& x.c))
  ⟨t1 + t2, x.a, x.b, x.c, x.d + t1, x.e, x.f, x.g⟩

/-- The rounds over a schedule window of the last sixteen words, oldest first. -/
def shaRounds : List Word → List Word → Sha → Sha
  | [], _, x => x
  | k :: ks, w, x =>
    let w0 := w.getD 0 0#32
    let w1 := w.getD 1 0#32
    let w14 := w.getD 14 0#32
    let s0 := w1.rotateRight 7 ^^^ w1.rotateRight 18 ^^^ (w1 >>> 3)
    let s1 := w14.rotateRight 17 ^^^ w14.rotateRight 19 ^^^ (w14 >>> 10)
    shaRounds ks (w.tail ++ [s1 + w.getD 9 0#32 + s0 + w0]) (shaRound x k w0)

def beWord (l : List Byte) : Word := BitVec.ofNat 32 (ofBe l)

/-- One 64-byte block. -/
def shaBlock (x : Sha) (blk : List Byte) : Sha :=
  let ws := (List.range 16).map fun i => beWord ((blk.drop (4 * i)).take 4)
  let y := shaRounds shaK ws x
  ⟨x.a + y.a, x.b + y.b, x.c + y.c, x.d + y.d, x.e + y.e, x.f + y.f, x.g + y.g, x.h + y.h⟩

/-- A message folded block by block; the fuel is its number of blocks. -/
def shaFold : Nat → Sha → List Byte → Sha
  | 0, x, _ => x
  | n + 1, x, l => shaFold n (shaBlock x (l.take 64)) (l.drop 64)

def shaPad (n : Nat) : List Byte :=
  [0x80#8] ++ List.replicate ((119 - n % 64) % 64) 0#8 ++ beBytes 8 (8 * n)

def sha256 (m : List Byte) : List Byte :=
  let p := m ++ shaPad m.length
  let x := shaFold (p.length / 64) shaInit p
  ([x.a, x.b, x.c, x.d, x.e, x.f, x.g, x.h].map fun w => beBytes 4 w.toNat).flatten

/-- HMAC-SHA-256 with a key of at most 64 bytes. -/
def hmac256 (key m : List Byte) : List Byte :=
  let k := key ++ List.replicate (64 - key.length) 0#8
  sha256 (k.map (· ^^^ 0x5C#8) ++ sha256 (k.map (· ^^^ 0x36#8) ++ m))

/-- ASCII bytes of a tag. -/
def ascii (s : String) : List Byte := s.toList.map fun c => BitVec.ofNat 8 c.toNat

/-! ### P-256 -/

abbrev p256p : Nat := 0xFFFFFFFF00000001000000000000000000000000FFFFFFFFFFFFFFFFFFFFFFFF
abbrev p256n : Nat := 0xFFFFFFFF00000000FFFFFFFFFFFFFFFFBCE6FAADA7179E84F3B9CAC2FC632551
abbrev p256b : Nat := 0x5AC635D8AA3A93E7B3EBBD55769886BC651D06B0CC53B0F63BCE3C3E27D2604B
abbrev p256gx : Nat := 0x6B17D1F2E12C4247F8BCE6E563A440F277037D812DEB33A0F4A13945D898C296
abbrev p256gy : Nat := 0x4FE342E2FE1A7F9B8EE7EB4A7C0F9E162BCE33576B315ECECBB6406837BF51F5

/-- x to the power e modulo m, by the low `fuel` bits of e. -/
def powMod (m : Nat) : Nat → Nat → Nat → Nat → Nat
  | 0, _, _, acc => acc
  | fuel + 1, x, e, acc => powMod m fuel (x * x % m) (e / 2) (if e % 2 = 1 then acc * x % m else acc)

/-- The inverse modulo a prime. -/
def invMod (m x : Nat) : Nat := powMod m 256 (x % m) (m - 2) 1

/-- A Jacobian point; z = 0 is the point at infinity. -/
structure Jac where
  x : Nat
  y : Nat
  z : Nat
deriving DecidableEq, Repr

def subP (a b : Nat) : Nat := (a + p256p - b % p256p) % p256p

def jacDouble (q : Jac) : Jac :=
  if q.z = 0 ∨ q.y = 0 then ⟨1, 1, 0⟩
  else
    let yy := q.y * q.y % p256p
    let s := 4 * q.x * yy % p256p
    let zz := q.z * q.z % p256p
    let m := 3 * (subP q.x zz) * ((q.x + zz) % p256p) % p256p
    let x := subP (m * m % p256p) (2 * s)
    ⟨x, subP (m * subP s x % p256p) (8 * yy * yy), 2 * q.y * q.z % p256p⟩

def jacAdd (a b : Jac) : Jac :=
  if a.z = 0 then b else if b.z = 0 then a
  else
    let za := a.z * a.z % p256p
    let zb := b.z * b.z % p256p
    let u1 := a.x * zb % p256p
    let u2 := b.x * za % p256p
    let s1 := a.y * b.z * zb % p256p
    let s2 := b.y * a.z * za % p256p
    if u1 = u2 then if s1 = s2 then jacDouble a else ⟨1, 1, 0⟩
    else
      let h := subP u2 u1
      let r := subP s2 s1
      let hh := h * h % p256p
      let hhh := h * hh % p256p
      let v := u1 * hh % p256p
      let x := subP (subP (r * r % p256p) hhh) (2 * v)
      ⟨x, subP (r * subP v x % p256p) (s1 * hhh), h * a.z * b.z % p256p⟩

/-- k times a point, by the low `fuel` bits of k. -/
def jacMul : Nat → Nat → Jac → Jac → Jac
  | 0, _, _, acc => acc
  | fuel + 1, k, q, acc => jacMul fuel (k / 2) (jacDouble q) (if k % 2 = 1 then jacAdd acc q else acc)

def jacInf : Jac := ⟨1, 1, 0⟩
def baseG : Jac := ⟨p256gx, p256gy, 1⟩

/-- The affine x coordinate. -/
def Jac.affX (q : Jac) : Nat :=
  let i := invMod p256p q.z
  q.x * (i * i % p256p) % p256p

/-- The affine y coordinate. -/
def Jac.affY (q : Jac) : Nat :=
  let i := invMod p256p q.z
  q.y * (i * i % p256p * i % p256p) % p256p

/-- A public key passes R344. -/
def validKey (x y : Nat) : Bool :=
  decide (x < p256p) && decide (y < p256p) && !(decide (x = 0) && decide (y = 0)) &&
    decide (y * y % p256p = (x * x * x + (p256p - 3) * x + p256b) % p256p)

/-- The verification of R342 on the integer e of a digest. -/
def verifySig (k : PubKey) (digest : List Byte) (r s : Nat) : Bool :=
  let e := ofBe digest
  if r = 0 ∨ s = 0 ∨ p256n ≤ r ∨ p256n ≤ s then false
  else
    let w := invMod p256n s
    let q := jacAdd (jacMul 256 (e * w % p256n) baseG jacInf) (jacMul 256 (r * w % p256n) ⟨k.x, k.y, 1⟩ jacInf)
    decide (q.z ≠ 0) && decide (q.affX % p256n = r)

/-- A signing attempt with nonce k; none where r or s is 0, or k is out of range (R343). -/
def signWith (d k : Nat) (digest : List Byte) : Option (Nat × Nat) :=
  if k = 0 ∨ p256n ≤ k then none
  else
    let r := (jacMul 256 k baseG jacInf).affX % p256n
    let s := invMod p256n k * (ofBe digest + r * d) % p256n
    if r = 0 ∨ s = 0 then none else some (r, s)

/-! ### AES-256 -/

/-- Multiplication by x in the field of AES. -/
def xtime (b : Byte) : Byte := if b.msb then (b <<< 1) ^^^ 0x1B#8 else b <<< 1

/-- Multiplication in the field of AES. -/
def gmul (a b : Byte) : Byte :=
  ((List.range 8).foldl
    (fun (st : Byte × Byte) i => (if bit b i then st.1 ^^^ st.2 else st.1, xtime st.2)) (0#8, a)).1

/-- The inverse in the field, as the 254th power. -/
def ginv (a : Byte) : Byte :=
  ((List.range 8).foldl
    (fun (st : Byte × Byte) i => (if 0 < i then gmul st.1 st.2 else st.1, gmul st.2 st.2)) (1#8, a)).1

def sbox (a : Byte) : Byte :=
  let b := ginv a
  b ^^^ b.rotateLeft 1 ^^^ b.rotateLeft 2 ^^^ b.rotateLeft 3 ^^^ b.rotateLeft 4 ^^^ 0x63#8

/-- The S-box as a table, computed once per key. -/
def sboxTable : List Byte := (List.range 256).map fun i => sbox (BitVec.ofNat 8 i)

def subByte (t : List Byte) (b : Byte) : Byte := t.getD b.toNat 0#8

/-- The next word of the key schedule, from the newest word and the word eight before it. -/
def keyWord (t : List Byte) (i : Nat) (rcon : Byte) (prev old : List Byte) : List Byte :=
  let x :=
    if i % 8 = 0 then
      match prev with
      | [a, b, c, d] => [subByte t b ^^^ rcon, subByte t c, subByte t d, subByte t a]
      | l => l
    else if i % 8 = 4 then prev.map (subByte t)
    else prev
  (x.zip old).map fun e => e.1 ^^^ e.2

/-- The words of the key schedule from word i on; `ws` holds the words so far. -/
def keyWords (t : List Byte) : Nat → Nat → Byte → List (List Byte) → List (List Byte)
  | 0, _, _, ws => ws
  | n + 1, i, rcon, ws =>
    let w := keyWord t i rcon (ws.getD (i - 1) []) (ws.getD (i - 8) [])
    keyWords t n (i + 1) (if i % 8 = 0 then xtime rcon else rcon) (ws ++ [w])

/-- The fifteen round keys of a 32-byte key. -/
def roundKeys (t : List Byte) (key : List Byte) : List (List Byte) :=
  let ws := keyWords t 52 8 1#8 ((List.range 8).map fun i => (key.drop (4 * i)).take 4)
  (List.range 15).map fun r => ((ws.drop (4 * r)).take 4).flatten

def xorBytes (a b : List Byte) : List Byte := (a.zip b).map fun e => e.1 ^^^ e.2

def shiftRows (l : List Byte) : List Byte :=
  (List.range 16).map fun i => l.getD ((i + 4 * (i % 4)) % 16) 0#8

def mixColumn (c : List Byte) : List Byte :=
  match c with
  | [a, b, d, e] =>
    [xtime a ^^^ xtime b ^^^ b ^^^ d ^^^ e, a ^^^ xtime b ^^^ xtime d ^^^ d ^^^ e,
     a ^^^ b ^^^ xtime d ^^^ xtime e ^^^ e, xtime a ^^^ a ^^^ b ^^^ d ^^^ xtime e]
  | l => l

def mixColumns (l : List Byte) : List Byte :=
  ((List.range 4).map fun i => mixColumn ((l.drop (4 * i)).take 4)).flatten

/-- The middle rounds and the last. -/
def aesRounds (t : List Byte) : List (List Byte) → List Byte → List Byte
  | [], x => x
  | [k], x => xorBytes (shiftRows (x.map (subByte t))) k
  | k :: ks, x => aesRounds t ks (xorBytes (mixColumns (shiftRows (x.map (subByte t)))) k)

/-- A key ready for use. -/
structure AesKey where
  t : List Byte
  ks : List (List Byte)

def aesKey (key : List Byte) : AesKey := { t := sboxTable, ks := roundKeys sboxTable key }

/-- One block. -/
def aes256 (k : AesKey) (x : List Byte) : List Byte :=
  match k.ks with
  | k0 :: rest => aesRounds k.t rest (xorBytes x k0)
  | [] => x

/-! ### GCM -/

/-- Multiplication in GF(2^128) as GCM numbers it: bit 127 of the number is its first bit. -/
def ghashMul (x y : Nat) : Nat :=
  ((List.range 128).foldl
    (fun (st : Nat × Nat) i =>
      let z := if x.testBit (127 - i) then st.1 ^^^ st.2 else st.1
      let v := if st.2 % 2 = 1 then (st.2 / 2) ^^^ (0xE1 * 2 ^ 120) else st.2 / 2
      (z, v)) (0, y)).1

/-- The accumulator after the blocks of some bytes, the last padded with zeros. -/
def ghashFold : Nat → Nat → Nat → List Byte → Nat
  | 0, _, acc, _ => acc
  | n + 1, h, acc, l =>
    if l.isEmpty then acc
    else
      let blk := l.take 16
      let v := ofBe (blk ++ zeros (16 - blk.length))
      ghashFold n h (ghashMul (acc ^^^ v) h) (l.drop 16)

/-- The accumulator continued over bytes. -/
def ghash (h acc : Nat) (l : List Byte) : Nat := ghashFold (l.length / 16 + 1) h acc l

/-- The hash key of a key. -/
def ghashKey (k : AesKey) : Nat := ofBe (aes256 k (zeros 16))

/-- The counter block i after the first of a 96-bit IV. -/
def ctrBlock (iv : List Byte) (i : Nat) : List Byte := iv ++ beBytes 4 ((i + 1) % 2 ^ 32)

/-- Counter-mode output over bytes, from block i on. -/
def ctrFold : Nat → AesKey → List Byte → Nat → List Byte → List Byte
  | 0, _, _, _, _ => []
  | n + 1, k, iv, i, l =>
    if l.isEmpty then []
    else xorBytes (l.take 16) (aes256 k (ctrBlock iv i)) ++ ctrFold n k iv (i + 1) (l.drop 16)

/-- Bytes encrypted or decrypted in counter mode, from data block number `blk` of the stream. -/
def gcmCrypt (k : AesKey) (iv : List Byte) (blk : Nat) (l : List Byte) : List Byte :=
  ctrFold (l.length / 16 + 1) k iv (blk + 1) l

/-- The tag from the accumulator over the padded additional data and ciphertext. -/
def gcmTag (k : AesKey) (iv : List Byte) (acc aad n : Nat) : List Byte :=
  let s := ghashMul (acc ^^^ (8 * aad * 2 ^ 64 + 8 * n)) (ghashKey k)
  xorBytes (beBytes 16 s) (aes256 k (ctrBlock iv 0))

end Sys2Proof.Machine
end

