-- ==== Sys2Proof/Machine/CmdTables.lean ====
section
/-! DEFINITION. Keeper commands on tables: NOP, KEEPER_INFO, TOKEN_DROP, ROUTE_WRITE, FAST_WRITE, GROUP_WRITE, ROUTE_REKEY, RIGHTS_WRITE (R134, R157, R158, R161, R205, R214, R304, R307). -/

namespace Sys2Proof.Machine

/-! ### Housekeeping (R307) -/

/-- NOP. -/
def State.cmdNop (s : State) : State :=
  match s.runOf 0x00 .fresh with
  | none => s
  | some _ => s.endRun stOk []

/-- KEEPER_INFO. -/
def State.cmdInfo (s : State) : State :=
  match s.runOf 0x01 .fresh with
  | none => s
  | some _ =>
    let flags := (if s.anyMarg then 1 else 0) + (if s.levels.rndHealth then 0 else 2) +
      (if s.keeper.staged.isSome then 4 else 0)
    s.endRun stOk
      (leBytes 4 keepVersion.toNat ++ leBytes 1 s.lifecycle ++ leBytes 1 flags ++ leBytes 1 s.userEpoch ++ zeros 1 ++
        leBytes 4 s.sampled.clock.sclkCount.toNat ++ leBytes 2 s.pump.bootId.toNat ++ zeros 2)

/-- TOKEN_DROP. -/
def State.cmdTokenDrop (s : State) : State :=
  match s.runOf 0x02 .fresh with
  | none => s
  | some r =>
    match s.tokenNamed r.cmd.host (r.cmd.slice 0 8) with
    | some _ => (s.voidToken r.cmd.host).endRun stOk []
    | none => s.endRun stStale []

/-! ### Items -/

/-- The first failing condition of a list of checks made one after the other over all items; 0 for none (log
entry 21). -/
def firstFail : List (Nat × Bool) → Nat
  | [] => stOk
  | (st, bad) :: t => if bad then st else firstFail t

/-- Two items give equal values. -/
def twice (l : List Nat) : Bool :=
  match l with
  | [] => false
  | x :: t => t.contains x || twice t

/-! ### ROUTE_WRITE (R157) -/

def riIntid (i : List Byte) : Nat := ofLe (i.take 4)
def riEntry (i : List Byte) : DWord := BitVec.ofNat 64 (ofLe (i.drop 4))

/-- The conditions of R157 on one item up to CLASS = 1 without an enabled fast-table entry. -/
def riRange1 (i : List Byte) : Bool := decide (riIntid i < 64) || decide (131071 < riIntid i)
def riVault (i : List Byte) : Bool := isVault (riIntid i)
def riReserved (i : List Byte) : Bool := routeReserved (riEntry i)
def riLimits (i : List Byte) : Bool := !routeLegal (riIntid i) (riEntry i)
def State.riClass (s : State) (i : List Byte) : Bool :=
  rtClass (riEntry i) && !ftEn (s.fast (riIntid i))

/-- What the issuer's host may not do, the cistern apart. -/
def State.riForeign (s : State) (h : Nat) (i : List Byte) : Bool :=
  let x := riIntid i
  let r := riEntry i
  let cur := s.route x
  decide (rtOwner cur ≠ h) || decide (rtOwner r ≠ h) || decide (rtClass r ≠ rtClass cur) ||
    (!rtMode r && (decide (rtTarget r = 256) || !s.coreAdmits (rtTarget r) h)) ||
    decide ((s.group (rtGroup r)).owner.toNat ≠ h)

/-- The cistern that an item of a host other than H0 names. -/
def riCistern (i : List Byte) : Option Nat :=
  if rtMode (riEntry i) then some (rtCistern (riEntry i)) else none

/-- The conditions of R157 on the items alone. -/
def routeShapes (c : Cmd) : Nat :=
  let l := c.itemList 12
  firstFail [(stRange, l.any riRange1), (stDenied, l.any riVault), (stRange, l.any riReserved), (stRange, l.any riLimits)]

/-- The conditions of R157 before the cisterns' owners. -/
def State.routeChecks (s : State) (c : Cmd) : Nat :=
  let l := c.itemList 12
  firstFail [(routeShapes c, decide (routeShapes c ≠ stOk)), (stDenied, l.any s.riClass),
    (stDenied, decide (c.host ≠ 0) && l.any (s.riForeign c.host))]

/-- The fast-table entries that a command's checks read (R216). -/
def State.ftReads (s : State) (xs : List Nat) : State := xs.foldl State.ftRead s

/-- A cistern's descriptor as the cache or the keeper's ended fetch gives it: whether host h owns it (R259); none
while it must still be fetched. -/
def State.ownsCistern (s : State) (c h : Nat) : Option Bool :=
  match s.cached c with
  | some x =>
    if dscValid x.w0 then some (decide (dscOwner x.w2 = h)) else fetched
  | none => fetched
where
  /-- The answer of the keeper's own fetch. -/
  fetched : Option Bool :=
    match s.keeper.fetch with
    | some f =>
      if f.cistern = c then
        f.ended.map fun e => decide (e ≠ .failed) && decide (e ≠ .bad) && dscValid f.w0 && decide (dscOwner f.w2 = h)
      else none
    | none => none

/-- The keeper fetches a cistern's descriptor for a command (R240 steps 1 to 8). -/
def State.cmdFetch (s : State) (c : Nat) : State :=
  match s.keeper.fetch with
  | some f => if f.cistern = c then s else start
  | none => start
where
  /-- The first read of the fetch. -/
  start : State :=
    let f : CmdFetch := { cistern := c, w0 := 0#64, w1 := 0#64, w2 := 0#64, consumed := 0#64, producer := 0#64, ended := none }
    ({ s with keeper.fetch := some f }.count fPump 9).request (unitRead (.cmdLevel1 c) (s.level1Addr c) 0)

/-- The writing of items begins. -/
def Run.beginItems (r : Run) (k : Nat) : Run :=
  { r with phase := .items, todo := r.cmd.itemList k, written := 0, granted := none, marked := false }

/-- The owners of the cisterns named, checked one after another from item `r.step` on; then the last check, and the
items. -/
def State.routeCisterns : Nat → State → Run → State
  | 0, s, r => s.setRun r
  | fuel + 1, s, r =>
    match (r.cmd.itemList 12)[r.step]? with
    | none =>
      if twice ((r.cmd.itemList 12).map riIntid) then s.endCount stRange 0
      else s.reserveShadow (r.beginItems 12) true
    | some i =>
      match (if r.cmd.host = 0 then none else riCistern i) with
      | none => s.routeCisterns fuel { r with step := r.step + 1 }
      | some c =>
        match s.ownsCistern c r.cmd.host with
        | some true => s.routeCisterns fuel { r with step := r.step + 1 }
        | some false => s.endCount stDenied 0
        | none => (s.cmdFetch c).setRun { r with phase := .waiting }

/-- ROUTE_WRITE: the checks, waiting for descriptors where they are needed; the items follow by ROUTE_ITEM_WRITE. -/
def State.cmdRouteWrite (s : State) : State :=
  match s.runOf 0x10 .fresh with
  | some r =>
    let st := s.routeChecks r.cmd
    let s := if routeShapes r.cmd = stOk then
        s.ftReads (((r.cmd.itemList 12).filter fun i => rtClass (riEntry i)).map riIntid) else s
    if st ≠ stOk then s.endCount st 0 else s.routeCisterns (r.cmd.items + 1) r
  | none =>
    match s.runOf 0x10 .waiting with
    | some r => s.routeCisterns (r.cmd.items + 1) r
    | none => s

/-! ### FAST_WRITE (R214) -/

def fiIntid (i : List Byte) : Nat := ofLe i % 2 ^ 17
def fiEn (i : List Byte) : Bool := decide (2 ^ 31 ≤ ofLe i)

/-- The conditions of R214 on the items alone. -/
def fastShapes (c : Cmd) : Nat :=
  let l := c.itemList 4
  firstFail
    [(stRange, l.any fun i => decide (fiIntid i < 64) || decide (4095 < fiIntid i) ||
        decide (ofLe i / 2 ^ 17 % 2 ^ 14 ≠ 0)),
     (stDenied, l.any fun i => isVault (fiIntid i)), (stDenied, decide (c.host ≠ 0)),
     (stRange, twice (l.map fiIntid))]

def State.fastChecks (s : State) (c : Cmd) : Nat :=
  firstFail
    [(fastShapes c, decide (fastShapes c ≠ stOk)),
     (stDenied, (c.itemList 4).any fun i => !fiEn i && ftClass (s.fast (fiIntid i)))]

/-- EN of a fast-table entry written in its three copies. -/
def State.setFastEn (s : State) (x : Nat) (v : Bool) : State :=
  let f := s.ft x
  (s.setFt x { c0 := setBit f.c0 31 v, c1 := setBit f.c1 31 v, c2 := setBit f.c2 31 v }).recheck

/-- The next item of a command that writes without banks, at an edge of its own. -/
def State.plainItem (s : State) (r : Run) (write : List Byte → State → State) : State :=
  match r.todo with
  | [] => s.endCount stOk r.written
  | i :: rest =>
    if r.granted = some s.clock.edge then s
    else if s.frozen then s.setRun r
    else
      let s := write i s
      let r := { r with todo := rest, written := r.written + 1, granted := some s.clock.edge }
      if rest.isEmpty then (s.setRun r).endCount stOk r.written else s.setRun r

/-- FAST_WRITE: the checks with the first item, then an item a step. -/
def State.cmdFastWrite (s : State) : State :=
  let write (i : List Byte) (s : State) : State := (s.setFastEn (fiIntid i) (fiEn i)).count fFast 8
  match s.runOf 0x11 .fresh with
  | some r =>
    let st := s.fastChecks r.cmd
    let s := if fastShapes r.cmd = stOk then
        s.ftReads (((r.cmd.itemList 4).filter fun i => !fiEn i).map fiIntid) else s
    if st ≠ stOk then s.endCount st 0 else s.plainItem (r.beginItems 4) write
  | none =>
    match s.runOf 0x11 .items with
    | some r => s.plainItem r write
    | none => s

/-! ### GROUP_WRITE (R205) -/

def giGroup (i : List Byte) : Nat := ofLe (i.take 2)
def giMask (i : List Byte) : Nat := ofLe ((i.drop 2).take 1)
def giWeight (i : List Byte) : Nat := ofLe ((i.drop 3).take 1)
def giOwner (i : List Byte) : Nat := ofLe ((i.drop 4).take 1)
def giInterval (i : List Byte) : Nat := ofLe ((i.drop 6).take 2)

/-- A field that an item names lies in a locked register. -/
def State.giLocked (s : State) (i : List Byte) : Bool :=
  let f := fGroup (giGroup i / 128)
  (decide (giMask i % 4 ≠ 0) && s.locked f (some 0)) || (decide (4 ≤ giMask i) && s.locked f (some 1))

def State.groupChecks (s : State) (c : Cmd) : Nat :=
  let l := c.itemList 8
  firstFail
    [(stRange, l.any fun i => decide (1023 < giGroup i) || decide (7 < giMask i) || decide (63 < giOwner i)),
     (stRange, twice (l.map giGroup)),
     (stDenied, decide (c.host ≠ 0) && l.any fun i =>
        decide (giMask i % 4 ≠ 0) || decide ((s.group (giGroup i)).owner.toNat ≠ c.host)),
     (stDenied, l.any s.giLocked)]

/-- One item's fields written (R181, R190). -/
def State.groupItem (s : State) (i : List Byte) : State :=
  let g := giGroup i
  let x := s.group g
  let w := if giMask i % 2 = 1 then giWeight i else x.weight.toNat
  let o := if giMask i / 2 % 2 = 1 then giOwner i else x.owner.toNat
  let s := if giMask i % 4 = 0 then s else s.setGrpCfg g (at32 8 o ||| at32 0 w)
  if 4 ≤ giMask i then s.setGrpHold g (giInterval i) else s

/-- The write edge of a granted item: its group-state page is read, merged and written in a locked sequence (R156, R194). -/
def State.groupStep (s : State) (r : Run) (pr : PageRead) : State :=
  match r.todo, r.granted with
  | i :: rest, some g =>
    let rd := s.readPage 3 (giGroup i / 4) 3 false pr
    if !rd.1.usable then
      if g + 2 ≤ s.clock.dp then ((rd.2.unlock 3 0).setRun r).endCount stUncorr r.written else s
    else if s.clock.dp < writeEdge g rd.1.correction then s
    else
      let s := ((rd.2.groupItem i).wroteWhole 3 (giGroup i / 4)).unlock 3 0
      let r := { r with todo := rest, written := r.written + 1, granted := none }
      if rest.isEmpty then (s.setRun r).endCount stOk r.written else s.setRun r
  | _, _ => s

/-- GROUP_WRITE: the checks, then an item at each write edge. -/
def State.cmdGroupWrite (s : State) (pages : List PageRead) : State :=
  match s.runOf 0x12 .fresh with
  | some r =>
    let st := s.groupChecks r.cmd
    if st ≠ stOk then s.endCount st 0 else s.setRun (r.beginItems 8)
  | none =>
    match s.runOf 0x12 .items with
    | some r => s.groupStep r (pages.headD cleanRead)
    | none => s

/-! ### ROUTE_REKEY (R161) -/

/-- A store that the command names. -/
def rekeyNames (c : Cmd) (rights : Bool) : Bool := bit (BitVec.ofNat 8 (c.field 0 1)) (if rights then 1 else 0)

/-- The store is busy for a rekey. -/
def State.rekeyBusy (s : State) (c : Cmd) (rights : Bool) : Bool :=
  rekeyNames c rights && ((s.hash rights).migActive || !s.spaced (s.hash rights))

/-- A rekey asked for, or no longer. -/
def State.askRekey (s : State) (c : Cmd) (v : Bool) : State :=
  let s := if rekeyNames c false then s.setHash false { s.hash false with asked := v } else s
  if rekeyNames c true then s.setHash true { s.hash true with asked := v } else s

/-- ROUTE_REKEY: starts the rekeys, and returns once the migrations it started are complete. -/
def State.cmdRekey (s : State) : State :=
  match s.runOf 0x13 .fresh with
  | some r =>
    match s.enterGroup r.cmd with
    | none => s.endZero stBusy
    | some s =>
      if s.rekeyBusy r.cmd false || s.rekeyBusy r.cmd true then s.endZero stBusy
      else (s.askRekey r.cmd true).askWords r
  | none =>
    match s.keeper.run with
    | some r =>
      if r.cmd.opcode ≠ 0x13#8 ∨ r.phase = .fresh ∨ !s.keeperAlive ∨ !s.atKclk ∨ s.frozen then s
      else
        let busy (rights : Bool) : Bool :=
          rekeyNames r.cmd rights && ((s.hash rights).asked || (s.hash rights).migActive)
        if busy false || busy true then
          let waits := (s.hash false).asked || (s.hash true).asked
          s.setRun { r with phase := if waits then .random else .waiting, step := if waits then 1 else 2 }
        else s.endRun stOk (leBytes 2 s.routes.rt.gen.toNat ++ leBytes 2 s.routes.rg.gen.toNat)
    | none => s

/-! ### RIGHTS_WRITE (R134) -/

def gwRid (i : List Byte) : Nat := ofLe (i.take 2)
def gwHalves (i : List Byte) : Nat := ofLe ((i.drop 2).take 1)
def gwHalf (i : List Byte) (b : Bool) : DWord := BitVec.ofNat 64 (ofLe ((i.drop (if b then 12 else 4)).take 8))
def gwNames (i : List Byte) (b : Bool) : Bool := if b then decide (2 ≤ gwHalves i) else decide (gwHalves i % 2 = 1)

/-- A condition on every half that an item writes. -/
def halvesAny (l : List (List Byte)) (p : DWord → Bool) : Bool :=
  l.any fun i => (gwNames i false && p (gwHalf i false)) || (gwNames i true && p (gwHalf i true))

/-- An item writing one half gives a HOST other than the one held in the other half. -/
def State.gwOneHost (s : State) (i : List Byte) : Bool :=
  let e := s.rightsEntry (gwRid i)
  (decide (gwHalves i = 1) && decide (rgHost (gwHalf i false) ≠ rgHost (rgHalf e true))) ||
    (decide (gwHalves i = 2) && decide (rgHost (gwHalf i true) ≠ rgHost (rgHalf e false)))

/-- What a host other than H0 may not write. -/
def State.gwForeign (s : State) (h : Nat) (i : List Byte) : Bool :=
  let e := s.rightsEntry (gwRid i)
  let enables (d : DWord) : Bool :=
    ((rgRegion0 d).en && decide ((rgRegion0 d).owner ≠ h)) || ((rgRegion1 d).en && decide ((rgRegion1 d).owner ≠ h))
  decide (rgHost (rgHalf e false) ≠ h) || decide (gwHalves i = 3) || gwNames i (bit s.gate.setB h) ||
    (gwNames i false && enables (gwHalf i false)) || (gwNames i true && enables (gwHalf i true))

def State.rightsChecks (s : State) (c : Cmd) : Nat :=
  let l := c.itemList 20
  firstFail
    [(stRange, halvesAny l fun d => (rgRegion0 d).badShape || (rgRegion1 d).badShape),
     (stRange, halvesAny l fun d => (rgRegion0 d).badIdle || (rgRegion1 d).badIdle),
     (stRange, l.any s.gwOneHost),
     (stRange, l.any fun i => decide (gwHalves i = 3) && decide (rgHost (gwHalf i false) ≠ rgHost (gwHalf i true))),
     (stOverlap, halvesAny l fun d => (rgRegion0 d).overlaps (rgRegion1 d)),
     (stDenied, decide (c.host ≠ 0) && l.any (s.gwForeign c.host))]

/-- RIGHTS_WRITE: the checks; the items follow by RIGHTS_ITEM_WRITE. -/
def State.cmdRightsWrite (s : State) : State :=
  match s.runOf 0x20 .fresh with
  | none => s
  | some r =>
    let st := s.rightsChecks r.cmd
    if st ≠ stOk then s.endCount st 0 else s.reserveShadow (r.beginItems 20) true

end Sys2Proof.Machine
end

