-- ==== Sys2Proof/Machine/CmdCistern.lean ====
section
/-! DEFINITION. Keeper commands on cisterns: CISTERN_OPEN, CISTERN_CLOSE, CISTERN_SYNC, CISTERN_FLUSH (R258, R259). -/

namespace Sys2Proof.Machine

/-! ### Checks -/

/-- The cistern that an item names. -/
def ciCistern (i : List Byte) : Nat := ofLe (i.take 4)

/-- Checks 1 and 2 of R258. -/
def cisternChecks (c : Cmd) : Nat :=
  let l := (c.itemList 4).map ciCistern
  firstFail [(stRange, l.any fun n => decide (n = 0) || decide (32767 < n)), (stRange, twice l)]

/-- What the owner check found: the command's next state, or every item passed. -/
inductive OwnerPass where
  | ended (s : State)
  | passed

/-- Check 3 of R258 from item `r.step` on; a descriptor not cached is fetched first. -/
def State.ownerPass : Nat → State → Run → OwnerPass
  | 0, _, _ => .passed
  | fuel + 1, s, r =>
    match (r.cmd.itemList 4)[r.step]? with
    | none => .passed
    | some i =>
      if r.cmd.host = 0 then .passed
      else match s.ownsCistern (ciCistern i) r.cmd.host with
        | some true => s.ownerPass fuel { r with step := r.step + 1 }
        | some false => .ended (s.endCount stDenied 0)
        | none => .ended ((s.cmdFetch (ciCistern i)).setRun { r with phase := .waiting })

/-- A cistern command taken: its checks, and what follows once they have passed. -/
def State.cisternStart (s : State) (op : Nat) (go : State → Run → State) : State :=
  let owners (r : Run) : State :=
    match s.ownerPass (r.cmd.items + 1) r with
    | .ended s => s
    | .passed => go s r
  match s.runOf op .fresh with
  | some r =>
    let st := cisternChecks r.cmd
    if st ≠ stOk then s.endCount st 0 else owners r
  | none =>
    match s.runOf op .waiting with
    | some r => owners r
    | none => s

/-- The next item of a cistern command whose items take several steps. -/
def State.cisternNext (s : State) (r : Run) : State :=
  let r := { r with todo := r.todo.tail, written := r.written + 1, step := 0, marked := false }
  if r.todo.isEmpty then (s.setRun r).endCount stOk r.written else s.setRun r

/-! ### CISTERN_OPEN -/

/-- FLAGS.RESET. -/
def Cmd.resets (c : Cmd) : Bool := bit c.flags 1

/-- Word k of what the fresh fetch of item n read. -/
def Run.fetched (r : Run) (n k : Nat) : DWord := BitVec.ofNat 64 (r.acc.getD (5 * n + k) 0)

/-- The cistern is open (R237), as the cache or the producer word read says. -/
def State.openNow (s : State) (c : Nat) (producer : DWord) : Bool :=
  let read := decide (bits producer 63 48 = s.pump.bootId.toNat)
  match s.cached c with
  | some x =>
    match x.st with
    | .opened => true
    | .broken _ => false
    | _ => read
  | none => read

/-- The entry holds the broken state (R242). -/
def Cached.isBroken (x : Cached) : Bool :=
  match x.st with
  | .broken _ => true
  | _ => false

/-- Records appended before a break stand: those that a removed entry still buffers are written to the ring it had, by a line
write of the cistern in tier 2 like any other (R242, R254). -/
def State.leaveBuffer (s : State) (c : Nat) (x : Cached) : State :=
  if x.buffer.isEmpty then s
  else
    let q := lineReq (.line c x.buffer) (dscBase x.w0) (dscLog2 x.w0) (dscOwner x.w2) x.buffer
    { s with pump.left := s.pump.left ++ [(c, q)] }

/-- The entry that an open gives a cistern, from the fetched words. A cistern already cached and open keeps its counts; records
in its line buffer are then written with the base and size of the words just read, of which R258 says nothing (DESIGN CHOICE,
log entry 100). -/
def State.openEntry (s : State) (c : Nat) (x : Cached) (r : Run) : State :=
  let w := r.fetched r.written
  let s := if x.isBroken then s.leaveBuffer c x else s
  let x := if x.isBroken then Cached.blank x.slot .notOpen x.used else x
  let keep := decide (x.st = .opened)
  let cross := if keep then x.cross else if r.cmd.resets then 0#16 else BitVec.ofNat 16 (bits (w 4) 47 32)
  let total := if keep then x.total else if r.cmd.resets then 0#32 else loWord (w 4)
  let consumed := if keep then x.consumed else loWord (w 3)
  let y := { x with w0 := w 0, w1 := w 1, w2 := w 2, pinned := false }
  let s := (s.setCached c (some y)).opened c y cross total consumed 2
  match s.cached c with
  | some z => (s.touch c).request (producerReq c z (producerWord s.pump.bootId z))
  | none => s

/-- One item opened; BUSY where no entry can be given to it. -/
def State.openItem (s : State) (r : Run) : State :=
  match r.todo with
  | [] => s.endCount stOk r.written
  | i :: _ =>
    let c := ciCistern i
    match s.cached c with
    | some x => (s.openEntry c x r).cisternNext r
    | none =>
      match s.claimEntry c with
      | (none, s) => (s.setRun r).endCount stBusy r.written
      | (some i, s) => (s.openEntry c (Cached.blank i .notOpen s.pump.clock) r).cisternNext r

/-- The fresh fetches of R258, item by item, then the last check and the first item. -/
def State.openFetches (s : State) (r : Run) : State :=
  match (r.cmd.itemList 4)[r.step]? with
  | none =>
    let names := (r.cmd.itemList 4).map ciCistern
    let busy := r.cmd.resets && (List.range names.length).any fun n => s.openNow (names.getD n 0) (r.fetched n 4)
    if busy then (s.setRun r).endCount stBusy 0
    else s.openItem { r.beginItems 4 with acc := r.acc }
  | some i =>
    let c := ciCistern i
    if !r.marked then ({ s with keeper.fetch := none }.cmdFetch c).setRun { r with phase := .engine, marked := true }
    else match s.keeper.fetch with
      | none => s
      | some f =>
        match f.ended with
        | none => s
        | some .read =>
          let acc := r.acc ++ [f.w0.toNat, f.w1.toNat, f.w2.toNat, f.consumed.toNat, f.producer.toNat]
          s.setRun { r with step := r.step + 1, marked := false, acc := acc }
        | some .bad => (s.setRun r).endCount stRange 0
        | some _ => (s.setRun r).endCount stDenied 0

/-- CISTERN_OPEN. -/
def State.cmdOpen (s : State) : State :=
  match s.runOf 0x30 .engine with
  | some r => s.openFetches r
  | none =>
    match s.runOf 0x30 .items with
    | some r => s.openItem r
    | none => s.cisternStart 0x30 fun s r => s.openFetches { r with step := 0, marked := false, acc := [] }

/-! ### CISTERN_CLOSE -/

/-- The writes of the cistern's records are done. -/
def Cached.written (x : Cached) : Bool := x.buffer.isEmpty && x.unacked.isEmpty

/-- The buffer of a cistern that takes no more records is offered. -/
def Cached.offerAll (x : Cached) : Cached := { x with offered := !x.buffer.isEmpty }

/-- The close of a cistern that is cached and open begins. -/
def State.closeBegin (s : State) (c : Nat) (x : Cached) : State :=
  let x := if x.coal = 0 then x else x.makeDue
  (s.setCached c (some { x.offerAll with closing := true })).fireDue c

/-- One step of a CISTERN_CLOSE item: the entry found or fetched, its writes acknowledged, its producer word with
BOOT = 0 acknowledged. R258 has an uncached cistern fetched and gives no outcome where no entry can be given to it: the model
tries the fetch again at each step until one is free (DESIGN CHOICE, log entry 101). -/
def State.closeStep (s : State) (r : Run) : State :=
  match r.todo with
  | [] => s.endCount stOk r.written
  | i :: _ =>
    let c := ciCistern i
    if r.step = 2 then if s.producerOut c then s else s.cisternNext r
    else match s.cached c with
      | none =>
        if r.marked || decide (r.step = 1) then s.cisternNext r
        else match s.startFetch c with
          | (true, s) => s.setRun { r with marked := true }
          | (false, s) => s.setRun r
      | some x =>
        match x.st with
        | .opened =>
          if r.step = 0 then (s.closeBegin c x).setRun { r with step := 1 }
          else if !x.written || s.lineOut c then s
          else
            let s := ((s.updateCached c 2).setCached c none).request (producerReq c x (producerWord 0#16 x))
            s.setRun { r with step := 2 }
        | .notOpen => (s.removeEntry c).cisternNext r
        | .broken _ =>
          if x.written && !s.lineOut c then (s.removeEntry c).cisternNext r
          else (s.setCached c (some x.offerAll)).setRun r
        | _ => s.setRun r

/-- CISTERN_CLOSE. -/
def State.cmdClose (s : State) : State :=
  match s.runOf 0x31 .items with
  | some r => s.closeStep r
  | none => s.cisternStart 0x31 fun s r => s.closeStep { r.beginItems 4 with step := 0 }

/-! ### CISTERN_SYNC -/

/-- The entry has settled: no fetch, no record buffered or held, no write awaiting acknowledgement. -/
def State.settled (s : State) (c : Nat) (x : Cached) : Bool :=
  (match x.st with
    | .level1 => false
    | .descriptor => false
    | .control => false
    | _ => true) && x.written && x.held.isNone && !s.lineOut c && !s.producerOut c

/-- One step of a CISTERN_SYNC item. -/
def State.syncStep (s : State) (r : Run) : State :=
  match r.todo with
  | [] => s.endCount stOk r.written
  | i :: _ =>
    let c := ciCistern i
    match s.cached c with
    | none => s.cisternNext r
    | some x =>
      if r.step = 0 then (s.setCached c (some { x.offerAll with syncing := true })).setRun { r with step := 1 }
      else if r.step = 1 then
        if !s.settled c x then s
        else if x.st = .opened ∧ x.dirty then
          let s := (s.setCached c (some { x with dirty := false })).request (producerReq c x (producerWord s.pump.bootId x))
          s.setRun { r with step := 2 }
        else (s.removeEntry c).cisternNext r
      else if s.producerOut c then s
      else (s.removeEntry c).cisternNext r

/-- CISTERN_SYNC. -/
def State.cmdSync (s : State) : State :=
  match s.runOf 0x32 .items with
  | some r => s.syncStep r
  | none => s.cisternStart 0x32 fun s r => s.syncStep { r.beginItems 4 with step := 0 }

/-! ### CISTERN_FLUSH -/

/-- A notify made due on a cached open cistern with a count. -/
def State.flushOne (s : State) (c : Nat) : State :=
  match s.cached c with
  | some x => if x.st = .opened ∧ x.coal ≠ 0 then (s.setCached c (some x.makeDue)).fireDue c else s
  | none => s

/-- CISTERN_FLUSH. -/
def State.cmdFlush (s : State) : State :=
  let write (i : List Byte) (s : State) : State := s.flushOne (ciCistern i)
  match s.runOf 0x33 .items with
  | some r => s.plainItem r write
  | none => s.cisternStart 0x33 fun s r => s.plainItem (r.beginItems 4) write

end Sys2Proof.Machine
end

