-- ==== Sys2Proof/Machine/Integrity.lean ====
section
/-! DEFINITION. Stored-state integrity at work: walkers, scrub accesses, rebuilds, the re-encode journal, and SNAPSHOT, SCRUB and STRENGTH_SET (R311, R391 to R399). -/

namespace Sys2Proof.Machine

/-! ### Walkers (R392) -/

def State.walker (s : State) (store : Nat) : Walker := look Walker.reset s.integrity.walkers store
def State.setWalker (s : State) (store : Nat) (w : Walker) : State :=
  { s with integrity.walkers := ins Walker.reset s.integrity.walkers store w }

/-- The walker interval, 64 × 2^IVL_LOG FCLK. -/
def State.walkInterval (s : State) : Nat := 64 * 2 ^ bits (s.sampled.reg fIntegrity 0x20) 3 0

/-- The store's walker runs: enabled, not halted, and not paused by a SCRUB pass over the store. -/
def State.walkerRuns (s : State) (store : Nat) : Bool :=
  let ctrl := s.sampled.reg fIntegrity 0x20
  let paused := match s.integrity.pass with
    | some p => p.stores.contains store
    | none => false
  !bit ctrl 31 && bit ctrl (8 + store) && !paused

/-- SCRUB_WALKER_TICK: the interval of a store's walker expires and it requests its next page. -/
def State.walkerTick (s : State) (store : Nat) : State :=
  let w := s.walker store
  if s.running && decide (store < 7) && s.walkerRuns store && decide (w.tickedAt + s.walkInterval ≤ s.clock.dp) then
    s.setWalker store { w with wants := true, tickedAt := s.clock.dp }
  else s

/-- The walker's page is done: the next in physical order, wrapping. -/
def State.walkerStep (s : State) (store : Nat) : State :=
  let w := s.walker store
  if w.next + 1 = Config.storePages store then
    (s.setWalker store { w with next := 0, passes := w.passes + 1 }).count fIntegrity 11
  else s.setWalker store { w with next := w.next + 1 }

/-! ### Scrub accesses (R393, R394) -/

/-- What a page of a SCRUB pass gave, added to the pass's counts (R395). -/
def ScrubPass.add (p : ScrubPass) (store bank page : Nat) (usable corrected heavy : Bool) : ScrubPass :=
  let k := 16 * store + bank
  { p with next := ins 0 p.next k (look 0 p.next k + 1), pages := p.pages + 1,
           corrected := if corrected then p.corrected + 1 else p.corrected,
           heavy := if heavy then p.heavy + 1 else p.heavy,
           uncorr := if usable then p.uncorr else p.uncorr + 1,
           first := if usable then p.first else some (p.first.getD (store * 2 ^ 28 + page)) }

/-- STEP of a running SCRUB is the next page of its pass: the number of pages taken (R302). -/
def State.scrubStep (s : State) : State :=
  match s.keeper.run, s.integrity.pass with
  | some r, some p => if s.scrubRuns then s.setRun { r with step := p.pages } else s
  | _, _ => s

/-- A scrub access has ended: the pass, or the walker, goes on to its next page. An access that the sweep breaks first adds
nothing, and its page is taken again (R195). -/
def State.scrubbed (s : State) (l : Lock) (n : ScrubNow) (usable corrected heavy : Bool) : State :=
  if n.owned then
    { s with integrity.pass := s.integrity.pass.map fun (p : ScrubPass) =>
        p.add l.memory l.bank n.page usable corrected heavy }.scrubStep
  else s.walkerStep l.memory

/-- The syndrome of a scrub access, two edges after its grant. An uncorrectable page is poisoned, and the sequence ends here. -/
def State.scrubVerdict (s : State) (l : Lock) (n : ScrubNow) : State :=
  let r := s.readPage l.memory n.page 0 true n.read
  let heavy := decide (r.2.countOf fIntegrity 4 ≠ s.countOf fIntegrity 4)
  let corrected := r.1.usable && decide (r.1.correction ≠ 0)
  let now : Lock := if r.1.usable then { l with scrub := some { n with found := some (corrected, heavy) } }
    else { l with lasts := s.clock.dp, ended := true }
  let s := { r.2 with sluice.locks := r.2.sluice.locks.map fun (x : Lock) => if x = l then now else x }
  if r.1.usable then s
  else
    let s := if l.memory = 4 then s.breakPage n.page else s
    s.scrubbed l n false false heavy

/-- What the scrub accesses in progress do at this edge: the syndrome at g + 2, the write-back at g + 8, which is made whether or
not the page needed correction (R393). -/
def State.scrubEdges (s : State) : State :=
  s.sluice.locks.foldl
    (fun (s : State) l =>
      match l.scrub with
      | some n =>
        if l.ended then s
        else match n.found with
          | none => if l.grant + 2 ≤ s.clock.dp then s.scrubVerdict l n else s
          | some (c, h) => if l.grant + 8 ≤ s.clock.dp then
              let s := { s with sluice.locks := s.sluice.locks.map fun (x : Lock) => if x = l then { l with ended := true } else x }
              (s.rewriteEpoch l.memory n.page).scrubbed l n true c h
            else s
      | none => s) s

/-- SCRUB_ACCESS: the grant of a scrub access to a bank's next page. The bank is held for nine edges, or three where the
page is uncorrectable. -/
def State.scrubAccess (s : State) (store bank : Nat) (pr : PageRead) : State :=
  if !s.running || !s.scrubBanks.contains (store, bank) || !s.maintWins 1 store bank then s
  else
    let owned := s.passBanks.contains (store, bank)
    let row := match s.integrity.pass with
      | some p => look 0 p.next (16 * store + bank)
      | none => 0
    let page := if owned then row * banksOf store + bank else (s.walker store).next
    let s := s.chargeMaint 1 store bank
    let l : Lock := { memory := store, bank := bank, owner := 3, grant := s.clock.dp, lasts := s.clock.dp + 8, unit := none,
                      ended := false, scrub := some { page := page, read := pr, owned := owned, found := none } }
    let s := { s with sluice.locks := s.sluice.locks ++ [l] }.count fIntegrity 10
    if owned then s else s.setWalker store { s.walker store with wants := false }

/-- PAGE_REBUILD: a page that has a complete copy in flops is rewritten from it (R391). -/
def State.rebuild (s : State) (store page : Nat) : State :=
  if s.running && s.integrity.rebuilds.contains (store, page) && s.maintFree store 0 then
    let s := { s with integrity.rebuilds := s.integrity.rebuilds.filter fun (e : Nat × Nat) => decide (e ≠ (store, page)) }
    (s.unpoison store page).count fIntegrity 9
  else s

/-! ### The re-encode (R398, R399) -/

/-- The first store of a list takes its new strength and its re-encode begins; the others follow. Of those that already have
the new strength, `olds` gives the old one. -/
def State.beginReencode (s : State) (stores : List Nat) (t : Nat) (olds : Tbl (Option Nat)) : State :=
  match stores with
  | [] => { s with integrity.journal := none }
  | st :: rest =>
    let j : Reencode :=
      { store := st, oldT := (look none olds st).getD (s.strengthOf st), newT := t, next := 0, target := t, rest := rest,
        olds := ins none olds st none, running := true }
    { s with integrity.strength := ins 4 s.integrity.strength st t, integrity.journal := some j }

/-- The bits of STORES. -/
def storesOf (mask : Nat) : List Nat := (List.range 7).filter fun i => mask.testBit i

/-- A store re-encoded, noted for the result of the command that named it. -/
def Run.encoded (r : Run) (store t : Nat) : Run :=
  let named := (r.cmd.field 0 2).testBit store && decide (r.cmd.field 2 1 = t)
  let mask := r.acc.getD 0 0
  { r with granted := none, step := r.step + 1, acc := [if named then mask + 2 ^ store else mask] }

/-- The last page of a store is written: the next store begins, or the re-encode ends. -/
def State.storeEncoded (s : State) (j : Reencode) : State :=
  let mine := s.strengthRuns
  let s := match s.keeper.run with
    | some r => if mine then s.setRun (r.encoded j.store j.newT) else s
    | none => s
  let s := s.beginReencode j.rest j.target j.olds
  if mine && j.rest.isEmpty then s.endStrength stOk else s

/-- One page written at the new strength. -/
def State.pageEncoded (s : State) (j : Reencode) : State :=
  let s := s.count fIntegrity 12
  if j.next + 1 = Config.storePages j.store then s.storeEncoded j
  else
    let s := { s with integrity.journal := some { j with next := j.next + 1 } }
    match s.keeper.run with
    | some r => if s.strengthRuns then s.setRun { r with granted := none, step := r.step + 1 } else s
    | none => s

/-- REENCODE_PAGE: the write edge of the granted page. An uncorrectable page is written as read and stays so. -/
def State.reencodePage (s : State) (pr : PageRead) : State :=
  match s.integrity.journal, s.markedLock with
  | some j, some l =>
    if !s.running || !s.keeperAlive || !j.running || decide (l.memory ≠ j.store) || decide (l.grant + 64 ≤ s.clock.dp) then s
    else
      let r := s.readPage j.store j.next 6 false pr
      if s.clock.dp < writeEdge l.grant r.1.correction then s
      else
        let s := (r.2.rewriteEpoch j.store j.next).unlock l.memory l.bank
        let s := if j.store = 4 ∧ !r.1.usable then s.breakPage j.next else s
        s.pageEncoded j
  | _, _ => s

/-! ### SNAPSHOT -/

/-- SNAPSHOT. -/
def State.cmdSnapshot (s : State) : State :=
  match s.runOf 0x40 .fresh with
  | none => s
  | some _ =>
    let s := s.takeSnapshot
    s.endRun stOk (leBytes 4 s.front.snapSeq.toNat)

/-! ### SCRUB (R394, R395) -/

/-- The pass summary. -/
def State.scrubSummary (s : State) (mask : Nat) (p : ScrubPass) : List Byte :=
  let poisoned := (storesOf mask).foldl (fun n st => n + s.poisonCount st) 0
  leBytes 2 mask ++ zeros 2 ++ leBytes 4 p.pages ++ leBytes 4 p.corrected ++ leBytes 4 p.heavy ++ leBytes 4 p.uncorr ++
    leBytes 4 poisoned ++ leBytes 4 (p.first.getD 0xFFFFFFFF) ++ zeros 4

/-- A pass that has checked nothing yet. -/
def ScrubPass.start (stores : List Nat) : ScrubPass :=
  { stores := stores, next := [], pages := 0, corrected := 0, heavy := 0, uncorr := 0, first := none }

/-- Every page of the pass's stores is checked and every access of it ended. -/
def State.passDone (s : State) (p : ScrubPass) : Bool :=
  s.passBanks.isEmpty && p.stores.all fun st => !s.sluice.locks.any fun (l : Lock) =>
    l.scrub.isSome && decide (l.memory = st) && l.holds s.clock.dp

/-- The pass ends when it is done. -/
def State.scrubOn (s : State) (r : Run) : State :=
  match s.integrity.pass with
  | none => s.endZero stAborted
  | some p =>
    let s := s.setRun { r with step := p.pages }
    if !s.passDone p then s
    else { s with integrity.pass := none }.endRun stOk (s.scrubSummary (r.cmd.field 0 2) p)

/-- SCRUB: starts the pass, and returns its summary once every page is checked. -/
def State.cmdScrub (s : State) : State :=
  match s.runOf 0x41 .fresh with
  | some r =>
    let mask := r.cmd.field 0 2
    match s.enterGroup r.cmd with
    | none => s.endZero stBusy
    | some s =>
      if mask = 0 then s.endRun stOk (s.scrubSummary 0 (ScrubPass.start []))
      else { s with integrity.pass := some (ScrubPass.start (storesOf mask)) }.setRun { r with phase := .waiting }
  | none =>
    match s.runOf 0x41 .waiting with
    | some r => s.scrubOn r
    | none => s

/-! ### STRENGTH_SET (R398) -/

/-- The stores that the command must still re-encode from their first page, with its journal's store completed first. -/
def State.strengthList (s : State) (mask t : Nat) : List Nat :=
  (storesOf mask).filter fun st =>
    match s.integrity.journal with
    | some j => if j.store = st then decide (j.newT ≠ t) else decide (s.strengthOf st ≠ t)
    | none => decide (s.strengthOf st ≠ t)

/-- The journal's split store is one that the command names, at the same strength. -/
def State.completes (s : State) (mask t : Nat) : Bool :=
  match s.integrity.journal with
  | some j => mask.testBit j.store && decide (j.newT = t)
  | none => false

/-- STRENGTH_SET: the checks and the start; its pages follow by REENCODE_PAGE. A store that an earlier command left split
is completed first, since there is one journal (log entry 23). -/
def State.cmdStrength (s : State) : State :=
  match s.runOf 0x42 .fresh with
  | none => s
  | some r =>
    let mask := r.cmd.field 0 2
    let t := r.cmd.field 2 1
    if ¬(t = 2 ∨ t = 4 ∨ t = 6 ∨ t = 8) then s.endZero stRange
    else if mask.testBit 5 || mask.testBit 6 then s.endZero stDenied
    else if s.twin.repair.isSome then s.endZero stBusy
    else match s.enterGroup r.cmd with
      | none => s.endZero stBusy
      | some s =>
        let todo := s.strengthList mask t
        if todo.isEmpty && !s.completes mask t then s.endStrength stOk
        else
          let s := s.setRun { r with phase := .items, acc := [0] }
          match s.integrity.journal with
          | some j =>
            { s with integrity.journal := some { j with running := true, target := t, rest := todo } }
          | none => s.beginReencode todo t []

end Sys2Proof.Machine
end

