-- ==== Sys2Proof/Machine/Refill.lean ====
section
/-! DEFINITION. Vault routes and their defaults, the registers an image carries, and the refill of the configuration (R339, R409, R416, R419, R427). -/

namespace Sys2Proof.Machine

/-! ### Vault routes (R149, R213, R270) -/

/-- Vault route n takes an entry, with its fast-table mirror and ZEN_n. A pair put in service while asserted takes
effect from the next edge (R339). -/
def State.setVaultRoute (s : State) (n : Nat) (r : DWord) : State :=
  let was := s.inService n
  let x := 64 + n
  let s := { s with routes.vault := ins 0#64 s.routes.vault x r }
  let f := s.ft x
  let s := s.setFt x { c0 := ftMirror f.c0 r, c1 := ftMirror f.c1 r, c2 := ftMirror f.c2 r }
  let s := s.setZen n (rtEnable r)
  let s := if was = s.inService n then s else s.pairDue n (s.clock.edge + 1) (s.inService n)
  s.recheck

/-- The vault routes, their mirrors and ZEN_n take their fuse defaults (R348, R409). -/
def State.loadVaults (s : State) : State :=
  (List.range 8).foldl
    (fun (s : State) n => s.setVaultRoute n (BitVec.ofNat 64 ((s.fuse (fwVault n)).getD vaultFallback.toNat))) s

/-! ### The registers an image carries (R416) -/

/-- Registers of frames 0x02 to 0x27 that images leave out: the selectors, SPILL_CONSUMED, FL_LAT_MAX, TWIN_CTRL and
DC_WINDOW. -/
def imageSkips (f o : Nat) : Bool :=
  decide (f = fReservoir ∧ o = 0x20) || decide (f = fFast ∧ (o = 0x24 ∨ o = 0x38 ∨ o = 0x34)) ||
    decide (f = fPump ∧ (o = 0x44 ∨ o = 0x38)) || decide (f = fIntegrity ∧ (o = 0x2C ∨ o = 0x3C)) ||
    decide (f = fTwin ∧ o = 0x20) || decide (f = fFuse ∧ o = 0x30)

/-- The offsets of a frame at which registers lie. -/
def regOffsets : List Nat :=
  (List.range 248).map (fun i => 0x20 + 4 * i) ++ (List.range 512).map fun i => 0x800 + 4 * i

/-- The RW and RWL registers of the global frames, by frame and offset, in increasing order. -/
def imageRegs : List (Nat × Nat) :=
  ((List.range 38).map fun i =>
    (regOffsets.filter fun o => (regInfo (2 + i) o).isSome && !imageSkips (2 + i) o).map fun o => (2 + i, o)).flatten

/-- A frame of the group pages. -/
def isGroupFrame (f : Nat) : Bool := decide (fGroup 0 ≤ f) && decide (f < fPump)

/-- The value of a carried register: its writable bits. -/
def State.imageReg (s : State) (f o : Nat) : Word :=
  let mask := match regInfo f o with
    | some i => i.mask
    | none => 0#32
  s.readReg f o &&& mask

/-- Every unlocked register of R416 takes its reset value; group registers follow their store. -/
def State.resetRegs (s : State) : State :=
  imageRegs.foldl
    (fun (s : State) e =>
      match regInfo e.1 e.2 with
      | some i => if isGroupFrame e.1 || s.locked e.1 i.group then s else s.storeReg e.1 e.2 i.reset
      | none => s) s

/-! ### The refill (R419, R427) -/

/-- The hardware fill of the route, rights and group stores: every entry zero, no page poisoned, EPOCH that of the key in
force. -/
def State.fillStores (s : State) : State :=
  let others (e : Nat × Bool) : Bool :=
    decide (e.1 / 65536 ≠ 0) && decide (e.1 / 65536 ≠ 1) && decide (e.1 / 65536 ≠ 3)
  let keep (w : Well) : Well := { w with poison := w.poison.filter others }
  let s := (s.modWell false keep).modWell true keep
  let r := { s.routes with entries := [], mirror := [] }
  let s := { s with routes := r, gate.rights := [] }
  let fast := s.routes.fast.filterMap fun e =>
    let clear (w : Word) : Word := ftMirror w 0#64
    let f : Ft := { c0 := clear e.2.c0, c1 := clear e.2.c1, c2 := clear e.2.c2 }
    if e.1 < 72 then some e else if f = Ft.all 0#32 then none else some (e.1, f)
  let s := { s with routes.fast := fast }
  let s := (List.range 16384).foldl
    (fun (s : State) p => (s.setEpoch 0 p (s.routes.rt.slotFor (p / 16))).setEpoch 1 p (s.routes.rg.slotFor (p / 16))) s
  (keys s.sluice.groups).foldl (fun (s : State) g => (s.setGrpCfg g 0#32).setGrpHold g 0) s

/-- Fast-table EN of entries 72 to 4,095 cleared. -/
def State.clearFastEn (s : State) : State :=
  { s with routes.fast := s.routes.fast.filterMap fun e =>
      let off (w : Word) : Word := setBit w 31 false
      let f : Ft := { c0 := off e.2.c0, c1 := off e.2.c1, c2 := off e.2.c2 }
      if e.1 < 72 then some e else if f = Ft.all 0#32 then none else some (e.1, f) }

/-- Every host on half A again. -/
def State.resetRulesets (s : State) : State :=
  let swaps := (List.range 64).foldl
    (fun t h => if bit s.gate.setB h then ins none t h (some s.clock.dp) else t) s.gate.swapAt
  { s with gate.setB := 0#64, gate.swapAt := swaps }

/-- The configuration refilled to its READY state. -/
def State.refillConfig (s : State) : State :=
  (s.fillStores.clearFastEn.emptyCaches.resetRegs.resetRulesets).recheck

/-- A failed pass two is followed by the refill, and the officer slots are emptied if the restore filled them (R419). -/
def State.undoApply (s : State) (i : Image) : State :=
  let s := State.refillConfig { s with front.waiting := s.front.waiting.filter fun (a : Access) => !a.keeper }
  let s := if i.filledOfficers then { s with keeper.officers := [] } else s
  { s with startup.image := none, startup.restoreJournal := false }

/-- Pass two of a restore that no command carries on any more is followed by the refill (R413, R419). -/
def State.tidyImage (s : State) : State :=
  match s.startup.image with
  | none => s
  | some i =>
    let running : Bool := match s.keeper.run with
      | some r => decide (r.cmd.opcode = 0x51#8)
      | none => false
    let live : Bool := (s.tokensOf 2).any fun h => match s.token h with
      | some t => decide (t.opcode = 0x51#8)
      | none => false
    if decide (i.step ≠ .apply) || running || live || !s.startup.ready then s
    else s.undoApply i

/-! ### Restore-factory (R427) -/

/-- Every descriptor-cache entry discarded without a producer-word write; the records still buffered leave for the
spillway (log entry 29). -/
def State.discardCache (s : State) : State :=
  let items := s.pump.cache.filterMap fun e => e.2.map fun x => x.buffer
  let s := { s with pump.cache := [] }
  items.flatten.foldl (fun (s : State) b => s.spillRec (b.item.as 0x10)) s

/-- A drawn BOOT_ID (R237). -/
def bootOf (w : DWord) : BitVec 16 := if w.setWidth 16 = 0#16 then 1#16 else w.setWidth 16

/-- Step 1 begins: the next user-epoch step's copies are to be programmed. -/
def State.factoryBegin (s : State) : State :=
  { s with startup.factoryStep := 1, fuses.programming := burnPlan [fwEpoch s.userEpoch],
           fuses.programmedAt := s.clock.edge }

/-- Step 1 ends and step 2 is made: the epoch increases and every officer slot is emptied. -/
def State.factoryBurned (s : State) : State :=
  { s with fuses.epochAdd := s.fuses.epochAdd + 1, keeper.officers := [], startup.factoryStep := 3 }

/-- Steps 3 and 4, with the random word that gives the new BOOT_ID. -/
def State.factoryReset (s : State) (w : DWord) : State :=
  let s := s.refillConfig.loadVaults.discardCache
  let s := { s with pump.bootId := bootOf w, startup.factoryStep := 0 }
  let s := if s.locked fFuse (some 1) then s else { s with clock.dcStaged := 0#20, clock.slowPend := true, clock.dcAt := some s.clock.edge }
  s.count fLife 11

end Sys2Proof.Machine
end

