-- ==== Sys2Proof/Machine/CmdIdentity.lean ====
section
/-! DEFINITION. Dual control, officers and identity: STAGE to STAGE_CANCEL, COMMISSION, OFFICER_LIST, ATTEST, CERT_READ, SHA256, CONFIG_DIGEST (R325 to R347). -/

namespace Sys2Proof.Machine

/-! ### Digests (R334, R345, R347) -/

/-- A public key's bytes, X then Y. -/
def keyBytes (k : PubKey) : List Byte := beBytes 32 k.x ++ beBytes 32 k.y

/-- The public key that 64 bytes spell. -/
def keyOf (l : List Byte) : PubKey := { x := ofBe (l.take 32), y := ofBe ((l.drop 32).take 32) }

/-- The bytes of an officer slot. -/
def State.slotBytes (s : State) (i : Nat) : List Byte :=
  match s.officer i with
  | some k => keyBytes k
  | none => zeros 64

/-- SLOT_DIGEST. -/
def State.slotDigest (s : State) : List Byte :=
  sha256 (ascii "AHN-OS01" ++ ((List.range 8).map fun i =>
    (if (s.officer i).isSome then 1#8 else 0#8) :: s.slotBytes i).flatten)

/-- The certificate in DER. -/
def State.certificate (s : State) : List Byte :=
  leBytes (min ((s.fuse fwCertLen).getD 0) 640) ((s.fuse fwCert).getD 0)

/-- The coordinates of the identity public key, X then Y: scalar times G, which is also the subject public key of the
certificate (R345). A part whose scalar words spell no private key has what its certificate says (log entry 7). -/
def State.identityKey (s : State) : List Byte :=
  let d := (s.fuse fwScalar).getD 0
  if d = 0 ∨ p256n ≤ d then Config.certKey s.certificate
  else
    let q := jacMul 256 d baseG jacInf
    beBytes 32 q.affX ++ beBytes 32 q.affY

/-- DEVICE_ID (R334). -/
def State.deviceId (s : State) : List Byte := sha256 s.identityKey

/-- ROUTE_DIGEST, RIGHTS_DIGEST and VAULT_DIGEST. -/
def State.routeDigest (s : State) : List Byte :=
  sha256 (ascii "AHN-RT01" ++ ((List.range 131000).map fun i => leBytes 8 (s.route (72 + i)).toNat).flatten)
def State.rightsDigest (s : State) : List Byte :=
  sha256 (ascii "AHN-RG01" ++ ((List.range 65536).map fun i => leBytes 16 (s.rightsEntry i).toNat).flatten)
def State.vaultDigest (s : State) : List Byte :=
  sha256 (ascii "AHN-VR01" ++ ((List.range 8).map fun n => leBytes 8 (s.route (64 + n)).toNat).flatten)

/-! ### Staging (R330 to R333) -/

/-- The SCRUB and STRENGTH_SET group is busy: a command of it runs or holds a token, a commit's re-encode runs, or a re-pair
attempt does (R331, R339, R374). -/
def State.scrubGroupTaken (s : State) : Bool :=
  !(s.tokensOf 1).isEmpty || s.reencodeHolds ||
    match s.keeper.run with
    | some r => decide (opGroup r.cmd.opcode.toNat = some 1)
    | none => false

/-- The group counts as busy while a re-pair attempt runs too (R374). -/
def State.scrubGroupBusy (s : State) : Bool := s.scrubGroupTaken || s.twin.repair.isSome

/-- BODY of a STAGE payload. -/
def Cmd.body (c : Cmd) : List Byte := c.payload.drop 4

/-- A field of a body. -/
def bodyField (b : List Byte) (off n : Nat) : Nat := ofLe ((b.drop off).take n)

/-- The ENTRY of a vault-route body. -/
def vaultEntry (b : List Byte) : DWord := BitVec.ofNat 64 (bodyField b 4 8)

def vaultEntryBad (r : DWord) : Bool :=
  decide (bits r 63 44 ≠ 0) || !rtVault r || decide (rtOwner r ≠ 0) || rtMode r || decide (rtCistern r ≠ 0) ||
    decide (256 < rtTarget r) || (rtClass r && decide (rtTarget r = 256))

/-- T of a strength change may be set. -/
def strengthOk (t : Nat) : Bool := decide (t = 2) || decide (t = 4) || decide (t = 6) || decide (t = 8)

/-- The body checks of R331. -/
def State.bodyChecks (s : State) (kind : Nat) (b : List Byte) : Nat :=
  let res (offs : List Nat) : Bool := offs.any fun o => decide (bodyField b o 1 ≠ 0)
  let slot := bodyField b 0 1
  if kind = 1 then
    firstFail [(stRange, decide (7 < bodyField b 0 1)), (stRange, res [1, 2, 3]), (stRange, vaultEntryBad (vaultEntry b))]
  else if kind = 2 then
    let k := keyOf (b.drop 4)
    firstFail [(stRange, decide (7 < slot)), (stRange, res [1, 2, 3]),
      (stDenied, (s.officer slot).isSome || (List.range 8).any fun i => decide (s.officer i = some k))]
  else if kind = 3 then
    firstFail [(stRange, decide (7 < slot)), (stRange, res [1, 2, 3]),
      (stDenied, (s.officer slot).isNone || decide (s.officers = 2))]
  else if kind = 4 then firstFail [(stDenied, decide (64 ≤ s.userEpoch))]
  else
    let mask := bodyField b 0 2
    firstFail [(stRange, decide (128 ≤ mask) || decide (mask / 32 % 4 = 0) || !strengthOk (bodyField b 2 1)), (stRange, res [3]),
      (stBusy, s.scrubGroupBusy)]

/-- Checks 1 to 5 of R330. -/
def State.stageChecks (s : State) (c : Cmd) : Nat :=
  let kind := c.field 0 1
  let st := firstFail [(stBusy, s.keeper.staged.isSome), (stRange, (bodyLen kind).isNone), (stDenied, s.anyMarg),
    (stDenied, decide (s.officers < 2))]
  if st ≠ stOk then st else s.bodyChecks kind c.body

/-- The bytes of random words in order of receipt. -/
def wordBytes (l : List DWord) : List Byte := (l.map fun w => leBytes 8 w.toNat).flatten

/-- The window W. -/
def State.window (s : State) : Nat := if s.clock.dcWindow = 0#20 then 75000 else s.clock.dcWindow.toNat

/-- The change staged at this edge: its record of R332, with the message of R333. -/
def State.stageRecord (s : State) (c : Cmd) (words : List DWord) : Staged :=
  let b := c.body
  let nonce := wordBytes words
  let wend := s.sampled.clock.sclkCount + BitVec.ofNat 32 s.window
  let slots := s.slotDigest
  let m := ascii "AHN-DC01" ++ s.deviceId ++ leBytes 4 s.keeper.nextStage.toNat ++ leBytes 1 (c.field 0 1) ++
    leBytes 1 s.userEpoch ++ leBytes 2 b.length ++ nonce ++ slots ++ leBytes 4 wend.toNat ++ b
  { stageId := s.keeper.nextStage, kind := BitVec.ofNat 8 (c.field 0 1), body := b, nonce := nonce, windowEnd := wend,
    slotDigest := slots, userEpoch := BitVec.ofNat 8 s.userEpoch, digest := sha256 m, approvals := [] }

/-- A staged change's result of STAGE. -/
def Staged.result (g : Staged) : List Byte :=
  leBytes 4 g.stageId.toNat ++ leBytes 4 g.windowEnd.toNat ++ g.nonce ++ g.digest

/-- The record written: the change is staged. -/
def State.stageNow (s : State) (g : Staged) : State :=
  { s with keeper.staged := some g, keeper.nextStage := if g.stageId = 0xFFFFFFFF#32 then 1#32 else g.stageId + 1 }

/-- A run leaves the keeper for the engine queue. -/
def State.toEngine (s : State) (r : Run) (lasts : Nat) : State :=
  ({ s with keeper.run := none, keeper.words := [], keeper.wordsAt := none, keeper.digesting := false }).enqueue r lasts

/-- STAGE: the checks, the wait for four random words, then the record; kind 0x02 validates its key first. -/
def State.cmdStage (s : State) : State :=
  match s.runOf 0x60 .fresh with
  | some r =>
    let st := s.stageChecks r.cmd
    if st ≠ stOk then s.endZero st else s.askWords r
  | none =>
    match s.runOf 0x60 .random, s.gotWords 4 with
    | some r, some ws =>
      if r.cmd.field 0 1 = 2 then s.toEngine { r with phase := .engine, acc := ws.map BitVec.toNat } Config.validateK
      else
        let g := s.stageRecord r.cmd ws
        (s.stageNow g).endRun stOk g.result
    | _, _ => s

/-- The validation of an enrolment's key ended. -/
def State.stageValidated (s : State) (e : EngineEntry) : State :=
  let k := keyOf (e.run.cmd.body.drop 4)
  if !validKey k.x k.y then s.endEngine e stBadKey e.run.cmd.blank
  else
    let g := s.stageRecord e.run.cmd (e.run.acc.map fun n => BitVec.ofNat 64 n)
    (s.stageNow g).endEngine e stOk g.result

/-- STAGE_STATUS. -/
def State.cmdStageStatus (s : State) : State :=
  match s.runOf 0x62 .fresh with
  | none => s
  | some r =>
    match s.keeper.staged with
    | none => s.endRun stOk r.cmd.blank
    | some g =>
      s.endRun stOk (leBytes 4 g.stageId.toNat ++ [g.kind, BitVec.ofNat 8 g.approvals.length] ++ zeros 2 ++
        leBytes 4 g.windowEnd.toNat ++ g.nonce ++ g.digest)

/-- STAGE_CANCEL. -/
def State.cmdStageCancel (s : State) : State :=
  match s.runOf 0x63 .fresh with
  | none => s
  | some r =>
    match s.keeper.staged with
    | some g =>
      if r.cmd.field 0 4 = g.stageId.toNat then (s.endStaged.count fLife 6).endRun stOk []
      else s.endRun stStale []
    | none => s.endRun stStale []

/-- SCLK_COUNT has reached a count. -/
def reached (now end_ : Word) : Bool := decide ((now - end_).toNat < 2 ^ 31)

/-- SCLK_COUNT after this edge: an SCLK edge counts at its own edge. -/
def State.sclkNow (s : State) : Word :=
  if s.clock.edge % Config.sclk = 0 ∧ s.clock.nextSclk ≤ s.clock.edge then s.clock.sclkCount + 1#32 else s.clock.sclkCount

/-- STAGE_EXPIRE: the window of the staged change closes (R338). -/
def State.stageExpire (s : State) : State :=
  match s.keeper.staged with
  | some g => if reached s.sclkNow g.windowEnd then s.endStaged.count fLife 5 else s
  | none => s

/-! ### Approvals (R335 to R339) -/

/-- The result of an APPROVE. -/
def approval (n c : Nat) : List Byte := leBytes 1 n ++ leBytes 1 c ++ zeros 2

/-- An approval at the head of the queue is answered without verification. -/
def State.answerHead (s : State) (e : EngineEntry) (status : Nat) : State := s.endEngine e status (approval 0 0)

/-- Checks 1 to 5 of R336 at the head of the queue. -/
def State.approveChecks (s : State) (c : Cmd) : Nat :=
  let id := c.field 0 4
  let slot := c.field 4 1
  let ended := decide (c.stagedAt = some id) && s.keeper.endedStages.any fun w => decide (w.toNat = id)
  let staged := match s.keeper.staged with
    | some g => decide (g.stageId.toNat = id)
    | none => false
  let recorded := match s.keeper.staged with
    | some g => g.approvals.contains slot
    | none => false
  firstFail [(stRange, decide (7 < slot)), (stVoided, ended), (stStale, !staged), (stDenied, (s.officer slot).isNone),
    (stDuplicate, recorded)]

/-- APPROVE: an approval that has reached the head of the engine queue is checked, and its verification starts. -/
def State.approveHead (s : State) : State :=
  if !s.keeperGoes || !s.atKclk then s else
  match s.keeper.engine with
  | [] => s
  | e :: rest =>
    let c := e.run.cmd
    if c.opcode ≠ 0x61#8 ∨ e.started.isSome then s
    else
      let s := s.setBox c.host { s.box c.host with st := .running }
      if c.unreadable then s.endEngine e stUncorr []
      else match s.check c with
        | .status st refused =>
          if refused then (s.dequeue.count fKeeper 4).finish c st [] else s.dequeue.finish c st c.blank
        | .proceed =>
          let st := s.approveChecks c
          if st ≠ stOk then s.answerHead e st
          else { s with keeper.engine := { e with started := some s.clock.dp, lasts := Config.verifyK } :: rest }

/-- A strength change by a commit: STRENGTH of every store of the mask takes T at once, and those not yet at T are re-encoded one
after another; a store left split before is completed first (R339, R398, log entry 23). -/
def State.startReencode (s : State) (mask t : Nat) : State :=
  let todo := s.strengthList mask t
  let from_ (olds : Tbl (Option Nat)) : Tbl (Option Nat) := todo.foldl (fun m st => ins none m st (some (s.strengthOf st))) olds
  let all := todo.foldl (fun m st => ins 4 m st t) s.integrity.strength
  let u := { s with integrity.strength := all }
  match s.integrity.journal with
  | some j =>
    { u with integrity.journal := some { j with running := true, target := t, rest := todo, olds := from_ j.olds } }
  | none => u.beginReencode todo t (from_ [])

/-- The effects of a commit, the restore-factory sequence begun (R339). -/
def State.commitEffect (s : State) (g : Staged) : State :=
  let b := g.body
  let kind := g.kind.toNat
  if kind = 1 then s.setVaultRoute (bodyField b 0 1) (vaultEntry b)
  else if kind = 2 then
    { s with keeper.officers := ins none s.keeper.officers (bodyField b 0 1) (some (keyOf (b.drop 4))) }
  else if kind = 3 then { s with keeper.officers := ins none s.keeper.officers (bodyField b 0 1) none }
  else if kind = 4 then s.factoryBegin
  else s.startReencode (bodyField b 0 2) (bodyField b 2 1)

/-- The change commits: counted, raised and applied at this edge; a restore-factory keeps its approval until it ends. -/
def State.commitStaged (s : State) (e : EngineEntry) (g : Staged) : State :=
  let kind := g.kind.toNat
  if kind = 5 && s.scrubGroupBusy then s.voidStaged.answerHead e stVoided
  else
    let s := { s with keeper.staged := none }.event fLife 3 146
    let s := s.commitEffect g
    if kind = 4 then { s with keeper.engine := { e with ended := true } :: s.keeper.engine.tail }
    else s.endEngine e stOk (approval 2 1)

/-- The verification of an approval has ended (R337). -/
def State.approvalDone (s : State) (e : EngineEntry) : State :=
  let c := e.run.cmd
  let slot := c.field 4 1
  match s.keeper.staged with
  | none => s.answerHead e stVoided
  | some g =>
    if g.stageId.toNat ≠ c.field 0 4 then s.answerHead e stVoided
    else
      let r := ofBe (c.slice 8 32)
      let v := ofBe (c.slice 40 32)
      let valid := match s.officer slot with
        | some k => verifySig k g.digest r v
        | none => false
      if !valid then s.voidStaged.answerHead e stBadSig
      else if g.approvals.isEmpty then
        { s with keeper.staged := some { g with approvals := [slot] } }.endEngine e stOk (approval 1 0)
      else s.commitStaged e g

/-- APPROVAL_VERIFIED: expiry first where it falls at the same edge, then the outcome. -/
def State.approvalVerified (s : State) : State :=
  if !s.keeperGoes || !s.atKclk || !s.atBoundary then s else
  match s.engineReady with
  | some e => if e.run.cmd.opcode = 0x61#8 then s.stageExpire.approvalDone e else s
  | none => s

/-- The approval that began a restore-factory returns when the sequence ends. -/
def State.factoryReturn (s : State) : State :=
  match s.keeper.engine with
  | e :: _ => if e.ended && decide (e.run.cmd.opcode = 0x61#8) then s.endEngine e stOk (approval 2 1) else s
  | [] => s

/-! ### Officers (R328, R314) -/

def Cmd.keyA (c : Cmd) : PubKey := keyOf (c.slice 4 64)
def Cmd.keyB (c : Cmd) : PubKey := keyOf (c.slice 68 64)

/-- COMMISSION: the checks, then both validations on the engine. -/
def State.cmdCommission (s : State) : State :=
  match s.runOf 0x70 .fresh with
  | none => s
  | some r =>
    let a := r.cmd.field 0 1
    let b := r.cmd.field 1 1
    let st := firstFail [(stRange, decide (7 < a) || decide (7 < b) || decide (a = b)),
      (stDenied, decide (r.cmd.keyA = r.cmd.keyB))]
    if st ≠ stOk then s.endZero st else s.toEngine { r with phase := .engine } (2 * Config.validateK)

/-- Both validations ended: checks 3 to 5 and the commit. -/
def State.commissionDone (s : State) (e : EngineEntry) (presence : Bool) : State :=
  let c := e.run.cmd
  let st := firstFail [(stBadKey, !validKey c.keyA.x c.keyA.y), (stBadKey, !validKey c.keyB.x c.keyB.y),
    (stDenied, !s.factoryClean || !presence)]
  if st ≠ stOk then s.endEngine e st []
  else
    let slots := ins none (ins none s.keeper.officers (c.field 0 1) (some c.keyA)) (c.field 1 1) (some c.keyB)
    ({ s with keeper.officers := slots }.count fLife 7).endEngine e stOk []

/-- OFFICER_LIST. -/
def State.cmdOfficerList (s : State) : State :=
  match s.runOf 0x71 .fresh with
  | none => s
  | some _ => s.endRun stOk (leBytes 1 s.occupied ++ zeros 3 ++ s.slotDigest ++ ((List.range 8).map s.slotBytes).flatten)

/-! ### Identity (R343, R345, R346) -/

/-- A digest's run begins to read its stores. -/
def State.beginDigest (s : State) (r : Run) : State :=
  State.setRun { s with keeper.digesting := true } { r with phase := .items, step := 0 }

/-- The pages of a digest's stores that were not clean in both wells, as its reads found them (R386 to R390): whether every page
could be used. A digest ends at the first page that could not. -/
def State.digestPages (s : State) (found : List SweptPage) : Bool × State :=
  found.foldl
    (fun (acc : Bool × State) p =>
      if !acc.1 then acc
      else
        let r := acc.2.readPage p.store.toNat p.index.toNat 3 false p.page
        (r.1.usable, r.2)) (true, s)

/-- What a digest that has stopped reading has: nothing yet, or whether it read every page. A poisoned page counts a hit and
ends it (R390). -/
def State.digestEnd (s : State) (r : Run) (found : List SweptPage) : Option (Bool × State) :=
  if s.digestNext.isSome then none
  else if s.digestAt.isSome then some (false, s.count fIntegrity 8)
  else some (s.digestPages (found.filter fun (p : SweptPage) => decide (p.store.toNat < 2) && r.scope.testBit p.store.toNat))

/-- The attestation report. -/
def State.report (s : State) (nonce : List Byte) : List Byte :=
  let flags := (if s.keeper.staged.isSome then 1 else 0) + (if s.factoryClean then 2 else 0) + (if s.mirrorOk then 4 else 0)
  ascii "AHN-AT01" ++ leBytes 2 1 ++ leBytes 1 s.lifecycle ++ leBytes 1 s.userEpoch ++ leBytes 4 keepVersion.toNat ++
    leBytes 8 ((s.fuse fwSerial).getD 0) ++ leBytes 4 s.sampled.clock.sclkCount.toNat ++ leBytes 2 s.pump.bootId.toNat ++
    leBytes 1 flags ++ zeros 1 ++ nonce ++ s.routeDigest ++ s.rightsDigest ++ s.vaultDigest ++ s.slotDigest ++ s.deviceId

/-- A signing nonce from four random words; none when out of range. -/
def nonceOf (ws : List DWord) : Option Nat :=
  let k := ofBe (ws.map fun w => beBytes 8 w.toNat).flatten
  if k = 0 ∨ p256n ≤ k then none else some k

/-- The digests of an ATTEST are read: the report, and the wait for a nonce. -/
def State.attestRead (s : State) (r : Run) (found : List SweptPage) : State :=
  match s.digestEnd r found with
  | none => s
  | some (true, t) => State.askWords { t with keeper.digesting := false } { r with todo := [t.report (r.cmd.slice 0 32)] }
  | some (false, t) => t.endZero stAborted

/-- The nonce of an ATTEST has come: the engine signs. -/
def State.attestNonce (s : State) (r : Run) : State :=
  match s.gotWords 4 with
  | some ws =>
    match nonceOf ws with
    | some k => s.toEngine { r with phase := .engine, acc := [k] } Config.signK
    | none => { s with keeper.words := s.keeper.words.drop 4 }
  | none => s

/-- ATTEST: the reading of the stores, the digests and the report, then the wait for a nonce, then the engine. -/
def State.cmdAttest (s : State) (found : List SweptPage) : State :=
  match s.runOf 0x80 .fresh with
  | some r => if s.anyMarg then s.endZero stMarginal else s.beginDigest r
  | none =>
    match s.runOf 0x80 .items with
    | some r => s.attestRead r found
    | none =>
      match s.runOf 0x80 .random with
      | some r => s.attestNonce r
      | none => s

/-- The signing attempt ended: the result, or a further attempt with a new nonce. -/
def State.attestSigned (s : State) (e : EngineEntry) : State :=
  let rep := e.run.todo.headD []
  match signWith ((s.fuse fwScalar).getD 0) (e.run.acc.headD 0) (sha256 rep) with
  | some (r, v) => s.endEngine e stOk (leBytes 2 rep.length ++ zeros 2 ++ rep ++ beBytes 32 r ++ beBytes 32 v)
  | none =>
    let run := { e.run with acc := [], askedAt := some s.clock.dp }
    { s with keeper.engine := { e with ended := true, run := run } :: s.keeper.engine.tail }

/-- A random word for a signing that must be attempted again. -/
def State.attestWord (s : State) (e : EngineEntry) (w : DWord) : State :=
  let acc := e.run.acc ++ [w.toNat]
  let put (e : EngineEntry) : State := { s with keeper.engine := e :: s.keeper.engine.tail }
  if acc.length < 4 then put { e with run := { e.run with acc := acc } }
  else match nonceOf (acc.map fun n => BitVec.ofNat 64 n) with
    | some k => put { e with run := { e.run with acc := [k] }, ended := false, started := some s.clock.dp }
    | none => put { e with run := { e.run with acc := [] } }

/-- CERT_READ. -/
def State.cmdCertRead (s : State) : State :=
  match s.runOf 0x81 .fresh with
  | none => s
  | some _ =>
    if s.anyMarg then s.endZero stMarginal
    else s.endRun stOk (leBytes 2 s.certificate.length ++ zeros 2 ++ s.certificate)

/-- SHA256. -/
def State.cmdSha (s : State) : State :=
  match s.runOf 0x90 .fresh with
  | none => s
  | some r => s.endRun stOk (sha256 r.cmd.payload)

/-- The digests that a SCOPE names, in bit order (R315, R347). -/
def State.digestsOf (s : State) (scope : Nat) : List Byte :=
  let parts : List (Nat × List Byte) :=
    [(0, s.routeDigest), (1, s.rightsDigest), (2, s.vaultDigest), (3, s.slotDigest)]
  ((parts.filter fun (e : Nat × List Byte) => scope.testBit e.1).map Prod.snd).flatten

/-- CONFIG_DIGEST: the reading of the stores in its scope, then the digests. -/
def State.cmdConfigDigest (s : State) (found : List SweptPage) : State :=
  match s.runOf 0x91 .fresh with
  | some r => if r.scope.testBit 0 || r.scope.testBit 1 then s.beginDigest r else s.endRun stOk (s.digestsOf r.scope)
  | none =>
    match s.runOf 0x91 .items with
    | some r =>
      match s.digestEnd r found with
      | none => s
      | some (true, t) => t.endRun stOk (t.digestsOf r.scope)
      | some (false, t) => t.endRun stUncorr (zeros (t.digestsOf r.scope).length)
    | none => s

end Sys2Proof.Machine
end

