-- ==== Sys2Proof/Machine/CmdService.lean ====
section
/-! DEFINITION. Service commands: VAULT_REARM, standby, SELF_TEST, LIFECYCLE_ADVANCE, fuse programming and re-sense, TWIN_STATUS, TWIN_SWAP, the end of engine operations (R272, R276, R297, R316, R317, R350, R378, R423, R425). -/

namespace Sys2Proof.Machine

/-! ### VAULT_REARM (R272) -/

/-- The pair may not be rearmed: asserted, a wire filtered asserted, or its pins meet the asynchronous condition. -/
def State.pairBusy (s : State) (n : Nat) (pins : BitVec 8) : Bool :=
  (s.pair n).pAtEdge s.clock.edge || s.pairA n || s.pairB n || bit pins n

/-- VAULT_REARM: the named latches of both wells cleared at one edge; a command that names none counts none. `pins` are the pairs whose pins meet the
asynchronous condition. -/
def State.cmdRearm (s : State) (pins : BitVec 8) : State :=
  match s.runOf 0x04 .fresh with
  | none => s
  | some r =>
    let named := r.cmd.field 0 1
    let ns := (List.range 8).filter fun n => named.testBit n
    if ns.any fun n => s.pairBusy n pins then s.endRun stBusy []
    else
      let s := s.modIslands fun i => { i with z := i.z &&& ~~~(BitVec.ofNat 8 named) }
      let s := ns.foldl (fun (s : State) n => s.setPair n { s.pair n with seen := false }) s
      (if ns.isEmpty then s else s.count fStandby 5).endRun stOk []

/-! ### Standby (R276) -/

/-- Every port masked or unmasked. -/
def State.maskPorts (s : State) (v : Bool) : State :=
  (List.range 16).foldl
    (fun (s : State) p =>
      if v && !(s.port p).isMasked then
        ((s.discardNow p).modPort p fun x => { x.discardAll with masked := true }).event (fPort p) 11 135
      else s.modPort p fun x => { x with masked := v }) s

/-- STANDBY_ENTER: BUSY, or the ports masked and the wait for the drain. -/
def State.cmdStandby (s : State) : State :=
  match s.runOf 0x03 .fresh with
  | none => s
  | some r =>
    if s.levels.stbyOk || s.twin.repair.isSome || !s.keeper.tokens.isEmpty then s.endRun stBusy []
    else (s.maskPorts true).setRun { r with phase := .waiting, acc := [s.clock.dp] }

/-- A request writes to memory. -/
def isWrite (q : OutReq) : Bool := !q.kind.isRead

/-- Every accepted doorbell has settled and every outbound write has been acknowledged. -/
def State.drained (s : State) : Bool :=
  (s.ports.all fun e => e.2.unsettled.isEmpty) && !s.pump.tier1.any isWrite && !s.pump.staging.any isWrite &&
    s.pump.rewrites.isEmpty && s.pump.left.isEmpty && (s.pump.issued.all fun a => a.timedOut || !isWrite a.req) && s.pump.spill.buffer.isEmpty &&
    s.pump.cache.all fun e => match e.2 with
      | some x => x.buffer.isEmpty
      | none => true

/-- The bits of a two-word register of 56 lines. -/
def State.lineBits (s : State) (f lo hi : Nat) : BitVec 56 := (joinWords (s.reg f lo) (s.reg f hi)).setWidth 56

/-- Steps 4 to 6 of R276. -/
def State.standbyNow (s : State) : State :=
  let s := (keys s.cores).foldl (fun (s : State) n => (s.withdrawN n).withdrawF n) s
  let en := s.lineBits fLevel 0x20 0x24
  let pol := s.lineBits fLevel 0x28 0x2C
  let mask := s.lineBits fStandby 0x20 0x24
  let s := s.modIslands fun i =>
    { i with lvEn := en, lvPol := pol, wakeMask := mask, levels := 0#56, standby := true }
  ({ s with levels.stbyOk := true }.count fStandby 3).mirrorHealth

/-- STANDBY_DRAIN_DONE: steps 3 to 6 of R276. -/
def State.drainDone (s : State) : State :=
  match s.runOf 0x03 .waiting with
  | none => s
  | some _ => if s.drained then (s.voidStaged.standbyNow).endRun stOk [] else s

/-- STANDBY_DRAIN_TIMEOUT: the drain has taken 65,536 FCLK. -/
def State.drainTimeout (s : State) : State :=
  match s.runOf 0x03 .waiting with
  | none => s
  | some r =>
    if r.acc.headD 0 + Config.timeout ≤ s.clock.dp ∧ !s.drained then (s.maskPorts false).endRun stAborted []
    else s

/-! ### SELF_TEST (R317, R396, R444) -/

/-- Tests that fail have the consequences of a failed start-up, in both wells alike (R17, R408; log entry 30). -/
def State.testFailed (s : State) : State := { s with twin.fabricFault := true, startup.ready := false }

/-- A resource that a named test needs is in use: the AES-256-GCM unit by a re-pair attempt that seals or opens chunks, the
random source by a known-answer test or a rekey that waits for its word. R317 gives SELF_TEST the status BUSY, which R293
gives a command whose resource is in use, and names no resource; these are the model's (DESIGN CHOICE, log entry 31). -/
def State.testBusy (s : State) (tests : Nat) : Bool :=
  (tests.testBit 1 && (match s.twin.repair with
    | some r => decide (r.phase < 5)
    | none => false)) ||
  (tests.testBit 3 && (s.startup.rndTest.isSome || s.routes.rt.wantsKey || s.routes.rg.wantsKey))

/-- SELF_TEST: taken to the engine, with RND_TEST raised where the random source is tested. `passed` are the results of
the tests of fixed circuits; the random source's is computed from its words. -/
def State.cmdSelfTest (s : State) (passed : BitVec 5) : State :=
  match s.runOf 0xF0 .fresh with
  | none => s
  | some r =>
    let tests := r.cmd.field 0 1
    if s.testBusy tests then s.endZero stBusy else
    let s := if tests.testBit 3 then { s with startup.rndTest := some s.clock.edge, startup.katWords := [] } else s
    s.toEngine { r with phase := .engine, acc := [passed.toNat] }
      (if tests.testBit 2 then Config.signK + Config.verifyK else 0)

/-- The four known-answer words match the ROM constants (R444). -/
def State.katOk (s : State) : Bool :=
  decide (s.startup.katWords = (List.range 4).map Config.rndKat)

/-- SELF_TEST's operations ended. -/
def State.selfTestDone (s : State) (e : EngineEntry) : State :=
  let tests := e.run.cmd.field 0 1
  if tests.testBit 3 && s.startup.rndTest.isSome then s
  else
    let results := e.run.acc.headD 0
    let ok (i : Nat) : Bool := tests.testBit i && if i = 3 then s.katOk else results.testBit i
    let got := (List.range 5).foldl (fun m i => if ok i then m + 2 ^ i else m) 0
    let s := s.endEngine e stOk (leBytes 1 got ++ zeros 3)
    if got = tests then s else s.testFailed

/-- ENGINE_OP_DONE: the rest of an engine-bound command runs as one step, after any digest command (R297, R340). -/
def State.engineDone (s : State) (pin : Presence) : State :=
  let presence := s.presenceSeen pin.level (s.clock.edge - pin.ago)
  if !s.keeperGoes || !s.atKclk || !s.atBoundary then s else
  match s.engineReady with
  | none => s
  | some e =>
    let op := e.run.cmd.opcode
    if op = 0x60#8 then s.stageValidated e
    else if op = 0x70#8 then { s with levels.presence := presence }.commissionDone e presence
    else if op = 0x80#8 then s.attestSigned e
    else if op = 0xF0#8 then s.selfTestDone e
    else s

/-! ### Lifecycle and fuse programming (R423, R425, R427) -/

/-- The fuse bits of a lifecycle code. -/
def lifeTarget (code : Nat) : Nat := if code = 2 then 1 else 3

/-- LIFECYCLE_ADVANCE: the checks, then the copies of the bits that reach TARGET, one bit after the other. -/
def State.cmdLifecycle (s : State) (pin : Presence) : State :=
  let presence := s.presenceSeen pin.level (s.clock.edge - pin.ago)
  match s.runOf 0xF1 .fresh with
  | none => s
  | some r =>
    let s := { s with levels.presence := presence }
    let t := r.cmd.field 0 1
    let st := firstFail [(stRange, !(decide (t = 2) || decide (t = 3)) || decide (t ≤ s.lifecycle)), (stMarginal, s.stateMarg),
      (stDenied, !r.cmd.presence || !presence || s.keeper.staged.isSome)]
    if st ≠ stOk then s.endZero st
    else
      let both := decide (t = 3) && decide (s.lifecycle = 1)
      let plan := burnPlan (if both then [fwLife, fwLife] else [fwLife])
      { s with fuses.programming := plan, fuses.afterTarget := lifeTarget t,
               fuses.programmedAt := s.clock.edge }.setRun { r with phase := .waiting }

/-- The value that the next copy of a word takes. -/
def State.burnValue (s : State) (w : Nat) : Nat :=
  if w = fwLife then (if 3 < s.fuses.programming.length then 1 else s.fuses.afterTarget) else 1

/-- The test access port forced to Test-Logic-Reset. -/
def State.tapReset (s : State) : State := { s with tap.state := 0, tap.inForce := .idcode, tap.tdo := none }

/-- The lifecycle bits are in force: the port closes on a move out of MANUFACTURE, and the command returns. -/
def State.lifeBurned (s : State) : State :=
  let was := s.tapOpen
  let s := { s with fuses.lifecycleAdd := BitVec.ofNat 2 s.fuses.afterTarget }
  let s := if was && !s.tapOpen then s.tapReset else s
  match s.keeper.run with
  | some r => if r.cmd.opcode = 0xF1#8 then s.endRun stOk (leBytes 1 s.lifecycle ++ zeros 3) else s
  | none => s

/-- The fuse controller acts at an edge of ZCLK (R23). -/
def State.atZclk (s : State) : Bool := decide (s.clock.edge % Config.zclk = 0)

/-- FUSE_PROGRAM_DONE, at an edge of the fuse controller's clock ZCLK (R23): one copy programmed and margin-read; the last one puts the step or state in force. -/
def State.programDone (s : State) (clean : Bool) : State :=
  if !s.atZclk then s else
  match s.fuses.programming with
  | [] => s
  | (w, c) :: rest =>
    let s := s.burnCopy w c (s.burnValue w) clean
    let s := { s with fuses.programming := rest, fuses.programmedAt := s.clock.edge }
    if !rest.isEmpty then s
    else if w = fwLife then s.lifeBurned
    else if s.startup.factoryStep = 1 then s.factoryBurned
    else s

/-! ### Re-sense (R350) -/

/-- A re-sense of the array as it now reads. -/
def State.senseAgain (s : State) (l : List FuseDrift) : Nat × Nat × State :=
  let r := (s.drift l).resense
  (r.1, r.2.1, { r.2.2 with fuses.sensedAt := s.slowMark })

/-- FUSE_RESENSE: the re-sense starts, and a later row ends it with what it found. The manual gives a re-sense no length. -/
def State.cmdResense (s : State) (l : List FuseDrift) : State :=
  match s.runOf 0xF2 .fresh with
  | some r => s.setRun { r with phase := .waiting }
  | none =>
    match s.runOf 0xF2 .waiting with
    | none => s
    | some _ =>
      if !s.atZclk then s
      else
        let r := s.senseAgain l
        r.2.2.endRun stOk (leBytes 2 r.1 ++ leBytes 2 r.2.1)

/-- FUSE_RESENSE_TICK: every 524,288 SCLK from READY a re-sense starts, which a later row ends. -/
def State.resenseTick (s : State) (l : List FuseDrift) : State :=
  if s.fuses.resensing then
    if s.startup.ready && s.atZclk then { (s.senseAgain l).2.2 with fuses.resensing := false } else s
  else if s.startup.ready && s.slowRan s.fuses.resenseTick Config.resense then
    { s with fuses.resensing := true, fuses.resenseTick := s.fuses.resenseTick + Config.resense }
  else s

/-! ### TWIN_STATUS and TWIN_SWAP (R316, R378) -/

/-- TWIN_STATUS. -/
def State.cmdTwinStatus (s : State) : State :=
  match s.runOf 0xA0 .fresh with
  | none => s
  | some _ =>
    let lead := if s.twin.leadB then 1 else 0
    s.endRun stOk (leBytes 1 s.twin.pair.code ++ leBytes 1 lead ++ leBytes 1 (min s.twin.retries 3) ++ zeros 1 ++
      leBytes 4 (s.countOf fTwin 3) ++ leBytes 1 (bits s.twin.lastEvent 30 28) ++ zeros 3)

/-- TWIN_SWAP: pending until the next comparison edge whose signatures match. -/
def State.cmdSwap (s : State) : State :=
  match s.runOf 0xA2 .fresh with
  | none => s
  | some r =>
    if !s.mirrorOk then s.endZero stNotLead
    else if s.twin.failover.isSome || s.twin.trigger.isSome || s.twin.repair.isSome || s.twin.swapPend.isSome then
      s.endZero stBusy
    else { s with twin.swapPend := some r.cmd.host }.setRun { r with phase := .waiting }

/-- The pending swap ends without effect: its command returns BUSY (R364). -/
def State.swapLost (s : State) : State :=
  if s.twin.swapPend.isNone then s
  else
    let s := { s with twin.swapPend := none }
    match s.keeper.run with
    | some r => if r.cmd.opcode = 0xA2#8 then s.endZero stBusy else s
    | none => s

end Sys2Proof.Machine
end

