-- ==== Sys2Proof/Machine/Image.lean ====
section
/-! DEFINITION. Sealed images: IMAGE_SAVE and IMAGE_RESTORE, the accesses to their slots, sealing, authentication and the passes of a restore (R312, R414 to R420). -/

namespace Sys2Proof.Machine

/-! ### The payload and its checks (R312, R417) -/

def Cmd.slotAddr (c : Cmd) (k : Nat) : Nat := c.field (8 * k) 8
def Cmd.slotSize (c : Cmd) : Nat := c.field 16 4

/-- Check 1 of R417. -/
def Cmd.badSlots (c : Cmd) : Bool :=
  let a := c.slotAddr 0
  let b := c.slotAddr 1
  let n := c.slotSize
  decide (2 ^ 48 ≤ a) || decide (2 ^ 48 ≤ b) || decide (a % 64 ≠ 0) || decide (b % 64 ≠ 0) || decide (n % 64 ≠ 0) ||
    decide (n < 128) || (decide (a < b + n) && decide (b < a + n))

/-- Check 2 of R417. -/
def State.slotsOutside (s : State) (c : Cmd) : Bool :=
  !s.permitted 0 (c.slotAddr 0) c.slotSize false || !s.permitted 0 (c.slotAddr 1) c.slotSize false

/-- The longest image. -/
abbrev imageMost : Nat := 4 * 1024 * 1024

/-! ### Headers (R414, R415) -/

def hdTag : List Byte := ascii "AHN-SI01"
def hdLen (h : List Byte) : Nat := ofLe ((h.drop 8).take 4)
def hdGen (h : List Byte) : Nat := ofLe ((h.drop 12).take 4)
def hdSections (h : List Byte) : Nat := ofLe ((h.drop 18).take 2)
def hdIv (h : List Byte) : List Byte := (h.drop 24).take 12

/-- An eligible header. -/
def eligibleHeader (h : List Byte) : Bool :=
  decide (h.take 8 = hdTag) && decide ((h.drop 17).take 1 = [1#8]) && decide (hdGen h ≠ 0) &&
    (h.drop 36).all fun b => decide (b = 0#8)

/-- IMAGE_LEN may not be authenticated (R418). -/
def badLength (h : List Byte) (size : Nat) : Bool :=
  decide (imageMost < hdLen h) || decide (size < hdLen h) || decide (hdLen h < 96)

/-- SK(e) for the user epoch in force. -/
def State.sealKey (s : State) : AesKey :=
  aesKey (hmac256 (beBytes 32 ((s.fuse fwSeal).getD 0)) (ascii "AHN-SK01" ++ [BitVec.ofNat 8 s.userEpoch]))

/-! ### Sections (R416) -/

/-- The host pages' RULESET_SEL and the PAGE_LOCKs of the global frames, after and among the registers of the frames. -/
def rulesetOffset (h : Nat) : Nat := 0x100000 + 0x4000 * h + 0x20
def lockOffset (f : Nat) : Nat := 0x4000 * f + 0x10

/-- A pair of REGISTERS. -/
def pairBytes (off : Nat) (v : Word) : List Byte := leBytes 4 off ++ leBytes 4 v.toNat

/-- The REGISTERS section's body. -/
def State.registerBody (s : State) : List Byte :=
  (imageRegs.map fun e => pairBytes (0x4000 * e.1 + e.2) (s.imageReg e.1 e.2)).flatten ++
  ((List.range 64).map fun h => pairBytes (rulesetOffset h) (flag32 0 (bit s.gate.setB h))).flatten ++
  ((List.range 38).map fun i => pairBytes (lockOffset (2 + i)) (s.lock (2 + i))).flatten

/-- The number of its pairs. -/
def registerPairs : Nat := imageRegs.length + 64 + 38

/-- A byte of the FAST section. -/
def State.fastByte (s : State) (k : Nat) : Byte :=
  BitVec.ofNat 8 ((List.range 8).foldl
    (fun m j => if decide (72 ≤ 8 * k + j) && ftEn (s.fast (8 * k + j)) then m + 2 ^ j else m) 0)

/-- The body of a section of a save. -/
def State.sectionBody (s : State) (t : Nat) : List Byte :=
  if t = 1 then (List.range 512).map s.fastByte
  else if t = 2 then ((List.range 131072).map fun i => leBytes 8 (if i < 72 then 0 else (s.routeEntry i).toNat)).flatten
  else if t = 3 then ((List.range 65536).map fun r => leBytes 16 (s.rightsEntry r).toNat).flatten
  else if t = 4 then
    ((List.range 1024).map fun g => leBytes 4 (s.grpCfg g).toNat ++ leBytes 2 (s.group g).interval.toNat ++ zeros 2).flatten
  else if t = 5 then leBytes 1 s.occupied ++ zeros 3 ++ ((List.range 8).map s.slotBytes).flatten
  else s.registerBody

/-- LEN of a section; REGISTERS is any number of pairs. -/
def sectionLen (t : Nat) : Nat :=
  if t = 1 then 512 else if t = 2 then 1048576 else if t = 3 then 1048576 else if t = 4 then 8192
  else if t = 5 then 516 else 8 * registerPairs

/-- IMAGE_LEN of a save. -/
def saveLen : Nat := 64 + ((List.range 6).map fun i => 8 + sectionLen (i + 1)).sum + 16

/-- The plaintext of a save. -/
def State.imagePlain (s : State) : List Byte :=
  ((List.range 6).map fun i => [BitVec.ofNat 8 (i + 1)] ++ zeros 3 ++ leBytes 4 (sectionLen (i + 1)) ++
    s.sectionBody (i + 1)).flatten

/-! ### The end of an image command (R417 to R419, R430) -/

/-- IMAGE_LAST. -/
def imageWord (restore : Bool) (slot status gen : Nat) : Word :=
  0x80000000#32 ||| flag32 30 restore ||| at32 29 slot ||| at32 24 status ||| at32 0 (gen % 65536)

/-- The result's fields. -/
def imageResult (slot gen len : Nat) : List Byte := leBytes 1 slot ++ zeros 3 ++ leBytes 4 gen ++ leBytes 4 len

/-- The command ends short of OK: a failed pass two is undone, and AUTH_FAIL is counted and raised. -/
def State.imageFail (s : State) (restore : Bool) (status : Nat) : State :=
  let s := match s.startup.image with
    | some i => if i.step = ImageStep.apply then s.undoApply i else { s with startup.image := none }
    | none => s
  let s := { s with startup.imageLast := imageWord restore 0 status 0 }
  let s := if restore ∧ status = stAuthFail then s.event fLife 10 153 else s
  s.endZero status

/-- The command ends at its first checks, with nothing of an earlier command changed. -/
def State.imageRefuse (s : State) (restore : Bool) (status : Nat) : State :=
  { s with startup.imageLast := imageWord restore 0 status 0 }.endZero status

/-- The command ends with OK. -/
def State.imageOk (s : State) (restore : Bool) (slot gen len : Nat) : State :=
  let s := { s with startup.imageLast := imageWord restore slot stOk gen }
  let s := { s with startup.image := none, startup.restoreJournal := false }
  (s.count fLife (if restore then 9 else 8)).endRun stOk (imageResult slot gen len)

/-! ### Accesses to the slots -/

/-- A new image command. -/
def Image.start (restore : Bool) : Image :=
  { restore := restore, step := .headers, slot := 0, others := [], heads := [], offset := 0, ghash := 0, header := [],
    plain := [], sectType := 0, sectLeft := 0, sectPos := 0, sectDone := 0, lastReg := 0, best := none,
    changed := false, filledOfficers := false, asked := false }

def State.setImage (s : State) (i : Image) : State := { s with startup.image := some i }

/-- The bytes that a save writes from an offset: the header, a piece of ciphertext, or a piece of the tag. -/
def State.sealPiece (s : State) (i : Image) : List Byte :=
  let len := hdLen i.header
  let next := min (64 * (i.offset / 64 + 1)) (if i.offset < len - 16 then len - 16 else len)
  let n := next - i.offset
  if i.offset < 64 then i.header
  else if i.offset < len - 16 then
    gcmCrypt s.sealKey (hdIv i.header) ((i.offset - 64) / 16) ((i.plain.drop (i.offset - 64)).take n)
  else ((gcmTag s.sealKey (hdIv i.header) i.ghash 64 (len - 80)).drop (i.offset - (len - 16))).take n

/-- The access that the image needs next: a line of a slot, read, or written while sealing. -/
def State.imageReq (s : State) (c : Cmd) (i : Image) : OutReq :=
  let k := if i.step = .headers then i.heads.length else i.slot
  let base := c.slotAddr k
  let off := if i.step = .headers then 0 else i.offset
  let write := decide (i.step = .seal)
  { kind := .image write off, addr := base + off / 64 * 64, host := 0, line := true,
    bytes := if write then bytesAt (base + off) (s.sealPiece i) else [] }

/-- An image access is requested or awaits its answer. -/
def State.imageOut (s : State) : Bool :=
  (s.pump.tier1.any fun (q : OutReq) => q.kind.isImage) ||
    s.pump.issued.any fun (a : OutAccess) => a.req.kind.isImage && !a.timedOut

/-- The line of a save that holds the end of the tag has been granted: what changes now comes after the tag (R417). -/
def State.tagWritten (s : State) (i : Image) : Bool :=
  i.asked && (s.pump.issued.any fun (a : OutAccess) => a.req.kind.isImage && !a.timedOut) &&
    decide (hdLen i.header ≤ i.offset + (s.sealPiece i).length)

/-- The next access asked for. -/
def State.imageAsk (s : State) (c : Cmd) (i : Image) : State :=
  if s.imageOut then s.setImage i else (s.setImage { i with asked := true }).request (s.imageReq c i)

/-! ### Authentication (R417, R418) -/

/-- The parts of a line of a slot: ciphertext, and tag. -/
def linePart (i : Image) (data : List Byte) : List Byte × List Byte :=
  let len := hdLen i.header
  let n := (len - 16) - i.offset
  (data.take n, ((data.drop n).take (len - i.offset - n)))

/-- Pass one of a slot begins: the accumulator holds the header. -/
def State.authBegin (s : State) (i : Image) (k : Nat) : Image :=
  let h := i.heads.getD k []
  { i with step := .auth, slot := k, others := i.others.filter fun o => decide (o ≠ k), header := h, offset := 64,
           ghash := ghash (ghashKey s.sealKey) 0 h, plain := [] }

/-- A slot's ciphertext and tag taken in; the tag's bytes gather in `plain` in pass one. -/
def State.authLine (s : State) (i : Image) (data : List Byte) : Image :=
  let p := linePart i data
  { i with ghash := ghash (ghashKey s.sealKey) i.ghash p.1, plain := i.plain ++ p.2, offset := i.offset + 64 }

/-- The tag read matches the tag computed. -/
def State.tagOk (s : State) (i : Image) (tag : List Byte) : Bool :=
  decide (gcmTag s.sealKey (hdIv i.header) i.ghash 64 (hdLen i.header - 80) = tag)

/-! ### IMAGE_SAVE (R417) -/

/-- The header of a save. -/
def State.saveHeader (s : State) (gen : Nat) (words : List DWord) : List Byte :=
  hdTag ++ leBytes 4 saveLen ++ leBytes 4 gen ++ leBytes 1 s.userEpoch ++ [1#8] ++ leBytes 2 6 ++
    leBytes 4 keepVersion.toNat ++ (wordBytes words).take 12 ++ zeros 28

/-- The slots authenticated: the target is chosen, and two random words are awaited. -/
def State.saveChosen (s : State) (r : Run) (i : Image) : State :=
  let g := match i.best with
    | some b => b.2
    | none => 0
  if g = 0xFFFFFFFF then s.imageFail false stRange
  else
    let target := match i.best with
      | some b => 1 - b.1
      | none => 0
    (s.setImage { i with slot := target, others := [], asked := false }).askWords r

/-- The next slot of a save is authenticated, or the save goes on. -/
def State.saveNext (s : State) (r : Run) (i : Image) : State :=
  match i.others with
  | [] => s.saveChosen r i
  | k :: _ => s.imageAsk r.cmd (s.authBegin i k)

/-- The random words have come: the configuration is read, and the header is written. -/
def State.saveSeal (s : State) (r : Run) (i : Image) (words : List DWord) : State :=
  let gen := match i.best with
    | some b => b.2 + 1
    | none => 1
  let h := s.saveHeader gen words
  let i := { i with step := .seal, header := h, offset := 0, plain := s.imagePlain, changed := false, asked := false,
                    ghash := ghash (ghashKey s.sealKey) 0 h }
  let s := { s with keeper.words := [], keeper.wordsAt := none }
  (s.setRun { r with phase := .waiting }).imageAsk r.cmd i

/-- A line of a save has been written: the next, or the end. A value that changed after the tag was granted does not matter
(R417, log entry 113). -/
def State.saveLine (s : State) (r : Run) (i : Image) : State :=
  let len := hdLen i.header
  let piece := s.sealPiece i
  let acc := if 64 ≤ i.offset ∧ i.offset < len - 16 then ghash (ghashKey s.sealKey) i.ghash piece else i.ghash
  let i := { i with ghash := acc, offset := i.offset + piece.length, asked := false }
  if len ≤ i.offset then s.imageOk false i.slot (hdGen i.header) len
  else if i.changed || decide (s.imagePlain ≠ i.plain) then s.imageFail false stAborted
  else s.imageAsk r.cmd i

/-! ### Pass two of a restore (R419, R420) -/

/-- One entry of a page written, its previous content kept in the commit shadow (R132, R213). -/
def State.pageEntry (s : State) (rights : Bool) (e : Nat × BitVec 128) : State :=
  let x : Shadow := { rights := rights, idx := e.1, old := s.stored rights e.1, edge := some s.clock.dp }
  let s := { s with gate.shadow := s.gate.shadow ++ [x] }
  if rights then { s with gate.rights := ins 0#128 s.gate.rights e.1 e.2 } else s.setRoute e.1 (e.2.setWidth 64)

/-- A route or rights page written whole, at an edge after its keeper-marked sequence was granted and before the sequence
overruns (R194, R419); none while it has none. -/
def State.pageWrite (s : State) (rights : Bool) (page : Nat) (b : List Byte) : Option State :=
  let m := if rights then 1 else 0
  let h := s.hash rights
  match s.markedLock, s.imagePage with
  | some k, some (r, _) =>
    if k.memory ≠ m ∨ k.bank ≠ h.bank page ∨ s.clock.dp ≤ k.grant ∨ k.grant + 64 ≤ s.clock.dp then none
    else
      let l := s.pageChanges rights page b
      let s := l.foldl (fun (s : State) e => s.pageEntry rights e) s.dropReserved
      let s := (s.unpoison m (h.physical page)).setEpoch m (h.physical page) (h.slotFor (rowOf page))
      let s := (s.unlock m k.bank).setRun { r with granted := none, marked := false, acc := [] }
      some (if l.isEmpty then s else s.emptyCaches.recheck)
  | _, _ => none

/-- EN of the eight fast-table entries of a byte. -/
def State.fastRestore (s : State) (k : Nat) (b : Byte) : State :=
  (List.range 8).foldl
    (fun (s : State) j =>
      let x := 8 * k + j
      if x < 72 || ftEn (s.fast x) == bit b j then s else s.setFastEn x (bit b j)) s

/-- A group's item (R181, R190); the checks of R205, the locks among them, are not applied (R419). -/
def State.groupRestore (s : State) (g : Nat) (b : List Byte) : State :=
  let s := (s.setGrpCfg g (BitVec.ofNat 32 (ofLe (b.take 4)))).setGrpHold g (ofLe ((b.drop 4).take 2))
  if g % 4 = 3 then s.unpoison 3 (g / 4) else s

/-- The officer slots filled in the factory-clean state (R420). -/
def State.officerRestore (s : State) (i : Image) (b : List Byte) : State × Image :=
  if !s.factoryClean then (s, i)
  else
    let occ := ofLe (b.take 1)
    let t := (List.range 8).foldl
      (fun (t : Tbl (Option PubKey)) j =>
        if occ.testBit j then ins none t j (some (keyOf ((b.drop (4 + 64 * j)).take 64))) else t) s.keeper.officers
    ({ s with keeper.officers := t }, { i with filledOfficers := true })

/-- The order of the pairs: PAGE_LOCK pairs after all others. -/
def pairOrder (off : Nat) : Nat := if off % 0x1000 = 0x10 then off + 2 ^ 32 else off

/-- An offset that REGISTERS may name. -/
def carried (off : Nat) : Bool :=
  match placeOf off with
  | .frame f 0 o =>
    if isHostFrame f then decide (o = 0x20)
    else decide (2 ≤ f) && decide (f < 0x28) && (decide (o = 0x10) || ((regInfo f o).isSome && !imageSkips f o))
  | _ => false

/-- A register write of the keeper's own: it goes to the ordering point, behind the accesses that wait there (R62, R66). -/
def State.keeperWrite (s : State) (off : Nat) (v : Word) : State :=
  let a : Access := { write := true, wide := false, byte := off, host := 0#6, data := v.setWidth 64, page := cleanRead,
                      presence := false, presenceAt := 0, keeper := true }
  let w := s.front.waiting ++ [a]
  { s with front.waiting := w }

/-- An access of the keeper's own has still to pass the ordering point. -/
def State.keeperWaits (s : State) : Bool := s.front.waiting.any fun (a : Access) => a.keeper

/-- How the sections stand: going on, waiting for the tables, waiting for more bytes, at the end, or not as R416 has
them. -/
inductive Parsed where
  | on (s : State) (i : Image)
  | stall
  | more
  | bad

/-- The bytes that one step of a section takes. -/
def unitOf (t : Nat) : Nat := if t = 1 then 1 else if t = 2 ∨ t = 3 then 64 else if t = 5 then 516 else 8

/-- A section header. -/
def sectionHead (i : Image) : Option Image :=
  let b := i.plain
  let t := ofLe (b.take 1)
  let n := ofLe ((b.drop 4).take 4)
  let reserved := ofLe ((b.drop 1).take 3)
  if reserved ≠ 0 ∨ t ≤ i.sectType ∨ 6 < t ∨ (t < 6 ∧ n ≠ sectionLen t) ∨ n % 8 ≠ 0 ∧ t = 6 then none
  else some { i with plain := b.drop 8, sectType := t, sectLeft := n, sectPos := 0, sectDone := i.sectDone + 1 }

/-- One unit of a section applied. -/
def State.applyUnit (s : State) (i : Image) : Parsed :=
  let t := i.sectType
  let n := unitOf t
  let b := i.plain.take n
  let j := { i with plain := i.plain.drop n, sectLeft := i.sectLeft - n, sectPos := i.sectPos + n }
  if t = 1 then .on (s.fastRestore i.sectPos (b.headD 0#8)) j
  else if t = 2 ∨ t = 3 then
    match s.pageWrite (decide (t = 3)) (i.sectPos / 64) b with
    | some s => .on s j
    | none => .stall
  else if t = 4 then
    if ofLe (b.drop 6) ≠ 0 then .bad else .on (s.groupRestore (i.sectPos / 8) b) j
  else if t = 5 then
    if ofLe ((b.drop 1).take 3) ≠ 0 then .bad
    else
      let r := s.officerRestore j b
      .on r.1 r.2
  else
    let off := ofLe (b.take 4)
    if !carried off || decide (pairOrder off < i.lastReg) then .bad
    else .on (s.keeperWrite off (BitVec.ofNat 32 (ofLe (b.drop 4)))) { j with lastReg := pairOrder off + 1 }

/-- One step over the decrypted bytes. -/
def State.applyStep (s : State) (i : Image) : Parsed :=
  if i.sectLeft = 0 then
    if i.plain.length < 8 then .more
    else match sectionHead i with
      | some i => .on s i
      | none => .bad
  else if i.sectLeft < unitOf i.sectType then .bad
  else if i.plain.length < unitOf i.sectType then .more
  else s.applyUnit i

/-- Every step that the decrypted bytes allow; false where the tables must first come free. -/
def State.applyAll : Nat → State → Image → Option (State × Image × Bool)
  | 0, s, i => some (s, i, false)
  | fuel + 1, s, i =>
    match s.applyStep i with
    | .on s i => s.applyAll fuel i
    | .stall => some (s, i, false)
    | .more => some (s, i, true)
    | .bad => none

/-- The bytes decrypted so far applied, and the next line asked for, or the end, once every register write has passed: the tag lies in the third of `heads`. -/
def State.applyOn (s : State) (r : Run) (i : Image) : State :=
  match s.applyAll 128 i with
  | none => s.imageFail true stAuthFail
  | some (s, i, more) =>
    let len := hdLen i.header
    if !more then (s.setImage i).pageTurn
    else if i.offset < len then s.imageAsk r.cmd i
    else if s.keeperWaits then s.setImage i
    else if s.tagOk i (i.heads.getD 2 []) && decide (i.sectLeft = 0) && i.plain.isEmpty &&
        decide (i.sectDone = hdSections i.header) then
      s.imageOk true i.slot (hdGen i.header) len
    else s.imageFail true stAuthFail

/-- A line of pass two: the header again, or ciphertext decrypted, with the tag's bytes. -/
def State.applyLine (s : State) (r : Run) (i : Image) (data : List Byte) : State :=
  if i.offset = 0 then
    s.applyOn r { i with offset := 64, ghash := ghash (ghashKey s.sealKey) 0 data }
  else
    let p := linePart i data
    let clear := gcmCrypt s.sealKey (hdIv i.header) ((i.offset - 64) / 16) p.1
    let heads := i.heads.take 2 ++ [i.heads.getD 2 [] ++ p.2]
    s.applyOn r { i with plain := i.plain ++ clear, heads := heads, offset := i.offset + 64,
                         ghash := ghash (ghashKey s.sealKey) i.ghash p.1 }

/-- Pass two begins, and the restore journal is set (R413). -/
def State.applyBegin (s : State) (r : Run) (i : Image) : State :=
  let i := { i with step := .apply, offset := 0, plain := [], heads := i.heads.take 2, sectType := 0, sectLeft := 0,
                    sectPos := 0, sectDone := 0, lastReg := 0 }
  { s with startup.restoreJournal := true }.imageAsk r.cmd i

/-- The next slot of a restore is authenticated, or none is left (R418). -/
def State.restoreNext (s : State) (r : Run) (i : Image) : State :=
  match i.others with
  | [] => s.imageFail true stAuthFail
  | k :: _ =>
    if badLength (i.heads.getD k []) r.cmd.slotSize then s.imageFail true stLength
    else s.imageAsk r.cmd (s.authBegin i k)

/-! ### Both commands go on -/

/-- The eligible slots in the order in which they are taken up: for a restore the larger GEN first. -/
def slotOrder (restore : Bool) (size : Nat) (heads : List (List Byte)) : List Nat :=
  let ok := [0, 1].filter fun k => eligibleHeader (heads.getD k [])
  if !restore then ok.filter fun k => !badLength (heads.getD k []) size
  else if ok.length = 2 ∧ hdGen (heads.getD 0 []) < hdGen (heads.getD 1 []) then [1, 0] else ok

/-- A header line has come. -/
def State.imageHeader (s : State) (r : Run) (i : Image) (data : List Byte) : State :=
  let i := { i with heads := i.heads ++ [data.take 64] }
  if i.heads.length < 2 then s.imageAsk r.cmd i
  else
    let i := { i with others := slotOrder i.restore r.cmd.slotSize i.heads }
    if i.restore then s.restoreNext r i else s.saveNext r i

/-- A line of pass one has come. -/
def State.imageAuth (s : State) (r : Run) (i : Image) (data : List Byte) : State :=
  let i := s.authLine i data
  if i.offset < hdLen i.header then s.imageAsk r.cmd i
  else
    let ok := s.tagOk i i.plain
    if i.restore then if ok then s.applyBegin r i else s.restoreNext r i
    else
      let gen := hdGen i.header
      let better := ok && match i.best with
        | some b => decide (b.2 < gen)
        | none => true
      s.saveNext r { i with best := if better then some (i.slot, gen) else i.best }

/-- The image command that runs and waits, with its record. -/
def State.imageRun (s : State) : Option (Run × Image) :=
  match s.startup.image with
  | none => none
  | some i =>
    match s.phaseOf (if i.restore then 0x51 else 0x50) .waiting with
    | some r => some (r, i)
    | none => none

/-- A save whose configuration has changed before its tag stops: the line that still waits for its grant is withdrawn and the
command ends ABORTED, so the tag is not written; a line already issued is awaited first (R417, log entry 113). -/
def State.stopSave (s : State) (i : Image) : State :=
  if s.pump.issued.any fun (a : OutAccess) => a.req.kind.isImage && !a.timedOut then s
  else
    let s := { s with pump.tier1 := s.pump.tier1.filter fun (q : OutReq) => !q.kind.isImage }
    match s.imageRun with
    | some _ => s.imageFail false stAborted
    | none => s.setImage { i with asked := false }

/-- A value that an image under way carries has changed, by any cause, since the save read it, and before its tag (R417). -/
def State.noteChange (s : State) : State :=
  match s.startup.image with
  | none => s
  | some i =>
    if i.step = .seal ∧ (i.changed ∨ s.imagePlain ≠ i.plain) ∧ !s.tagWritten i then
      (s.setImage { i with changed := true }).stopSave { i with changed := true }
    else s

/-- An access of the command has ended; the command has been preempted or cut short where it does not run, and asks
again when it goes on. -/
def State.imageAnswer (s : State) (ok : Bool) (data : List Byte) : State :=
  match s.imageRun with
  | none => { s with startup.image := s.startup.image.map fun (i : Image) => { i with asked := false } }
  | some (r, i) =>
    if !i.asked then s
    else
      let i := { i with asked := false }
      if !ok then s.imageFail i.restore stAborted
      else match i.step with
        | .headers => s.imageHeader r i data
        | .auth => s.imageAuth r i data
        | .seal => s.saveLine r i
        | .apply => s.applyLine r i data

/-- IMAGE_SLOT_RESPONSE. -/
def State.imageResponse (s : State) (tag : Nat) (ok : Bool) (data : List Byte) : State :=
  let read := match s.access tag with
    | some a => a.req.kind.isRead
    | none => true
  s.answered tag read ok OutKind.isImage fun _ s => s.imageAnswer ok ((data ++ zeros 64).take 64)

/-- The checks of R417 and R418 and the first header read. -/
def State.imageStart (s : State) (restore : Bool) (r : Run) : State :=
  if r.cmd.badSlots || s.slotsOutside r.cmd then s.imageRefuse restore stRange
  else if s.twin.repair.isSome then s.imageRefuse restore stBusy
  else match s.enterGroup r.cmd with
    | none => s.imageRefuse restore stBusy
    | some s =>
      let s := match s.startup.image with
        | some i => if i.step = ImageStep.apply then s.undoApply i else s
        | none => s
      if !restore ∧ (r.cmd.slotSize < saveLen ∨ imageMost < saveLen) then s.imageRefuse restore stLength
      else (s.setRun { r with phase := .waiting }).imageAsk r.cmd (Image.start restore)

/-- The command goes on where it stands: an access asked for again, or sections that waited for the tables. -/
def State.imageOn (s : State) (r : Run) (i : Image) : State :=
  if i.asked || s.imageOut then s
  else if i.step = .apply ∧ i.offset ≠ 0 then s.applyOn r i
  else s.imageAsk r.cmd i

/-- IMAGE_SAVE. -/
def State.cmdImageSave (s : State) : State :=
  match s.runOf 0x50 .fresh with
  | some r => s.imageStart false r
  | none =>
    match s.startup.image, s.runOf 0x50 .random, s.gotWords 2 with
    | some i, some r, some ws => s.saveSeal r i ws
    | _, _, _ =>
      match s.imageRun with
      | some (r, i) => if i.restore || !s.atKclk then s else s.imageOn r i
      | none => s

/-- IMAGE_RESTORE. -/
def State.cmdImageRestore (s : State) : State :=
  match s.runOf 0x51 .fresh with
  | some r => s.imageStart true r
  | none =>
    match s.imageRun with
    | some (r, i) => if i.restore && s.atKclk then s.imageOn r i else s
    | none => s

/-- RANDOM_WAIT_TIMEOUT, with the record of a save cut short. -/
def State.randomTimeout (s : State) : State :=
  let mine : Bool := match s.phaseOf 0x50 .random with
    | some _ => true
    | none => false
  let t := s.wordsTimeout
  if mine ∧ t.keeper.run.isNone then
    { t with startup.image := none, startup.imageLast := imageWord false 0 stAborted 0 }
  else t

/-- IMAGE_LAST of a command that the watchdog cut short. -/
def State.imageCut (s : State) : State :=
  match s.keeper.run with
  | some r =>
    if (r.cmd.opcode = 0x50#8 ∨ r.cmd.opcode = 0x51#8) ∧ s.startup.image.isSome then
      { s with startup.imageLast := imageWord (decide (r.cmd.opcode = 0x51#8)) 0 stAborted 0 }
    else s
  | none => s

end Sys2Proof.Machine
end

