-- ==== Sys2Proof/Machine/Twin.lean ====
section
/-! DEFINITION. Twin wells: signatures, frames and heartbeat, triggers, the failover sequence with replay and rewrites, divergence, re-pair and planned swap (R352 to R382). -/

namespace Sys2Proof.Machine

/-! ### Signatures, frames and heartbeat (R355 to R358) -/

/-- The wells exchange frames: paired, or from the key phase of a re-pair attempt on (R356, R371, R377). -/
def State.linkUsed (s : State) : Bool :=
  s.paired || (match s.twin.repair with
    | some r => decide (2 ≤ r.phase)
    | none => false)

/-- The next byte of a CRC-32 with the IEEE 802.3 polynomial, low bit first, without preset. -/
def crc32Byte (c : Word) (b : Byte) : Word :=
  (List.range 8).foldl (fun c _ => if bit c 0 then (c >>> 1) ^^^ 0xEDB88320#32 else c >>> 1) (c ^^^ b.setWidth 32)

/-- A frame is 15 bytes, sequence number, signature, status and CRC-32. `noise` is what the link adds to it on its way: as the
CRC is linear, the frame passes it where the noise on its last four bytes is the CRC of the noise on the others. The receiver
takes a frame whose sequence number is not that of the checkpoint as one that fails (DESIGN CHOICE, log entry 111). -/
def frameValid (noise : List Byte) : Bool :=
  let n := (noise ++ zeros 15).take 15
  decide (ofLe (n.drop 11) = ((n.take 11).foldl crc32Byte 0#32).toNat) && decide (ofLe (n.take 2) = 0)

/-- The signature as a frame brings it. -/
def frameSig (sig : DWord) (noise : List Byte) : DWord :=
  sig ^^^ BitVec.ofNat 64 (ofLe ((((noise ++ zeros 15).take 15).drop 2).take 8))

/-- A well closes its checkpoint signature; an injected inversion is of bit 0 (R380). -/
def Well.close (w : Well) (k : Nat) (vec : List Byte) : Well :=
  let c := crc64 w.sig vec
  { w with sig := if w.invertNext then c ^^^ 1#64 else c, invertNext := false, sigK := k, frameIn := false, resend := false }

/-- A joining well that does not compute yet sends its frames with the signature that it has. -/
def Well.keeps (w : Well) (k : Nat) : Well := { w with sigK := k, frameIn := false, resend := false }

/-- CHECKPOINT: at an edge whose index is a multiple of 256. `vecA` and `vecB` are the update vectors of the interval. -/
def State.checkpoint (s : State) (vecA vecB : List Byte) : State :=
  let k := s.clock.edge / 256
  if !s.running || decide (s.clock.edge % 256 ≠ 0) || decide (s.lead.sigK = k) then s
  else
    let l := s.twin.leadB
    let s := s.modWell l fun w => w.close k (if l then vecB else vecA)
    if s.mirrorRuns then s.modWell (!l) fun w => w.close k (if l then vecA else vecB)
    else if s.linkUsed then s.modWell (!l) fun w => w.keeps k else s

/-- The frame of a well's last checkpoint is suppressed by TWIN_INJECT (R380). -/
def Well.muted (w : Well) : Bool := decide (256 * w.sigK < w.mutedUntil) && decide (w.mutedUntil ≤ 256 * w.sigK + 1280)

/-- A frame from the well arrives at this edge: 8 FCLK after its checkpoint, or resent after a failure. -/
def State.frameDue (s : State) (from_ : Bool) : Bool :=
  let w := s.well from_
  s.running && s.linkUsed && !w.frameIn && !w.muted && decide (w.sigK ≠ 0) &&
    (if w.resend then decide (w.resendAt < s.clock.edge) else decide (s.clock.edge = 256 * w.sigK + 8))

/-! ### The end of a re-pair attempt (R377) -/

/-- Staging accesses of an attempt that has ended: those not issued are dropped, those issued answer to nothing. -/
def State.dropStaging (s : State) : State :=
  let gone (k : OutKind) : OutKind := match k with
    | .staging _ u w => .staging (2 ^ 20) u w
    | k => k
  let issued := s.pump.issued.map fun (a : OutAccess) => { a with req := { a.req with kind := gone a.req.kind } }
  let tier1 := s.pump.tier1.filter fun (q : OutReq) => !q.kind.isStaging
  { s with pump.staging := [], pump.tier1 := tier1, pump.issued := issued }

/-- The result fields of REPAIR. -/
def State.repairResult (s : State) : List Byte := leBytes 1 (min s.twin.retries 3) ++ leBytes 1 s.twin.pair.code ++ zeros 2

/-- The REPAIR command that runs returns a status. -/
def State.repairReturns (s : State) (status : Nat) : State :=
  match s.keeper.run with
  | some r => if r.cmd.opcode = 0xA1#8 ∧ r.phase ≠ .fresh then s.endRun status s.repairResult else s
  | none => s

/-- The attempt ends: the joining well is held in well reset, and the cause is recorded. -/
def State.stopRepair (s : State) (fail : Nat) : State :=
  let s := s.modWell (!s.twin.leadB) fun w => { w with held := true }
  { s.dropStaging with twin.repair := none, twin.pair := .divergent, twin.untrusted := false, twin.failCause := fail,
                       twin.repairStatus := stAborted }

/-- The attempt ends and REPAIR returns a status, now or as it is resumed. -/
def State.failRepair (s : State) (fail status : Nat) : State :=
  State.repairReturns { s.stopRepair fail with twin.repairStatus := status } status

/-- An attempt whose command has been abandoned ends with it (R304, R377). -/
def State.tidyRepair (s : State) : State :=
  let running : Bool := match s.keeper.run with
    | some r => decide (r.cmd.opcode = 0xA1#8)
    | none => false
  if s.twin.repair.isNone || running || !(s.tokensOf 3).isEmpty || !s.startup.ready then s else s.stopRepair 6

/-! ### Divergence and triggers (R359, R368, R369) -/

/-- A well is declared divergent: counted and raised, and held in well reset from the edge after (R368). -/
def State.declareDivergent (s : State) (b : Bool) : State :=
  { s.event fTwin 5 149 with twin.pair := .divergent, twin.untrusted := false, twin.holdDue := some (b, s.clock.edge + 1) }

/-- The hold of a well declared divergent, at its edge. -/
def State.holdsNow (s : State) : State :=
  match s.twin.holdDue with
  | some (b, e) =>
    if e ≤ s.clock.edge then { s.modWell b fun w => { w with held := true } with twin.holdDue := none } else s
  | none => s

/-- LAST_EVENT of a trigger that acted. -/
def eventWord (cause outcome : Nat) (aOk bOk : Bool) (duration : Nat) : Word :=
  0x80000000#32 ||| at32 28 cause ||| at32 26 outcome ||| flag32 25 aOk ||| flag32 24 bOk ||| at32 0 (min duration 0xFFFF)

/-- FABRIC_FAULT. -/
def State.failFabric (s : State) : State := { s with twin.fabricFault := true, twin.failover := none }.swapLost

/-- The effects at d + 1 of the triggers that make no freeze, and of LEAD_SILENT while unpaired. -/
def State.actTrigger (s : State) (cause : Nat) : State :=
  let s := { s with twin.trigger := none }
  let noted (o : Nat) (s : State) : State := { s with twin.lastEvent := eventWord cause o false false 0 }
  if cause = 3 then
    let s := if s.twin.repair.isSome then s.failRepair 5 stAborted else s
    (noted 2 s).failFabric
  else if cause = 7 then
    if s.twin.repair.isSome then (noted 0 s).declareDivergent (!s.twin.leadB) |>.failRepair 7 stAborted else s
  else if cause = 5 ∨ cause = 6 then
    if s.twin.repair.isSome then (noted 0 s).failRepair (Config.joinFail cause).toNat stAborted
    else if s.paired then ((noted 0 s).declareDivergent (!s.twin.leadB)).swapLost
    else s
  else s

/-- The registered trigger acts from the edge after its detection; one that freezes while paired waits for
FAILOVER_FREEZE. -/
def State.triggersAct (s : State) : State :=
  match s.twin.trigger with
  | none => s
  | some t => if s.clock.edge ≤ t.edge || (s.paired && decide (t.cause ≤ 4)) then s else s.actTrigger t.cause

/-! ### Frames, comparisons and silence -/

/-- A link fault or a loss of heartbeat (R356, R357, R377). -/
def State.linkLost (s : State) : State :=
  if s.paired then s.trigger 2 else if s.twin.repair.isSome then s.failRepair 2 stAborted else s

/-- TWIN_FRAME_ARRIVE at Well B, or at Well A. A resent frame that comes more than 16 FCLK after the failure has failed too. -/
def State.frameArrive (s : State) (toB : Bool) (noise : List Byte) : State :=
  let b := !toB
  let w := s.well b
  let e := s.clock.edge
  if !s.frameDue b then s
  else if w.resend && decide (w.resendAt + 16 < e) then s.linkLost
  else if frameValid noise then
    s.modWell b fun w =>
      { w with frameIn := true, frameSig := frameSig w.sig noise, frameAt := e, validAt := some e, hbLost := false }
  else if w.resend then s.linkLost
  else (s.modWell b fun w => { w with resend := true, resendAt := e }).count fTwin 7

/-- The joined well's first comparison matches (R371, phase 5). -/
def State.trusted (s : State) : State :=
  match s.twin.repair with
  | some r =>
    if r.phase = 5 then
      let s := { s with twin.repair := none, twin.pair := .paired, twin.untrusted := false, twin.repairStatus := stOk }
      (s.event fTwin 13 150).repairReturns stOk
    else s
  | none => s

/-- TWIN_SWAP takes effect at a comparison edge whose signatures match (R378); a trigger at that edge wins (R364). -/
def State.swapNow (s : State) : State :=
  match s.twin.swapPend with
  | none => s
  | some _ =>
    if s.twin.trigger.isSome || !s.paired then s.swapLost
    else
      let s := { s with twin.leadB := !s.twin.leadB, twin.swapPend := none }.count fTwin 14
      match s.keeper.run with
      | some r => if r.cmd.opcode = 0xA2#8 then s.endRun stOk ((if s.twin.leadB then 1#8 else 0#8) :: zeros 3) else s
      | none => s

/-- The edge is one at which checkpoint k may be compared: 16 FCLK after it, or where a frame was resent up to 48 (R356). -/
def compareEdge (k e : Nat) (resent : Bool) : Bool :=
  if resent then decide (256 * k + 16 ≤ e) && decide (e ≤ 256 * k + 48) else decide (e = 256 * k + 16)

/-- SIG_COMPARE: the two signatures of a checkpoint, as their frames brought them, compared once both are in. -/
def State.sigCompare (s : State) : State :=
  let l := s.lead
  let m := s.mirror
  if !s.running || !s.mirrorRuns || !l.frameIn || !m.frameIn || decide (l.sigK ≠ m.sigK) || decide (s.twin.comparedK = l.sigK) ||
      !compareEdge l.sigK s.clock.edge (l.resend || m.resend) then s
  else
    let s := { s with twin.lastCompare := l.frameSig, twin.comparedK := l.sigK }.count fTwin 6
    if l.frameSig = m.frameSig then s.trusted.swapNow
    else if s.paired then (s.trigger 1).swapLost else s.trigger 7

/-- HB_LOSS: a well has received no valid frame for 1,024 FCLK, which is one loss until a valid frame comes. -/
def State.heartbeatLoss (s : State) (b : Bool) : State :=
  let w := s.well (!b)
  if s.running && s.linkUsed && !w.hbLost && decide (w.frameAt + 1024 ≤ s.clock.edge) then
    ((s.modWell (!b) fun w => { w with hbLost := true }).count fTwin 8).linkLost
  else s

/-- Both reports are in: the decision comes at an edge (R362). -/
def State.decideAt (s : State) (t : Nat) : State :=
  { s with twin.failover := s.twin.failover.map fun (f : Failover) => { f with decided := some t } }

/-- A well reports to the lead-select unit at an edge; with the other's report in, the decision comes one edge later. -/
def State.reports (s : State) (b healthy : Bool) : State :=
  let s := s.modWell b fun w => { w with report := some healthy }
  if (s.well (!b)).report.isSome then s.decideAt (s.clock.edge + 1) else s

/-- A well whose ALIVE stops during a sequence is unhealthy, whatever its self-check finds (R361). -/
def State.silentNow (s : State) (b : Bool) : State :=
  match s.twin.failover with
  | some f => if f.decided.isNone && decide (f.freeze < s.clock.edge) then s.reports b false else s
  | none => s

/-- LEAD_SILENT: the lead's ALIVE has not toggled at 8 consecutive edges of the merged clock. -/
def State.leadSilent (s : State) (quiet : Nat) : State :=
  if s.startup.ready && decide (8 ≤ quiet) then (s.silentNow s.twin.leadB).trigger 3 else s

/-- MIRROR_SILENT, from a paired or a joining well. -/
def State.mirrorSilent (s : State) (quiet : Nat) : State :=
  if s.startup.ready && decide (8 ≤ quiet) && (s.paired || s.twin.repair.isSome) then (s.silentNow (!s.twin.leadB)).trigger 5
  else s

/-! ### The failover sequence (R360 to R363) -/

/-- Every core-edge line is held low from this edge (R360). -/
def State.linesLow (s : State) : State :=
  (keys s.cores).foldl (fun (s : State) n => s.modCore n fun c => { c with lineN := [], lineF := [], lineW := [] }) s

/-- FAILOVER_FREEZE: the freeze takes effect; a lead that raised UNCORR_LEAD or fell silent is unhealthy without a
self-check, which it reports at f + 1. -/
def State.freeze (s : State) : State :=
  match s.twin.trigger with
  | none => s
  | some t =>
    if !s.running || !s.paired || decide (4 < t.cause) || decide (s.clock.edge ≤ t.edge) then s
    else
      let f : Failover :=
        { trigger := t, freeze := s.clock.edge, decided := if t.leadBad && t.mirrorBad then some (s.clock.edge + 2) else none,
          promoted := false, stage := 0, replays := [], replayed := 0, keeperOn := s.midStep }
      let l := s.twin.leadB
      let s := s.modWell l fun w => { w with report := if t.leadBad then some false else none }
      let s := s.modWell (!l) fun w => { w with report := if t.mirrorBad then some false else none }
      { s.linesLow with twin.failover := some f, twin.trigger := none }

/-- The page-write journal read again in a well through its checkers: no page of it is uncorrectable there, and no page's EPOCH
majority disagrees with its row's key slot. `pages` are those that the well does not read clean (R361). -/
def State.journalSound (s : State) (b : Bool) (pages : List SweptPage) : Bool :=
  let upset (p : SweptPage) : Bool :=
    let st := p.store.toNat
    let pg := p.index.toNat
    let v := withStored (if b then p.page.b else p.page.a) (s.storedErrs b st pg)
    s.twin.pageJournal.contains (pageKey st pg) && isUncorr (asRead v (s.strengthAt st pg))
  !pages.any upset && !s.twin.pageJournal.any fun k =>
    look false (s.well b).poison k || s.epochBad (k / 65536) (k % 65536)

/-- The disagreements of the full TMR vote, with those counted in the 1,024 FCLK before the freeze, do not exceed TMR_LIMIT. -/
def State.votesFew (s : State) (freeze votes : Nat) : Bool :=
  decide (votes + (s.twin.votes.filter fun e => decide (freeze ≤ e + 1024)).length ≤ bits (s.reg fTwin 0x20) 7 0)

/-- The three parts of a well's self-check (R361). -/
def State.healthy (s : State) (f : Failover) (b : Bool) (c : SelfCheck) : Bool :=
  s.journalSound b c.pages && s.votesFew f.freeze c.votes && c.romOk

/-- SELF_CHECK_REPORT of a well, by edge f + 15,000. -/
def State.selfReport (s : State) (b : Bool) (c : SelfCheck) : State :=
  match s.twin.failover with
  | none => s
  | some f =>
    if f.decided.isSome || (s.well b).report.isSome || decide (s.clock.edge ≤ f.freeze) ||
        decide (f.freeze + 15000 < s.clock.edge) then s
    else s.reports b (s.healthy f b c)

/-- SELF_CHECK_DEADLINE: a well that has not reported is unhealthy. -/
def State.selfDeadline (s : State) : State :=
  match s.twin.failover with
  | none => s
  | some f =>
    if f.decided.isSome || decide (s.clock.edge < f.freeze + 15000) then s else s.decideAt (f.freeze + 15001)

/-- The resume edge of a decided sequence. -/
def Failover.resumeAt (f : Failover) : Option Nat :=
  f.decided.map fun t => t + if f.promoted then 258 else 2

/-- The decision (R362). -/
def State.decideNow (s : State) (f : Failover) (t : Nat) : State :=
  let ok (b : Bool) : Bool := decide ((s.well b).report = some true)
  let l := s.twin.leadB
  let heir := ok (!l) && s.paired
  let promoted := !ok l && heir
  let fault := !ok l && !heir
  let f := { f with promoted := promoted, stage := 1 }
  let outcome := if fault then 2 else if promoted then 1 else 0
  let length := if fault then 0 else f.resumeAt.getD f.freeze - f.freeze
  let s := { s with twin.failover := some f, twin.lastEvent := eventWord f.trigger.cause outcome (ok false) (ok true) length }
  let s := if fault then s else s.event fTwin 3 148
  let s := { s with twin.failover := some { f with decided := some t } }
  if fault then s.failFabric
  else if promoted then (s.count fTwin 4).declareDivergent l
  else s.declareDivergent (!l)

/-- The entries of the acknowledge journal in the window, in journal order, each INTID at its first entry (log entry 93). -/
def replayList (l : List AckEntry) (freeze : Nat) : List AckEntry :=
  (l.filter fun (j : AckEntry) => decide (freeze ≤ j.edge + 512)).foldl
    (fun (acc : List AckEntry) (j : AckEntry) => if acc.any fun (k : AckEntry) => decide (k.intid = j.intid) then acc else acc ++ [j]) []

/-- A presented INTID's DUP mark shows in its slot. -/
def Slot.marked (p : Slot) (key : Nat) : Slot := if p.intid = key then { p with dup := true } else p

/-- One INTID offered again with its DUP mark (R366). -/
def State.replayOne (s : State) (j : AckEntry) : State :=
  let x := s.int j.intid
  let inSlot : Bool := match s.act j.target j.fast with
    | some a => decide (a.intid = j.intid)
    | none => false
  let s := if inSlot then s.freeSlot j.target j.fast else s
  let again := inSlot || (!x.pending && !x.active)
  let y : IntState :=
    { x with dup := true, origin := if x.origin.isSome then x.origin else j.origin, pending := x.pending || again, active := x.active && !inSlot,
             candFrom := if again then s.clock.dp else x.candFrom }
  let s := s.setInt j.intid y
  let s := (keys s.cores).foldl
    (fun (s : State) n => s.modCore n fun c =>
      { c with presN := c.presN.map fun p => p.marked j.intid, presF := c.presF.map fun p => p.marked j.intid }) s
  s.count fTwin 9

/-- Replay set-up, from t + 2 on promotion: R363 has the journal applied in t + 2 to t + 257, and the model takes an entry an edge
(DESIGN CHOICE, log entry 112). -/
def State.replayNow (s : State) : State :=
  match s.twin.failover with
  | some f =>
    match f.decided with
    | some t =>
      let n := s.clock.edge - (t + 1) - f.replayed
      if f.stage < 2 ∨ n = 0 ∨ f.replays.isEmpty then s
      else
        let g := { f with replays := f.replays.drop n, replayed := f.replayed + n }
        (f.replays.take n).foldl (fun (s : State) j => s.replayOne j) { s with twin.failover := some g }
    | none => s
  | none => s

/-- The phases of the sequence that its edges bring: the decision at t and the switch at t + 1. -/
def State.failoverPhases (s : State) : State :=
  let s := match s.twin.failover with
    | some f =>
      match f.decided with
      | some t => if f.stage = 0 ∧ t ≤ s.clock.edge then s.decideNow f t else s
      | none => s
    | none => s
  match s.twin.failover with
  | some f =>
    match f.decided with
    | some t =>
      if f.stage = 1 ∧ t < s.clock.edge then
        let f := { f with stage := 2, replays := if f.promoted then replayList s.twin.journal f.freeze else [] }
        { s with twin.leadB := if f.promoted then !s.twin.leadB else s.twin.leadB, twin.failover := some f }
      else s
    | none => s
  | none => s

/-! ### Replay (R365 to R367) -/

/-- Rounds may be held at the resume edge itself. -/
def State.openRounds (s : State) : State :=
  (keys s.cores).foldl
    (fun (s : State) n => s.modCore n fun c => { c with fromN := min c.fromN s.clock.dp, fromF := min c.fromF s.clock.dp }) s

/-- Replay set-up in the promoted well is over, and its journal starts anew. -/
def State.replay (s : State) : State := { s.openRounds with twin.journal := [] }

/-! ### Rewrites (R256) -/

/-- The record was appended in the two checkpoint intervals before the freeze or during it. -/
def recentRecord (freeze : Nat) (b : Buffered) : Bool := decide (freeze ≤ b.appended + 512)

/-- The record's slot has been taken by a later record. -/
def overtaken (total : Word) (log : Nat) (b : Buffered) : Bool :=
  decide (2 ^ log < (total - BitVec.ofNat 32 b.index).toNat)

/-- The records of a line to be rewritten: of a cistern whose entry does not hold its TOTAL none has been overtaken, as no
record has come to it since. -/
def State.rewritten (s : State) (freeze : Nat) (k : OutKind) : List Buffered :=
  match k with
  | .line c items =>
    items.filter fun b => recentRecord freeze b && match s.cached c with
      | some x => decide (x.st ≠ .opened) || !overtaken x.total (dscLog2 x.w0) b
      | none => true
  | .spill items => items.filter fun b => recentRecord freeze b && !overtaken s.pump.spill.total s.spillLog b
  | .respill items => items.filter fun b => recentRecord freeze b && !overtaken s.pump.spill.total s.spillLog b
  | _ => []

/-- A line's kind with other records. -/
def OutKind.withItems (k : OutKind) (items : List Buffered) : OutKind :=
  match k with
  | .line c _ => .line c items
  | .spill _ => .spill items
  | .respill _ => .respill items
  | k => k

/-- The kind of a write made again after it was acknowledged. -/
def OutKind.again (k : OutKind) : OutKind :=
  match k with
  | .spill items => .respill items
  | k => k

/-- The bytes of a line that some of its records take. -/
def lineSlots (q : OutReq) (items : List Buffered) : List (Nat × Byte) :=
  q.bytes.filter fun e => items.any fun b => decide ((e.1 - q.addr) / 16 = b.index % 4)

/-- The rewrite of a write, if it carries anything of the interval. -/
def State.rewriteOf (s : State) (freeze : Nat) (e : Nat × OutAccess) : Option OutReq :=
  let q := e.2.req
  match q.kind with
  | .producer _ _ => if freeze ≤ e.1 + 512 then some q else none
  | k =>
    let items := s.rewritten freeze k
    if items.isEmpty then none else some { q with kind := k.withItems items, bytes := lineSlots q items }

/-- The records that rewrites carry settle at the rewrites' acknowledgement, and not at that of the first write. -/
def State.unburden (s : State) (freeze : Nat) (a : OutAccess) : OutAccess :=
  match a.req.kind with
  | .line _ items => strip items
  | .spill items => strip items
  | .respill items => strip items
  | _ => a
where
  /-- The access without the records that are rewritten. -/
  strip (items : List Buffered) : OutAccess :=
    let again := s.rewritten freeze a.req.kind
    { a with req := { a.req with kind := a.req.kind.withItems (items.filter fun b => !again.contains b) } }

/-- The edge by which a rewrite takes its place: that of its first record's append, or of a producer-word write itself, which
follows the records it covers (R256). -/
def rewriteAt (freeze : Nat) (e : Nat × OutReq) : Nat :=
  let first (l : List Buffered) : Nat := (l.head?.map fun b => b.appended).getD freeze
  match e.2.kind with
  | .line _ items => first items
  | .spill items => first items
  | .respill items => first items
  | _ => e.1

/-- A rewrite put in its place by append order, after those of the same edge. -/
def putRewrite (freeze : Nat) (e : Nat × OutReq) : List (Nat × OutReq) → List (Nat × OutReq)
  | [] => [e]
  | f :: t => if rewriteAt freeze e < rewriteAt freeze f then e :: f :: t else f :: putRewrite freeze e t

/-- The rewrites made ready for the resume edge. -/
def State.prepareRewrites (s : State) (freeze : Nat) : State :=
  let out := (s.pump.issued.filter fun (a : OutAccess) => !a.timedOut && (a.req.kind.isLine || a.req.kind.isProducer)).map
    fun (a : OutAccess) => (freeze, a)
  let done := s.twin.recent.map fun e => (e.1, { e.2 with req.kind := e.2.req.kind.again })
  let l := (done ++ out).filterMap fun e => (s.rewriteOf freeze e).map fun q => (e.1, q)
  let l := (l.foldl (fun acc e => putRewrite freeze e acc) []).map Prod.snd
  let issued := s.pump.issued.map fun (a : OutAccess) => if a.timedOut then a else s.unburden freeze a
  { s with pump.rewrites := s.pump.rewrites ++ l, pump.issued := issued, twin.recent := [] }

/-! ### The resume edge (R363) -/

/-- The core-edge lines follow their slots from this edge, with the lag of R91. -/
def State.redrive (s : State) : State :=
  let rise (v : Bool) : Line := if v then [(s.clock.edge + 3, true)] else []
  (keys s.cores).foldl
    (fun (s : State) n => s.modCore n fun c =>
      { c with lineN := rise c.presN.isSome, lineF := rise c.presF.isSome, lineW := rise c.wake,
               lat := c.lat.map fun w => { w with rise := s.clock.edge + 3 } }) s

/-- FAILOVER_RESUME, the answers held during the freeze apart: the freeze ends at r. -/
def State.unfreeze (s : State) : State :=
  match s.twin.failover with
  | none => s
  | some f =>
    match f.resumeAt with
    | none => s
    | some r =>
      if f.stage < 2 ∨ s.clock.edge < r then s
      else
        let s := { s with twin.failover := none, twin.trigger := none }
        let s := if f.promoted then s.replay.prepareRewrites f.freeze else s
        s.redrive.swapLost

/-! ### Re-pair: the attempt (R370 to R374) -/

/-- The physical pages of a chunk. -/
def chunkPages (n : Nat) : List Nat :=
  let c := chunkAt n
  (List.range 64).map fun i => if c.1 < 2 then (c.2.2 + i) * 16 + c.2.1 else c.2.2 + i

/-- The data bytes of a page as the stream carries them: of route and rights pages the entries, of a mailbox its bytes, else a free
value, as the manual gives the other pages no layout (log entry 34). -/
def State.pageBytes (s : State) (store p : Nat) : List Byte :=
  if store < 2 then
    let h := s.hash (decide (store = 1))
    let row := p / 16
    let page := row * 16 + ((p % 16) ^^^ bankHash row (h.keyFor row))
    if store = 0 then ((List.range 8).map fun j => leBytes 8 (s.routeEntry (8 * page + j)).toNat).flatten
    else ((List.range 4).map fun j => leBytes 16 (s.rightsEntry (4 * page + j)).toNat).flatten
  else if store = 6 then (List.range 64).map fun i => look 0#8 (s.box (p / 64)).bytes (64 * (p % 64) + i)
  else ((Config.stagedPage store p s.clock.edge) ++ zeros 64).take 64

/-- A bit per page of a chunk. -/
def chunkMask (n : Nat) (f : Nat → Bool) : Nat :=
  ((List.range 64).zip (chunkPages n)).foldl (fun m e => if f e.2 then m + 2 ^ e.1 else m) 0

/-- Bytes 0 to 47 of a slot, the additional authenticated data. -/
def State.chunkHead (s : State) (id n : Nat) : List Byte :=
  let c := chunkAt n
  ascii "ARP1" ++ leBytes 4 id ++ leBytes 4 n ++ leBytes 1 c.1 ++ leBytes 1 c.2.1 ++ leBytes 2 c.2.2 ++ leBytes 1 64 ++ zeros 7 ++
    leBytes 8 (if c.1 < 2 then chunkMask n (s.epoch c.1) else 0) ++ leBytes 8 (chunkMask n (s.poisoned c.1)) ++ zeros 8

/-- The 4,160 bytes of a slot: header, tag and ciphertext. -/
def State.chunkSlot (s : State) (key : List Byte) (id n : Nat) : List Byte :=
  let k := aesKey key
  let iv := leBytes 4 id ++ leBytes 4 n ++ zeros 4
  let head := s.chunkHead id n
  let cipher := gcmCrypt k iv 0 ((chunkPages n).map fun p => s.pageBytes (chunkAt n).1 p).flatten
  let acc := ghash (ghashKey k) (ghash (ghashKey k) 0 head) cipher
  head ++ gcmTag k iv acc 48 cipher.length ++ cipher

/-- The access to one line of a chunk's slot. -/
def stagingReq (r : Repair) (n u : Nat) (write : Bool) (data : List Byte) : OutReq :=
  let a := r.base + 4160 * (n % r.slots) + 64 * u
  { kind := .staging n u write, addr := a, host := 0, line := true,
    bytes := if write then bytesAt a ((data.drop (64 * u)).take 64) else [] }

/-- An access to a chunk's slot is waiting or awaited. -/
def State.stagingBusy (s : State) (n : Nat) : Bool :=
  let of_ (k : OutKind) : Bool := match k with
    | .staging m _ _ => decide (m = n)
    | _ => false
  (s.pump.staging.any fun (q : OutReq) => of_ q.kind) || (s.pump.tier1.any fun (q : OutReq) => of_ q.kind) ||
    s.pump.issued.any fun (a : OutAccess) => of_ a.req.kind

/-- An attempt of the joining well starts at a phase, with the well's next identifier. Its poison map is clear: the well comes
out of well reset, or its stores have been refilled (R368, R375, R397). -/
def State.startAttempt (s : State) (phase slots base : Nat) : State :=
  let id := s.mirror.repairId + 1
  let r : Repair :=
    { phase := phase, key := [], repairId := id, staged := 0, opened := 0, slots := slots, base := base, refillAt := none,
      fwd := [], started := s.clock.edge, strengths := [], flying := [], back := [] }
  let s := s.modWell (!s.twin.leadB) fun w => { w with repairId := id, poison := [] }
  { s.count fTwin 11 with twin.repair := some r }

/-- REPAIR taken: the checks of R370, and the attempt. `powerGood` is the power-good input of the joining well's island. -/
def State.repairStart (s : State) (r : Run) (powerGood : Bool) : State :=
  let base := r.cmd.field 0 8
  let size := r.cmd.field 8 4
  if decide (2 ^ 48 ≤ base) || decide (base % 64 ≠ 0) || decide (size < 16640) || !s.permitted 0 base size false then
    s.endZero stRange
  else if s.paired then s.endZero stOk
  else if s.twin.failover.isSome || s.twin.swapPend.isSome || s.scrubGroupTaken then s.endZero stBusy
  else match s.enterGroup r.cmd with
    | none => s.endZero stBusy
    | some s =>
      let s := if s.twin.repair.isSome then s.stopRepair 6 else s
      let m := !s.twin.leadB
      let s := s.modWell m fun w => { w with power := powerGood }
      if !powerGood then s.endZero stAborted
      else
        let s := s.modWell m fun w => { w with held := false, step := 1, stepAt := s.clock.edge, failed := 0 }
        let s := { s with twin.pair := .repairing, twin.retries := 0 }
        (s.startAttempt 1 (size / 4160) base).setRun { r with phase := .waiting }

/-- The outcome that a REPAIR whose attempt has ended returns: the attempt's, whatever has become of the pair since. -/
def State.repairOutcome (s : State) : Nat := s.twin.repairStatus

/-- REPAIR: starts the attempt, and returns its outcome, after a resume too. -/
def State.cmdRepair (s : State) (powerGood : Bool) : State :=
  match s.runOf 0xA1 .fresh with
  | some r => s.repairStart r powerGood
  | none =>
    match s.runOf 0xA1 .waiting with
    | some r =>
      match s.twin.repair with
      | some a => s.setRun { r with step := a.opened }
      | none => s.repairReturns s.repairOutcome
    | none => s

/-- The attempt's record changed. -/
def State.setRepair (s : State) (r : Repair) : State := { s with twin.repair := some r }

/-- REPAIR_DIGEST_MATCH: the joining well has passed its start-up steps and sent its digest. -/
def State.digestMatch (s : State) (agree : Bool) : State :=
  match s.twin.repair with
  | some r =>
    if !s.running || decide (r.phase ≠ 1) || decide (s.mirror.step < 10) then s
    else if !agree then s.failRepair 3 stAborted
    else
      let heard (w : Well) : Well := { w with frameAt := s.clock.edge, hbLost := false, sigK := s.lead.sigK, frameIn := true }
      let s := (s.modWell false heard).modWell true heard
      { s with twin.pair := .untrusted, twin.untrusted := true }.setRepair { r with phase := 2, started := s.clock.edge }
  | none => s

/-- A random word of the key K; with the fourth, the start frame is sent, with the STRENGTH of each store, and forwarding begins
(R371). -/
def State.repairWord (s : State) (r : Repair) (w : DWord) : State :=
  let key := r.key ++ leBytes 8 w.toNat
  if key.length < 32 then s.setRepair { r with key := key }
  else s.setRepair { r with key := key, phase := 3, started := s.clock.edge, strengths := (List.range 7).map s.strengthOf }

/-- The attempt waits for random words. -/
def State.repairWants (s : State) : Option Repair :=
  match s.twin.repair with
  | some r => if r.phase = 2 ∧ r.refillAt = none then some r else none
  | none => none

/-- No random words within R306's limit (R377). -/
def State.repairStarved (s : State) : State :=
  match s.repairWants with
  | some r => if s.running && decide (r.started + 1250000 ≤ s.clock.edge) then s.failRepair 8 stAborted else s
  | none => s

/-- REPAIR_CHUNK_STAGE: the next chunk, read from its bank in one keeper-marked sequence, sealed, and its line writes handed
to the outbound arbiter. -/
def State.chunkStage (s : State) : State :=
  match s.twin.repair with
  | some r =>
    let g := s.markedLock.filter fun (l : Lock) =>
      decide (some (l.memory, l.bank) = s.stageBank) && decide (l.grant < s.clock.dp) && decide (s.clock.dp < l.grant + 64)
    match if s.running then g else none with
    | none => s
    | some l =>
      let s := s.unlock l.memory l.bank
      let data := s.chunkSlot r.key r.repairId.toNat r.staged
      let l := (List.range 65).map fun u => stagingReq r r.staged u true data
      { s with pump.staging := s.pump.staging ++ l }.setRepair { r with staged := r.staged + 1 }
  | none => s

/-- A staging access has been answered: after a chunk's last write its slot is read back, and what is read is kept for the
joining well (R372). -/
def State.stagingAnswer (s : State) (k : OutKind) (ok : Bool) (data : List Byte) : State :=
  match s.twin.repair, k with
  | some r, .staging n u write =>
    if chunkCount ≤ n then s
    else if !ok then s.failRepair 4 stAborted
    else if !write then s.setRepair { r with back := r.back ++ [(n, u, (data ++ zeros 64).take 64)] }
    else if !s.stagingBusy n then
      { s with pump.tier1 := s.pump.tier1 ++ (List.range 65).map fun u => stagingReq r n u false [] }
    else s
  | _, _ => s

/-- The slot of a chunk as it has been read back, once all its lines are. -/
def Repair.slot (r : Repair) (n : Nat) : Option (List Byte) :=
  let line (u : Nat) : Option (List Byte) := (r.back.find? fun e => decide (e.1 = n) && decide (e.2.1 = u)).map fun e => e.2.2
  let lines := (List.range 65).filterMap line
  if lines.length = 65 then some lines.flatten else none

/-- A slot opens: its header is that of the chunk expected, and its GCM tag verifies under K (R375). -/
def State.slotOpens (s : State) (r : Repair) (n : Nat) (slot : List Byte) : Bool :=
  let head := slot.take 48
  let cipher := slot.drop 64
  let k := aesKey r.key
  let iv := leBytes 4 r.repairId.toNat ++ leBytes 4 n ++ zeros 4
  let acc := ghash (ghashKey k) (ghash (ghashKey k) 0 head) cipher
  decide (head.take 24 = (s.chunkHead r.repairId.toNat n).take 24) && decide (gcmTag k iv acc 48 cipher.length = (slot.drop 48).take 16)

/-- A chunk's tag fails: the joining well is refilled and the attempt starts again, at most three times (R375). -/
def State.tagFailed (s : State) (r : Repair) : State :=
  let s := { s.count fTwin 12 with twin.failCause := 1 }
  if 3 ≤ s.twin.retries then s.failRepair 1 stAuthFail
  else
    let s := s.dropStaging
    { s with twin.retries := s.twin.retries + 1 }.setRepair
      { r with phase := 2, key := [], staged := 0, opened := 0, fwd := [], flying := [], back := [],
               refillAt := some (s.clock.edge + 12288) }

/-- The pages of the chunk that is opened, but for those a forwarded write has set, are written into the joining well with the
poison state of the slot's mask, before the tag is checked (R373). What the model holds of a page's data it holds once for both
wells (R17). -/
def State.chunkPoison (s : State) (r : Repair) (slot : List Byte) : State :=
  let store := (chunkAt r.opened).1
  let mask := ofLe ((slot.drop 32).take 8)
  ((List.range 64).zip (chunkPages r.opened)).foldl
    (fun (s : State) e =>
      let k := pageKey store e.2
      if look false r.fwd k then s
      else s.modWell (!s.twin.leadB) fun w => { w with poison := ins false w.poison k (mask.testBit e.1) }) s

/-- The stream is over: its last chunk has verified and every forwarded write has landed (R371). -/
def Repair.streamed (r : Repair) : Repair :=
  if r.phase = 3 ∧ r.opened = chunkCount ∧ r.flying.isEmpty then { r with phase := 4 } else r

/-- REPAIR_CHUNK_OPEN: a slot read back is opened, its pages written, and its header and tag checked. -/
def State.chunkOpen (s : State) : State :=
  match s.twin.repair with
  | some r =>
    match r.slot r.opened with
    | none => s
    | some slot =>
      if !s.running || decide (r.phase ≠ 3) || decide (r.staged ≤ r.opened) || s.stagingBusy r.opened then s
      else
        let opens := s.slotOpens r r.opened slot
        let s := s.chunkPoison r slot
        if !opens then s.tagFailed r
        else s.setRepair ({ r with opened := r.opened + 1, back := r.back.filter fun e => decide (e.1 ≠ r.opened) } : Repair).streamed
  | none => s

/-- REPAIR_REFILL_DONE: a new attempt starts at phase 2, with a new identifier. -/
def State.refillDone (s : State) : State :=
  match s.twin.repair with
  | some r =>
    match r.refillAt with
    | some t => if s.running && decide (t ≤ s.clock.edge) then s.startAttempt 2 r.slots r.base else s
    | none => s
  | none => s

/-- FORWARDED_WRITE: a page write of the lead that is on the link lands in the joining well, 4 FCLK after it was made: the oldest
of that page (R373). -/
def State.forwarded (s : State) (store page : Nat) : State :=
  match s.twin.repair with
  | some r =>
    let k := pageKey store page
    match r.flying.find? fun e => decide (e.1 = k) && decide (e.2.1 ≤ s.clock.edge) with
    | none => s
    | some e =>
      if !s.running || decide (r.phase ≠ 3 ∧ r.phase ≠ 4) then s
      else
        let s := s.modWell (!s.twin.leadB) fun w => { w with poison := ins false w.poison k e.2.2 }
        (s.count fTwin 15).setRepair ({ r with fwd := ins false r.fwd k true, flying := r.flying.erase e } : Repair).streamed
  | none => s

/-- REPAIR_JOIN: at a checkpoint edge the joining well takes the lead's state, the latches merge and both signature
chains restart (R376). -/
def State.join (s : State) : State :=
  match s.twin.repair with
  | some r =>
    if !s.running || decide (r.phase ≠ 4) || decide (s.clock.edge % 256 ≠ 0) then s
    else
      let k := s.clock.edge / 256
      let p := s.lead.poison
      let rec_ := s.lead.uncorrLast
      let fresh (w : Well) : Well :=
        { w with sig := 0xFFFFFFFFFFFFFFFF#64, sigK := k, frameAt := s.clock.edge, hbLost := false, frameIn := true, resend := false }
      let s := (s.modWell false fresh).modWell true fresh
      let s := s.modWell (!s.twin.leadB) fun w => { w with poison := p, uncorrLast := rec_, invertNext := false, mutedUntil := 0 }
      let z := s.levels.islandA.z ||| s.levels.islandB.z
      let s := s.modIslands fun i => { i with z := z }
      { s with twin.comparedK := k }.setRepair { r with phase := 5, fwd := [], flying := [], back := [] }
  | none => s

/-- A well's power-good falls, which ends an attempt of that well (R377). -/
def State.powerGone (s : State) (b : Bool) : State :=
  let s := s.modWell b fun w => { w with power := false }
  if s.twin.repair.isSome && decide (b ≠ s.twin.leadB) then s.failRepair 9 stAborted else s

/-! ### The units' parts of commands that the keeper's frame cuts short -/

/-- WATCHDOG_EXPIRE, with the record of an image command cut short. -/
def State.watchdogExpires (s : State) : State :=
  if s.watchdogDue then s.imageCut.watchdog else s

/-- RANDOM_WAIT_TIMEOUT of a command or of a re-pair attempt. -/
def State.randomExpires (s : State) : State := s.randomTimeout.repairStarved

end Sys2Proof.Machine
end

