-- ==== Sys2Proof/Machine/Bch.lean ====
section
/-! DEFINITION. The page code of stored state: a binary BCH code over GF(2^10), its systematic encoding and its check positions (R28, R383, R384). -/

namespace Sys2Proof.Machine

/-! ### Polynomials over GF(2), as numbers: bit i is the coefficient of x^i -/

/-- The product. -/
def polyMul (a b : Nat) : Nat :=
  (List.range (b.log2 + 1)).foldl (fun acc i => if b.testBit i then acc ^^^ (a <<< i) else acc) 0

/-- The remainder by a polynomial `g` of degree `d` of one of degree below `n + d`. -/
def polyRem (g d : Nat) : Nat → Nat → Nat
  | 0, x => x
  | n + 1, x => polyRem g d n (if x.testBit (n + d) then x ^^^ (g <<< n) else x)

/-! ### GF(2^10) on x^10 + x^3 + 1 -/

/-- The primitive polynomial. -/
def fieldPoly : Nat := 0x409

/-- The product of two elements. -/
def gfMul (a b : Nat) : Nat := polyRem fieldPoly 10 10 (polyMul a b)

/-- α^n, where α is x. -/
def alphaPow : Nat → Nat
  | 0 => 1
  | n + 1 => gfMul 2 (alphaPow n)

/-- An element with its conjugates: its squares, ten in all. -/
def conjugates : Nat → Nat → List Nat
  | 0, _ => []
  | n + 1, b => b :: conjugates n (gfMul b b)

/-- A polynomial over the field, by its coefficients from the lowest, times (X + c). -/
def timesRoot (p : List Nat) (c : Nat) : List Nat :=
  List.zipWith (fun a b => a ^^^ b) (0 :: p) (p.map (gfMul c) ++ [0])

/-- The minimal polynomial of an element, over GF(2): the product of (X + c) over its distinct conjugates. -/
def minPoly (b : Nat) : Nat :=
  let p := (conjugates 10 b).eraseDups.foldl timesRoot [1]
  (p.foldr (fun c acc => 2 * acc + c % 2) 0)

/-! ### The code (R383) -/

/-- g_t: the least common multiple of the minimal polynomials of α, α^3 up to α^(2t−1). They are irreducible, so it is the product
of the distinct ones. -/
def bchGenerator (t : Nat) : Nat := ((List.range t).map fun i => minPoly (alphaPow (2 * i + 1))).eraseDups.foldl polyMul 1

/-- A page as it is stored: 512 data bits and 80 check positions (R28). -/
structure Codeword where
  data : BitVec 512
  check : BitVec 80
deriving DecidableEq, Repr

/-- The check bits of a page: d(x)·x^(10t) mod g_t(x). -/
def checkBits (t : Nat) (d : BitVec 512) : Nat := polyRem (bchGenerator t) (10 * t) 512 (d.toNat <<< (10 * t))

/-- The systematic encoding of a page: check bit j in check position j, positions 10t to 79 zero. -/
def encodePage (t : Nat) (d : BitVec 512) : Codeword := { data := d, check := BitVec.ofNat 80 (checkBits t d) }

/-- The bits in error of a page as it is read, against the codeword written: check positions 10t to 79 are ignored. -/
def errorBits (t : Nat) (written read : Codeword) : Nat :=
  let used := (List.range (10 * t)).filter fun j => bit written.check j ≠ bit read.check j
  ((List.range 512).filter fun i => bit written.data i ≠ bit read.data i).length + used.length

/-- The verdict of a page's checker: it corrects up to t bits in error, in data or in check positions (R384, R386; log entry
15). -/
def codeVerdict (t : Nat) (written read : Codeword) : Verdict :=
  let n := errorBits t written read
  if n = 0 then .clean else if n ≤ t then .corr n else .uncorr

/-- The codeword of a page of a store, at the STRENGTH that applies to its position (R383, R399). -/
def State.codeword (s : State) (store page : Nat) : Codeword :=
  encodePage (s.strengthAt store page) (BitVec.ofNat 512 (ofLe (s.pageBytes store page)))

end Sys2Proof.Machine
end

