-- ==== Sys2Proof/Machine/Outbound.lean ====
section
/-! DEFINITION. The outbound memory port: grants, request beats, timeouts, late and stray answers (R241, R247, R254, R256, R437, R438, R456). -/

namespace Sys2Proof.Machine

/-! ### Failures of any access (R242, R419, R377) -/

/-- An access that failed: `cause` 0 for an error, 1 for a timeout, 2 for an access not permitted. -/
def State.accessFailed (s : State) (k : OutKind) (cause : Nat) : State :=
  match k with
  | .image _ _ => s.imageAnswer false []
  | .staging _ _ _ => s.stagingAnswer k false []
  | k => s.failPump k cause

/-! ### Requests -/

/-- A table read needs TABLE besides (R241). -/
def OutKind.isTable : OutKind → Bool
  | .level1 _ => true
  | .descriptor _ => true
  | .cmdLevel1 _ => true
  | .cmdDescriptor _ => true
  | _ => false

/-- The access is permitted for its host (R241): its unit or its line. -/
def State.reqPermitted (s : State) (q : OutReq) : Bool :=
  if q.line then s.permitted q.host (q.addr / 64 * 64) 64 q.kind.isTable
  else s.permitted q.host (q.addr / 32 * 32) 32 q.kind.isTable

/-- Accesses that hold a place against the limits of R254. -/
def State.readsOut (s : State) : Nat := (s.pump.issued.filter fun (a : OutAccess) => a.req.kind.isRead).length
def State.writesOut (s : State) : Nat := (s.pump.issued.filter fun (a : OutAccess) => a.req.line && !a.req.kind.isRead).length

/-- A request of a kind could be granted at this edge: the request channel can take it, and its limit is not reached. A read's
address may go with the second unit of a line write in one beat, but only before that beat is driven: a beat that has been
driven and not taken holds as it is (R438). -/
def State.canIssue (s : State) (read : Bool) : Bool :=
  s.running && s.pump.beat.isNone &&
    if read then decide (s.readsOut < 64) && (s.pump.second.isNone || decide (s.pump.beatAt = some s.clock.dp)) else s.pump.second.isNone && decide (s.writesOut < 256)

/-- The lowest tag that names no access (R438). -/
def State.nextTag (s : State) : Nat := ((List.range 512).find? fun t => (s.access t).isNone).getD 0

/-- The records of a line write. -/
def OutKind.items? : OutKind → Option (List Buffered)
  | .line _ l => some l
  | .spill l => some l
  | .respill l => some l
  | _ => none

/-- OUT_READS counts fetches and head reads, OUT_WRITES lines and producer words; an image's and a re-pair's accesses are
neither (R264). -/
def State.countIssued (s : State) (k : OutKind) : State :=
  if k.isImage || k.isStaging then s else s.count fOut (if k.isRead then 4 else 3)

/-- A granted request: denied, or put on the request channel with its tag. A line write of fewer than four records counts
in PART_LINES as it is issued, whatever becomes of it (R261). -/
def State.issue (s : State) (q : OutReq) : State :=
  if !s.reqPermitted q then (s.count fOut 6).accessFailed q.kind 2
  else
    let t := s.nextTag
    let a : OutAccess := { req := q, tag := t, takenAt := none, timedOut := false }
    let s := State.countIssued { s with pump.issued := s.pump.issued ++ [a], pump.beat := some t } q.kind
    let s := match q.kind.items? with
      | some l => if l.length < 4 then s.count fPump 15 else s
      | none => s
    if q.kind.isHead then s.count fPump 8 else s

/-! ### Line buffers offered (R247) -/

/-- A line buffer is offered at this edge: full, or no record was appended at this edge or one after its last. -/
def offeredNow (items : List Buffered) (offered : Bool) (last : Option Nat) (now : Nat) : Bool :=
  !items.isEmpty && (offered || decide (4 ≤ items.length) || decide (last ≠ some now))

/-- The cisterns whose buffer is offered. -/
def State.offeredLines (s : State) : List Nat :=
  s.pump.cache.filterMap fun e => match e.2 with
    | some x => if offeredNow x.buffer x.offered (look none s.pump.lastAppend e.1) s.clock.dp then some e.1 else none
    | none => none

def State.spillOffered (s : State) : Bool :=
  offeredNow s.pump.spill.buffer s.pump.spill.offered s.pump.spill.lastAppend s.clock.dp

/-- The tier-2 requesters: the spillway at index 0, cisterns, and re-pair staging. -/
def State.tier2 (s : State) : List Nat :=
  (if s.spillOffered then [0] else []) ++ sorted (s.offeredLines ++ s.pump.left.map Prod.fst) ++ (if s.pump.staging.isEmpty then [] else [32768])

/-- The line that a buffer's records lie in, with the edge of its grant (R247). -/
def grantOf (items : List Buffered) (now l : Nat) : Option (Nat × Nat) :=
  items.head?.map fun b => (now, lineOf l b.index)

/-- A tier-2 winner's request, taken from its buffer or list. The spillway's records keep the indices given at their
append; base and size are those in force at the grant, whatever was written to SPILL_BASE or SPILL_CTRL in between
(DESIGN CHOICE, log entry 79). -/
def State.takeTier2 (s : State) (w : Nat) : Option (OutReq × State) :=
  if w = 0 then
    let items := s.pump.spill.buffer
    let g := grantOf items s.clock.dp s.spillLog
    some (lineReq (.spill items) s.spillBase s.spillLog 0 items,
      { s with pump.spill.buffer := [], pump.spill.offered := false, pump.spill.granted := g })
  else if w = 32768 then
    match s.pump.staging with
    | q :: rest => some (q, { s with pump.staging := rest })
    | [] => none
  else match s.pump.left.find? fun e => decide (e.1 = w) with
  | some e => some (e.2, { s with pump.left := s.pump.left.erase e })
  | none =>
    match s.cached w with
    | some x =>
      some (lineReq (.line w x.buffer) (dscBase x.w0) (dscLog2 x.w0) (dscOwner x.w2) x.buffer,
        s.setCached w (some { x with buffer := [], offered := false, granted := grantOf x.buffer s.clock.dp (dscLog2 x.w0) }))
    | none => none

/-! ### The grant (R254) -/

/-- A rewrite after a failover, issued before anything else from the resume edge (R256, R367). -/
def State.grantRewrite (s : State) (q : OutReq) (rest : List OutReq) : State :=
  let s := { s with pump.rewrites := rest }
  (if q.kind.isLine then s.count fTwin 10 else s).issue q

/-- A tier-2 round. -/
def State.grantTier2 (s : State) : State :=
  let idxs := s.tier2
  match s.arbWinner 50 idxs with
  | none => s
  | some w =>
    match s.takeTier2 w with
    | none => s
    | some (q, t) =>
      let t := if s.arbForced 50 idxs then t.count fOut 7 else t
      (t.arbCharge 50 w idxs [w]).issue q

/-- OUTBOUND_GRANT: a rewrite where a write can be granted, the oldest tier-1 request that can be granted, else a tier-2 round. -/
def State.outboundGrant (s : State) : State :=
  match s.pump.rewrites.filter fun _ => s.canIssue false with
  | q :: rest => s.grantRewrite q rest
  | [] =>
    match s.pump.tier1.find? fun (q : OutReq) => s.canIssue q.kind.isRead with
    | some q => { s with pump.tier1 := s.pump.tier1.erase q }.issue q
    | none => if s.canIssue false then s.grantTier2 else s

/-- OUTBOUND_GRANT: a save that may no longer write its tag asks for nothing (R417). -/
def State.grantOutbound (s : State) : State := s.noteChange.outboundGrant

/-! ### The request channel (R438, R456) -/

/-- OM_REQUEST_TAKEN: the beat on the channel is taken; the timeout of the access it names begins, and the second unit of
a line write follows in the next beat. The channel carries one beat, of at most 32 bytes, an FCLK (R255). -/
def State.requestTaken (s : State) : State :=
  if s.frozen || decide (s.pump.beatAt = some s.clock.dp) then s
  else
    let s := { s with pump.beatAt := some s.clock.dp }
    match s.pump.beat with
    | none => { s with pump.second := none }
    | some t =>
      let taken (a : OutAccess) : OutAccess := if a.tag = t then { a with takenAt := some s.clock.dp } else a
      let second : Option Nat := match s.access t with
        | some a => if a.req.line && !a.req.kind.isRead then some t else none
        | none => none
      { s with pump.issued := s.pump.issued.map taken, pump.beat := none, pump.second := second }

/-! ### Answers -/

/-- LINE_WRITE_RESPONSE, of a line of a cistern, of the spillway or of re-pair staging. -/
def State.lineAnswer (s : State) (tag : Nat) (ok : Bool) : State :=
  match s.access tag with
  | some a =>
    if a.req.kind.isStaging then s.answered tag false ok OutKind.isStaging fun k s => s.stagingAnswer k ok []
    else s.lineResponse tag ok
  | none => s.lineResponse tag ok

/-- IMAGE_SLOT_RESPONSE, and the read-back of a re-pair slot. -/
def State.slotAnswer (s : State) (tag : Nat) (ok : Bool) (data : List Byte) : State :=
  match s.access tag with
  | some a =>
    if a.req.kind.isStaging && a.req.kind.isRead then
      s.answered tag true ok OutKind.isStaging fun k s => s.stagingAnswer k ok data
    else s.imageResponse tag ok data
  | none => s.imageResponse tag ok data

/-- OUTBOUND_TIMEOUT: an access unanswered 65,536 FCLK after it was taken is handled as failed, and keeps its tag. -/
def State.outboundTimeout (s : State) (tag : Nat) : State :=
  match s.access tag with
  | none => s
  | some a =>
    match a.takenAt with
    | none => s
    | some t =>
      if a.timedOut || s.frozen || decide (s.clock.dp < t + Config.timeout) then s
      else
        let late (b : OutAccess) : OutAccess := if b.tag = tag then { b with timedOut := true } else b
        let s := { s with pump.issued := s.pump.issued.map late }
        (s.count fOut 5).accessFailed a.req.kind 1

/-- OUTBOUND_LATE_ANSWER: the late answer frees the tag. -/
def State.lateAnswer (s : State) (tag : Nat) : State :=
  match s.access tag with
  | some a => if a.timedOut then s.freeTag tag else s
  | none => s

/-- OM_STRAY_RESPONSE: a beat that names no access awaiting a response, or does not fit it. -/
def State.strayResponse (s : State) (tag : Nat) (read : Bool) : State :=
  match s.access tag with
  | some a => if a.takenAt.isNone || a.req.kind.isRead ≠ read then s.stray else s
  | none => s.stray

/-! ### Answers held during a freeze (R360) -/

/-- A level that a synchroniser's first stage captured `ago` edges ago is seen from the depth less one on (R24, R266). -/
def State.whenSeen (s : State) (ago : Nat) (f : State → State) : State := if s.depth ≤ ago + 1 then f s else s

/-- The effect on the block of a response, or of a port's or core's own pin. -/
def State.applyAnswer (s : State) (i : Instr) : State :=
  match i with
  | .level1Response _ t ok e => s.level1Response t.toNat ok e
  | .descriptorResponse _ t ok a b c d => s.descriptorResponse t.toNat ok a b c d
  | .controlBlockResponse _ t ok c p => s.controlResponse t.toNat ok c p
  | .headReadResponse _ t ok c => s.headResponse t.toNat ok c
  | .lineWriteResponse _ t ok => s.lineAnswer t.toNat ok
  | .producerWriteResponse _ t ok => s.producerResponse t.toNat ok
  | .outboundLateAnswer _ t => s.lateAnswer t.toNat
  | .omStrayResponse _ t r _ => s.strayResponse t.toNat r
  | .imageSlotResponse _ t ok d => s.slotAnswer t.toNat ok d
  | .portMask _ p => s.maskPort p.pin.toNat
  | .portUnmask _ p => s.unmaskPort p.pin.toNat
  | .coreSleepSeen _ c => s.sleepSeen c.pin.toNat
  | .coreWakeSeen _ c => s.wakeSeen c.pin.toNat
  | _ => s

/-- A response at this edge: applied, or held until the resume edge. -/
def State.response (s : State) (i : Instr) : State :=
  if s.startup.inReset then s
  else if s.frozen then { s with twin.answers := s.twin.answers ++ [i] } else s.applyAnswer i

/-- What a port's or core's own pin does at this edge: it takes effect, or in a freeze, in which the wells keep their state, at the
resume edge (R360, R367; log entry 9). -/
def State.pinSeen (s : State) (ago : Nat) (i : Instr) : State :=
  if s.startup.inReset then s else s.whenSeen ago fun s => s.response i

/-- FAILOVER_RESUME: the freeze ends, and the answers taken during it take effect. -/
def State.resume (s : State) : State :=
  let s := s.unfreeze
  if s.frozen then s
  else
    let l := s.twin.answers
    l.foldl (fun (s : State) i => s.applyAnswer i) { s with twin.answers := [] }

/-! ### Requesters at an arbiter (R174) -/

/-- The requesters that wait at an arbiter at this edge, by its number. -/
def State.waitsAt (s : State) (id : Nat) : List Nat :=
  if id < 32 then sorted ((s.bankRequests (decide (16 ≤ id)) (id % 16)).map Prod.fst)
  else if id = 50 then s.tier2
  else if id = 51 then s.queuedBoxes
  else if id < 316 then s.maintBids 0 (id - 300)
  else if id < 332 then s.maintBids 1 (id - 316)
  else if id < 350 then s.maintBids (id - 340) 0
  else if id < 410 then s.unitsWaiting (id - 400)
  else s.contenders (id - 1000)

end Sys2Proof.Machine
end

