-- ==== Sys2Proof/Machine/Sweep.lean ====
section
/-! DEFINITION. The end of a locked sequence that does not end of itself: the overrun of a keeper-marked sequence, and the vault sweep (R194 to R196, R273, R274). -/

namespace Sys2Proof.Machine

/-! ### Keeper-marked sequences (R194, R195) -/

/-- The command, or the re-pair attempt, that made a broken keeper-marked sequence ends with a status; a re-encode that no
command runs takes its page again. R377 gives a cause for an overrun alone: an attempt that the sweep ends shows the same
cause (DESIGN CHOICE, log entry 84). -/
def State.stopMarked (s : State) (status : Nat) : State :=
  if s.reencodeBank.isSome then s.stopReencode status
  else if s.imagePage.isSome then s.dropReserved.imageFail true status
  else s.failRepair 0x0A status

/-- LOCK_OVERRUN: a keeper-marked sequence that has not ended by g + 63 is broken at g + 64. -/
def State.lockOverrun (s : State) : State :=
  match s.markedLock with
  | some l =>
    if s.clock.dp < l.grant + 64 then s
    else
      let s := (s.unlock l.memory l.bank).event fSluice 10 138
      State.stopMarked { s with sluice.lockLast := lockRecord l false } stOverrun
  | none => s

/-! ### The sweep (R196, R274) -/

/-- A scrub access broken: its page is taken again in the same pass, which has counted nothing of it yet (R195, R395); a
walker asks for its page again. -/
def State.scrubAgain (s : State) (l : Lock) : State :=
  match l.scrub with
  | some n => if n.owned then s else s.setWalker l.memory { s.walker l.memory with wants := true }
  | none => s

/-- What a sequence that the sweep has broken leaves to its owner (R195): a data-plane update is asked for again, a keeper
item's command and a keeper-marked sequence's command return ABORTED, a scrub page is taken again. -/
def State.afterBreak (s : State) (l : Lock) : State :=
  match l.unit with
  | some u => { s with sluice.units := { memory := l.memory, unit := u, lasts := l.lasts - l.grant } :: s.sluice.units }
  | none =>
    if l.owner = 1 then s.stopMarked stAborted
    else if l.owner = 2 then
      match s.keeper.run with
      | some r => s.dropReserved.endCount stAborted r.written
      | none => s
    else s.scrubAgain l

/-- One locked sequence broken by the sweep, with its owner's outcome (R195). -/
def State.breakLock (s : State) (l : Lock) : State :=
  let s := (s.unlock l.memory l.bank).count fSluice 11
  State.afterBreak { s with sluice.lockLast := lockRecord l true } l

/-- A migration row whose banks are reserved is broken: it is requested again from the next edge. It holds the 16 banks of its
store at once, and LOCK_LAST has one BANK field: the model records bank 0 (DESIGN CHOICE, log entry 85). -/
def State.breakRow (s : State) (rights : Bool) : State :=
  let h := s.hash rights
  if h.migActive && h.reserved then
    let l : Lock := { memory := if rights then 1 else 0, bank := 0, owner := 4, grant := h.tickAt, lasts := 0, unit := none,
                      ended := false }
    let s := s.setHash rights { h with reserved := false, tickAt := s.clock.dp + 1 }
    { s.count fSluice 11 with sluice.lockLast := lockRecord l true }
  else s

/-- Every locked sequence in progress is broken. R196 does not say which of those broken at one edge is the last: the model
takes them in the order of their grants, then the route store's migration row, then the rights store's (DESIGN CHOICE, log
entry 85). SWEEPS counts the edge, not the rises in it (R274). -/
def State.breakLocks (s : State) : State :=
  let held := s.sluice.locks.filter fun (l : Lock) => l.holds s.clock.dp && !l.ended && decide (l.grant < l.lasts)
  let s := held.foldl (fun (s : State) l => s.breakLock l) s
  let s := (s.breakRow false).breakRow true
  if s.levels.brokeAt = some s.clock.edge then s
  else State.count { s with levels.brokeAt := some s.clock.edge } fLevel 8

/-- VAULT_SWEEP: the words cleared, and every locked sequence broken once for the rises since the last sweep. -/
def State.sweep (s : State) : State :=
  if !s.sweeping then s
  else
    let last := s.levels.sweepAt
    let rose := (List.range 8).any fun n =>
      s.sampled.inService n && (s.pair n).p &&
        (match last with
          | some l => decide (l < (s.pair n).pAt)
          | none => true)
    let s := { s with levels.sweepAt := some s.clock.edge }
    let s := s.clearHosts
    if rose then s.breakLocks else s

/-- ZLATCH_SEEN: an asynchronously set Z_n acts as one edge with P_n = 1: the sweep at this edge, and the INTID's set three
edges later (R223, R273). -/
def State.zSeen (s : State) (n : Nat) : State :=
  let p := s.pair n
  if !s.inService n ∨ p.seen ∨ !s.zLatched n then s
  else
    let s := s.setPair n { p with seen := true, zAt := if p.p then none else some s.clock.edge }
    if p.p then s else (s.count fLevel 5).clearHosts.breakLocks

/-- The sets that latches make, each three edges after the edge at which it was seen, in the `d` edges that pass (R223). -/
def State.zSets (s : State) (d : Nat) : State :=
  (List.range 8).foldl
    (fun (s : State) n =>
      match (s.pair n).zAt with
      | some z =>
        if s.clock.edge + d < z + 3 then s
        else
          let c := s.clock
          let at_ := { c with edge := z + 3, dp := if s.frozen then c.dp else c.dp + (z + 3 - c.edge) }
          let t := s.setPair n { s.pair n with zAt := none }
          { State.pend { t with clock := at_ } (64 + n) (.level z) with clock := c }
      | none => s) s

end Sys2Proof.Machine
end

