-- ==== Sys2Proof/Machine/Startup.lean ====
section
/-! DEFINITION. Resets, start-up and READY, the random wire, the slow plane, the fast-table sweep and the test access port (R19, R47 to R49, R107, R216, R257, R279, R306, R321, R403 to R413, R426, R443, R444). -/

namespace Sys2Proof.Machine

/-! ### Start-up steps (R407, R411) -/

/-- The limit of a step in FCLK, and the first of the steps that share it. -/
def stepLimit (warm : Bool) (step : Nat) : Nat :=
  if step = 1 then 16384 * Config.zclk else if step = 2 then 2500
  else if step = 3 then if warm then 49152 else 12288
  else if step = 4 then 1250000 else if step = 5 then 4096 * Config.kclk
  else if step < 10 then 2187500 * Config.kclk else 2048

/-- The limit of the step that a well runs: a joining well's fill is that of a power-on (R371, R397). -/
def State.limitOf (s : State) (w : Well) : Nat := stepLimit (decide (s.startup.kind = .warm) && !s.startup.ready) w.step

/-- The well runs its start-up: powered, not held, and not failed. -/
def Well.starting (w : Well) : Bool := w.power && !w.held && decide (w.failed = 0) && decide (1 ≤ w.step) && decide (w.step ≤ 10)

/-- The start-up of both wells, or of a joining well (R371, phase 1). -/
def State.startsUp (s : State) (b : Bool) : Bool :=
  let joins := match s.twin.repair with
    | some r => decide (r.phase = 1) && decide (b ≠ s.twin.leadB) && decide ((s.well b).step < 10)
    | none => false
  !s.startup.inReset && (s.well b).starting && (!s.startup.ready || joins)

/-- A well runs or may run in service: it has passed every step. -/
def Well.passed (w : Well) : Bool := w.power && !w.held && decide (w.failed = 0) && decide (w.step = 11)

/-- The number of random words of step 0x4 (R407, R411). -/
def State.wordsNeeded (s : State) : Nat := if s.startup.kind = .warm then 1 else 4

/-- Neither well can go on (R408). -/
def State.bothFailed (s : State) : Bool :=
  [false, true].all fun b => !(s.well b).power || (s.well b).held || decide ((s.well b).failed ≠ 0)

/-- A well fails its step: it stops there. -/
def State.failStep (s : State) (b : Bool) : State :=
  if s.startup.ready then s.failRepair 3 stAborted
  else
    let s := s.modWell b fun w => { w with failed := w.step }
    if s.bothFailed then { s with twin.fabricFault := true } else s

/-- RND_TEST raised at the start of the random-source test. -/
def State.beginKat (s : State) : State :=
  if s.startup.ready || s.startup.rndTest.isSome || !s.startup.katWords.isEmpty then s
  else { s with startup.rndTest := some s.clock.edge }

/-- A step's own condition for ending well: the checkers' test, the fill and the sweep take their whole time, and with it all
that their limit gives (R396, R397, R407); words are drawn at step 0x4, and the exchange is over at step 0x9. -/
def State.stepMayEnd (s : State) (w : Well) : Bool :=
  (!(decide (w.step = 2) || decide (w.step = 3)) || decide (w.stepAt + s.limitOf w ≤ s.clock.edge)) &&
    (s.startup.ready ||
      (if w.step = 4 then decide (s.wordsNeeded ≤ s.startup.drawn.length)
       else if w.step = 9 then decide (s.startup.katWords.length = 4) && s.startup.rndTest.isNone else true))

/-- A step that has not ended by its limit fails (R407). -/
def State.stepLate (s : State) (w : Well) : Bool := decide (w.stepAt + s.limitOf w < s.clock.edge)

/-- The step after one: a joining well takes no random words of its own (R371). -/
def State.stepAfter (s : State) (step : Nat) : Nat := if s.startup.ready && decide (step = 3) then 5 else step + 1

/-! ### The sweep of a warm start-up (R167, R391, R397) -/

/-- A well's sweep reads pages: it is powered and not held. -/
def Well.sweeps (w : Well) : Bool := w.power && !w.held

/-- The pages of the route or rights store whose EPOCH copies disagree with the journal word (R165, R167). Where the pages
that read EPOCH 1 are those of the rows under key slot 1, and as many as these rows have, there are none. -/
def State.epochsBad (s : State) (store : Nat) : List Nat :=
  let h := if store = 0 then s.routes.rt else s.routes.rg
  let ones := (keys s.routes.epochs).filter fun k => decide (k / 65536 = store) && s.epoch store (k % 65536)
  let rows := (List.range 1024).filter h.slotFor
  if ones.all (fun k => h.slotFor (k % 65536 / 16)) && decide (ones.length = 16 * rows.length) then []
  else (List.range 16384).filter (s.epochBad store)

/-- One page as both wells' sweeps find it: errors counted as a scrub's, and poison in the well that finds it uncorrectable.
Where the other well corrects it, the well that does not fails the handshake, and what is counted is the other's view. A page
that a well already holds poisoned is not read again there (R390). -/
def State.sweptPage (s : State) (store page : Nat) (r : PageRead) : State :=
  let t := s.strengthAt store page
  let warn := atLeast1 (bits (s.reg fIntegrity 0x20) 23 20)
  let bad := s.epochBad store page
  let known (b : Bool) : Bool := look false (s.well b).poison (pageKey store page)
  let verdict (b : Bool) (v : Verdict) : Verdict :=
    if !(s.well b).sweeps || known b then .clean else if bad then .uncorr else asRead (withStored v (s.storedErrs b store page)) t
  let va := verdict false r.a
  let vb := verdict true r.b
  let heavy := isHeavy va warn || isHeavy vb warn
  let un := isUncorr va || isUncorr vb
  let all := (isUncorr va || !(s.well false).sweeps) && (isUncorr vb || !(s.well true).sweeps)
  let s := if isErr va || isErr vb then s.countErr store page true heavy un else s
  let s := if isUncorr va then s.poisonIn false store page 7 else s
  let s := if isUncorr vb then s.poisonIn true store page 7 else s
  if un && all then s.countPoison true else s

/-- A page of the reservoir poisoned in both wells is written all Inactive by the sweep, which counts in REBUILDS (R391). -/
def State.sweepInactive (s : State) (page : Nat) : State :=
  let ints := s.ints.filter fun e => decide (131072 ≤ e.1) || decide (reservoirPage e.1 ≠ page)
  (State.unpoison { s with ints := ints } 2 page).count fIntegrity 9

/-- A poisoned page after both sweeps: written Inactive, rebuilt, or left poisoned (R391). -/
def State.sweptPoison (s : State) (key : Nat) : State :=
  let store := key / 65536
  let page := key % 65536
  let everywhere := [false, true].all fun b => !(s.well b).sweeps || look false (s.well b).poison key
  if !everywhere then s
  else if store = 2 ∧ 16 ≤ page ∧ page < 512 then s.sweepInactive page
  else if store = 4 then s.breakPage page
  else if rebuildable store page then
    let l := s.integrity.rebuilds ++ [(store, page)]
    { s with integrity.rebuilds := l }
  else s

/-- Every page that the sweep writes back whole has clean check bits, and EPOCH copies as their majority (R153, R393, R397). -/
def State.sweptWhole (s : State) : State :=
  let voted (e : Nat × BitVec 3) : Option (Nat × BitVec 3) :=
    let v := if s.poisoned (e.1 / 65536) (e.1 % 65536) then e.2 else if s.epoch (e.1 / 65536) (e.1 % 65536) then 7#3 else 0#3
    if v = 0#3 then none else some (e.1, v)
  let s := { s with routes.epochs := s.routes.epochs.filterMap voted }
  (s.modWell false fun w => { w with errs := [] }).modWell true fun w => { w with errs := [] }

/-- The pages that the sweep does not find clean: those that the row names, those whose stored copies have errors, and those
whose EPOCH disagrees. -/
def State.warmReads (s : State) (found : List SweptPage) : State :=
  let named := found.map fun p => pageKey p.store.toNat p.index.toNat
  let stored := (sorted (keys s.twin.wellA.errs ++ keys s.twin.wellB.errs)).filter fun k => !named.contains k
  let s := found.foldl (fun (s : State) p => s.sweptPage p.store.toNat p.index.toNat p.page) s
  let s := stored.foldl (fun (s : State) k => s.sweptPage (k / 65536) (k % 65536) cleanRead) s
  [0, 1].foldl (fun (s : State) m => (s.epochsBad m).foldl (fun (s : State) p => s.sweptPage m p cleanRead) s) s

/-- The sweep of a warm start-up, as it stands when the first well ends it: an access to each page that is poisoned, the other
pages read and written back, and what R391 makes of the poisoned ones. -/
def State.warmSweep (s : State) (found : List SweptPage) : State :=
  let s := ((s.countBy fIntegrity 8 (keys s.lead.poison).length).warmReads found).sweptWhole
  (sorted (keys s.twin.wellA.poison ++ keys s.twin.wellB.poison)).foldl State.sweptPoison s

/-- The other well is still before the end of its sweep, or does not run one. -/
def State.firstSwept (s : State) (b : Bool) : Bool :=
  let o := s.well (!b)
  !o.sweeps || decide (o.step ≤ 3)

/-- At the handshake a well fails that has a page uncorrectable which the other well's sweep corrected (R397). -/
def State.sweepDiffers (s : State) (b : Bool) : Bool :=
  let o := s.well (!b)
  decide (s.startup.kind = .warm) && !s.startup.ready && o.sweeps && decide (o.failed = 0) && decide (4 ≤ o.step) &&
    (keys (s.well b).poison).any fun k => look false (s.well b).poison k && !look false o.poison k

/-- STARTUP_STEP_DONE: a well's step ends, passed or failed. `found` are the pages that the sweep of a warm start-up did not
find clean in both wells. -/
def State.stepDone (s : State) (b ok : Bool) (found : List SweptPage) : State :=
  let step := (s.well b).step
  if !s.startsUp b || (ok && !s.stepLate (s.well b) && !s.stepMayEnd (s.well b)) then s
  else if !ok || s.stepLate (s.well b) || (decide (step = 9) && !s.startup.ready && !s.katOk) || (decide (step = 10) && s.sweepDiffers b) then s.failStep b
  else
    let s := if step = 1 ∧ !s.startup.ready then s.senseFuses else s
    let s := if step = 3 ∧ !s.startup.ready ∧ s.startup.kind = .warm ∧ s.firstSwept b then s.warmSweep found else s
    let next := s.stepAfter step
    let s := s.modWell b fun w => { w with step := next, stepAt := if 6 ≤ step ∧ step < 9 then w.stepAt else s.clock.edge }
    if next = 9 then s.beginKat else s

/-- STARTUP_STEP_TIMEOUT: a step not ended by its limit fails the well. -/
def State.stepTimeout (s : State) (b : Bool) : State :=
  let w := s.well b
  if s.startsUp b && decide (w.stepAt + s.limitOf w ≤ s.clock.edge) then s.failStep b else s

/-! ### Resets (R403 to R405, R413) -/

/-- The wires' pin levels as last captured, with no filter history; a line's polarity is at its reset value. -/
def State.freshWires (s : State) : Tbl Wire :=
  s.levels.wires.filterMap fun e =>
    let up := lineNewest e.2.syn
    let v := if e.1 < 56 ∧ s.lineLow e.1 then !up else up
    if v then some (e.1, { Wire.reset with syn := [(0, true)] }) else none

/-- POWER_ON_RESET: everything but the STBY islands, the fuse array and the inputs is as reset leaves it. What is per part reads
as the array gives it before the sense too, and the test access port is closed until then (DESIGN CHOICE, log entry 104). -/
def State.powerOn (s : State) : State :=
  let s := if s.startup.inReset then s else s.mirrorHealth
  let r := State.reset
  let l := { r.levels with wires := s.freshWires, islandA := s.levels.islandA, islandB := s.levels.islandB,
                           wakeCause := s.levels.wakeCause, presence := s.levels.presence }
  { r with levels := l, fuses.array := s.fuses.array, fuses.shadow := s.fuses.array, twin.leadB := s.twin.leadB, tap := s.tap, pending := s.pending }

/-- PWR_GOOD_FALL. With both wells' supplies off the clocks stop, and what the block held but for the STBY islands is lost: the next
release of power-on reset starts it (R403, R433). -/
def State.powerFall (s : State) (b : Bool) : State :=
  if s.startup.inReset then s
  else if (s.well (!b)).power then s.powerGone b else (s.powerGone b).powerOn

/-- PORST_RELEASE: released with a well powered and clocked; edge 0 is here (R21). -/
def State.release0 (s : State) (goodA goodB : Bool) : State :=
  if !s.startup.inReset || !(goodA || goodB) then s
  else
    let up (good : Bool) (w : Well) : Well := { w with power := good, held := !good, step := if good then 1 else 0, stepAt := 0 }
    let s := (s.modWell false (up goodA)).modWell true (up goodB)
    let s := { s with clock := Clock.reset }
    { s with startup.inReset := false, startup.kind := if s.wakePend then .wakeUp else .powerOn }

/-- A register that a warm reset keeps (R405); group registers and RULESET_SEL stand in their own state. -/
def keptRegister (key : Nat) : Bool :=
  let f := key / 4096
  let o := key % 4096
  decide (f = fPump) || decide (f = fOut) || (decide (f = fKeeper) && (decide (o = 0x28) || decide (0x40 ≤ o))) ||
    (decide (f = fFuse) && (decide (o = 0x24) || decide (o = 0x28)))

/-- The records of cistern `c`, or of the spillway, in line writes that were granted and whose address had not been taken: they
were never written, but for those that a rewrite after a failover carries again. -/
def Pump.untaken (p : Pump) (c : Option Nat) : Nat :=
  let open_ (b : Buffered) : Bool := match c.bind fun k => look none p.cache k with
    | some x => x.unacked.contains (b.index, b.appended)
    | none => false
  (p.issued.map fun (a : OutAccess) =>
    match a.takenAt, a.req.kind with
    | none, .line k items => if c = some k then (items.filter open_).length else 0
    | none, .spill items => if c = none then items.length else 0
    | _, _ => 0).sum

/-- A descriptor-cache entry after a warm reset, its TOTAL wound back to the first unwritten append (R257); one under fetch is
dropped. -/
def Cached.afterWarm (x : Cached) (untaken : Nat) : Option Cached :=
  let y := { x with total := x.total - BitVec.ofNat 32 (x.buffer.length + untaken), buffer := [], offered := false, unacked := [],
                    due := [], coal := 0, coalAt := none, headOut := false, wanted := false, asked := false, fresh := none, held := none,
                    closing := false, syncing := false }
  match x.st with
  | .level1 => none
  | .descriptor => none
  | .control => none
  | _ => some y

/-- The pump after a warm reset; accesses issued before it keep their tags and answer to nothing. WALK_LAST is a record, which
R404 has reset, and a register of the pump page, which R257 and R405 have kept: the model keeps it (DESIGN CHOICE, log entry
99). -/
def Pump.afterWarm (p : Pump) : Pump :=
  let cache := p.cache.filterMap fun e => (e.2.bind fun x => x.afterWarm (p.untaken (some e.1))).map fun x => (e.1, some x)
  let sp := p.spill
  let spill := { Spill.reset with total := sp.total - BitVec.ofNat 32 (sp.buffer.length + p.untaken none), dead := sp.dead }
  let issued := (p.issued.filter fun (a : OutAccess) => a.takenAt.isSome).map fun (a : OutAccess) => { a with timedOut := true }
  { Pump.reset with cache := cache, clock := p.clock, bootId := p.bootId, spill := spill, issued := issued, walkLast := p.walkLast }

/-- A store's keys and journal word after a warm reset (R167, R404). -/
def Hash.afterWarm (h : Hash) : Hash :=
  { Hash.reset with key0 := h.key0, key1 := h.key1, sel := h.sel, gen := h.gen, migActive := h.migActive, migRow := h.migRow }

/-- A well after a warm reset: a well that runs starts at step 0x2. -/
def Well.afterWarm (w : Well) : Well :=
  { Well.reset with power := w.power, held := w.held, poison := w.poison, errs := w.errs, step := if w.held || !w.power then 0 else 2 }

/-- Groups keep their configuration and no live state (R206). -/
def groupsAfterWarm (t : Tbl Group) : Tbl Group :=
  t.filterMap fun e =>
    let g : Group := { Group.reset with weight := e.2.weight, owner := e.2.owner, interval := e.2.interval }
    if g = Group.reset then none else some (e.1, g)

/-- An origin whose edge lies before the release of a reset: the latency is counted from edge 0, the release (DESIGN CHOICE,
log entry 86). -/
def Origin.rebased : Origin → Origin
  | .doorbell _ => .doorbell 0
  | .level _ => .level 0
  | .software _ => .software 0

/-- INTIDs keep their pending bits (R107). -/
def intsAfterWarm (t : Tbl IntState) : Tbl IntState :=
  t.filterMap fun e =>
    if e.2.pending then some (e.1, { IntState.reset with pending := true, origin := e.2.origin.map Origin.rebased }) else none

/-- The twin link after a warm reset: roles and a pairing lost stay as they were (R406, R413). -/
def Twin.afterWarm (t : Twin) : Twin :=
  { Twin.reset with
    leadB := t.leadB
    pair := if t.repair.isSome then .divergent else t.pair
    wellA := t.wellA.afterWarm
    wellB := t.wellB.afterWarm }

/-- Everything as a warm reset leaves it at its release, which is edge 0. Accesses that the port has accepted and not answered are
discarded with the rest (R404) and get no response after it (DEDUCED, log entry 110). -/
def State.warmed (s : State) : State :=
  let r := State.reset
  let s := if s.twin.repair.isSome then s.modWell (!s.twin.leadB) fun w => { w with held := true } else s
  let routes := { s.routes with rt := s.routes.rt.afterWarm, rg := s.routes.rg.afterWarm, sweepAt := 64, ftBack := [], ftVoteLast := 0#32,
                                latLast := 0#32 }
  let pairs := s.levels.pairs.filterMap fun e => if e.2.seen && e.2.zAt.isNone then some (e.1, { Pair.reset with seen := true }) else none
  let levels := { r.levels with wires := s.freshWires, pairs := pairs, islandA := s.levels.islandA, islandB := s.levels.islandB,
                                wakeCause := s.levels.wakeCause, presence := s.levels.presence }
  let startup :=
    { r.startup with inReset := false, kind := .warm, restoreJournal := s.startup.restoreJournal,
                     factoryStep := s.startup.factoryStep, tapInForce := s.startup.tapInForce,
                     image := s.startup.image.filter (fun (i : Image) => decide (i.step = ImageStep.apply)),
                     refilled := s.startup.restoreJournal, factoryDone := decide (s.startup.factoryStep ≠ 0) }
  let keeper := { r.keeper with officers := s.keeper.officers, heldByRam := s.keeper.heldByRam }
  { r with
    clock := { Clock.reset with dcStaged := s.clock.dcStaged, dcWindow := s.clock.dcStaged }
    front := { r.front with regs := s.front.regs.filter fun e => keptRegister e.1 }
    ints := intsAfterWarm s.ints
    gate := { r.gate with rights := s.gate.rights, setB := s.gate.setB }
    routes := routes
    sluice := { r.sluice with groups := groupsAfterWarm s.sluice.groups }
    pump := s.pump.afterWarm
    levels := levels
    keeper := keeper
    twin := s.twin.afterWarm
    integrity := { r.integrity with strength := s.integrity.strength, journal := s.integrity.journal }
    fuses := { s.fuses with programmedAt := 0, resenseTick := 0, resensing := false, sensedAt := 0 }
    startup := startup
    tap := s.tap
    pending := s.pending }

/-- WARM_RESET: FABRST_N held low for `lowFor` FCLK; a pulse of fewer than 8 is ignored. The failure of both wells and
standby end at power-on reset only (R276, R408). -/
def State.warmReset (s : State) (lowFor : Nat) : State :=
  if decide (lowFor < 8) || s.startup.inReset || s.levels.stbyOk || (s.twin.fabricFault && !s.startup.ready) then s
  else s.warmed

/-- AON_SUPPLY_LOSS: the STBY islands are reset, and with them WAKE_CAUSE (R272, R286). -/
def State.aonLoss (s : State) : State :=
  { s with levels.islandA := Island.reset, levels.islandB := Island.reset, levels.wakeCause := 0#32 }

/-! ### READY (R19, R379, R406, R409) -/

/-- Every well that can still pass has passed, every journal is completed, and one well has passed. -/
def State.readyDue (s : State) : Bool :=
  let ended (w : Well) : Bool := w.passed || !w.power || w.held || decide (w.failed ≠ 0)
  !s.startup.inReset && !s.startup.ready && !s.twin.fabricFault && ended s.twin.wellA && ended s.twin.wellB &&
    (s.twin.wellA.passed || s.twin.wellB.passed) && s.fuses.programming.isEmpty && decide (s.startup.factoryStep = 0)

/-- The well that leads from READY. -/
def State.leadAtReady (s : State) : Bool :=
  if s.startup.kind = .warm then if s.lead.passed then s.twin.leadB else !s.twin.leadB else !s.twin.wellA.passed

/-- The wells' roles at the handshake: a well that has not passed is held, absent unless it was already unpaired; where the
fuse-shadow digests differ the well that does not lead is held (R379). -/
def State.pairUp (s : State) (agree : Bool) : State :=
  let l := s.leadAtReady
  let promoted := decide (s.startup.kind = .warm) && decide (l ≠ s.twin.leadB)
  let both := s.twin.wellA.passed && s.twin.wellB.passed
  let kept := decide (s.startup.kind = .warm) && (s.well (!l)).held && !s.paired
  let s := { s with twin.leadB := l }
  let s := if both then { s with twin.pair := if agree then .paired else .divergent } else if kept then s
    else { s with twin.pair := .absent }
  let s := if both && !agree then s.modWell (!l) fun w => { w with held := true } else s
  let fresh (w : Well) : Well :=
    { w with held := w.held || !w.passed, sig := 0xFFFFFFFFFFFFFFFF#64, sigK := s.clock.edge / 256, frameAt := s.clock.edge,
             hbLost := false, frameIn := true }
  let s := (s.modWell false fresh).modWell true fresh
  let s := { s with twin.comparedK := s.clock.edge / 256 }
  if promoted then (s.count fTwin 3).count fTwin 4 else s

/-- The windows, monitors, schedules and counts that start at READY. READY is the first boundary of the target, outbound and
mailbox windows (R179); the bank window's first is half a window later (R207). After a warm reset the resumed row's tick is at
READY + 1, and the rows after it count their pace from there (R167 states the first tick alone: DESIGN CHOICE, log entry 80). -/
def State.startTimers (s : State) : State :=
  let e := s.clock.dp
  let go (h : Hash) : Hash :=
    { h with windowAt := e, spacedAt := s.slowMark, since := s.slowMark, tickAt := e + 1, baseTick := e + 1, baseRow := h.migRow }
  let rt := go s.routes.rt
  let rg := go s.routes.rg
  let walkers : Tbl Walker := if e = 0 then [] else (List.range 7).map fun i => (i, { Walker.reset with tickedAt := e })
  let s := { s with routes.rt := rt, routes.rg := rg, integrity.walkers := walkers }
  let s := s.setWindow .bank (e + ctrlWindow (s.windowCtrl .bank) / 2)
  let s := [WindowKind.target, .outbound, .mailbox].foldl (fun (s : State) k => s.boundary k s.waitsAt) s
  { s with clock.readyEdge := s.clock.edge, fuses.resenseTick := s.slowMark, fuses.sensedAt := s.slowMark,
           keeper.serviceAt := e }

/-- Level sampling begins: every wire's level as captured so far shows after the synchroniser. -/
def State.startSampling (s : State) : State :=
  (keys s.levels.wires).foldl
    (fun (s : State) i =>
      s.setWire i { syn := if lineNewest (s.wire i).syn then [(s.clock.edge + s.depth - 1, true)] else [], fil := [] }) s

/-- WAKE_CAUSE. -/
def wakeWord (i : Island) : Word :=
  let set := (List.range 56).filter fun k => bit i.levels k
  0x80000000#32 ||| flag32 30 i.wake ||| at32 16 (i.z ||| i.q).toNat ||| at32 8 set.length ||| at32 0 (set.headD 0)

/-- The wake actions of R279 where a wake is latched, and the end of the standby state: a source that arrived after the power
did is taken with the others (R278, R409). A count started from Q_n takes the wire that is asserted alone as the first. -/
def State.wakeActions (s : State) : State :=
  let i := s.levels.islandA
  let woken := s.wakePend
  let s := if woken then { s with levels.wakeCause := wakeWord i }.count fStandby 4 else s
  let s := if !woken then s else
    (List.range 56).foldl
      (fun (s : State) k =>
        if !bit i.levels k then s
        else match s.mirrorCistern (72 + k) with
          | some c => s.localOrDrop c (madeRec (72 + k) 0x0D 0)
          | none => s.pend (72 + k) (.level s.clock.edge)) s
  let s := if !woken then s else
    (List.range 8).foldl
      (fun (s : State) n => if bit i.q n && s.inService n then
          s.setPair n { s.pair n with since := some s.clock.edge,
                                      firstB := lineNewest (s.wire (wireB n)).syn && !lineNewest (s.wire (wireA n)).syn }
        else s) s
  s.modIslands fun i => { i with levels := 0#56, wake := false, q := 0#8, standby := false }

/-- START_STAT (R428). -/
def State.startWord (s : State) (mig : Bool) : Word :=
  let kind := match s.startup.kind with
    | .warm => 2
    | _ => if s.wakePend then 3 else 1
  let reenc := decide (s.startup.kind = .warm) && (match s.integrity.journal with
    | some j => j.running
    | none => false)
  flag32 31 s.twin.wellA.passed ||| flag32 30 s.twin.wellB.passed ||| at32 28 kind ||| at32 24 s.twin.wellA.failed |||
    at32 20 s.twin.wellB.failed ||| flag32 19 s.startup.factoryDone ||| flag32 18 s.startup.refilled ||| flag32 17 reenc |||
    flag32 16 mig ||| at32 0 (min ((s.clock.edge - s.startup.releasedAt) / 1024) 0xFFFF)

/-- READY. `agree` says that the wells' fuse-shadow digests agree. -/
def State.becomeReady (s : State) (agree : Bool) : State :=
  if !s.readyDue then s
  else
    let warm := decide (s.startup.kind = .warm)
    let word := s.startWord (warm && (s.routes.rt.migActive || s.routes.rg.migActive))
    let s := s.pairUp agree
    let s := match s.startup.image with
      | some i => s.undoApply i
      | none => { s with startup.restoreJournal := false }
    let s := if warm then { s with startup.tapInForce := s.tapTaken } else s.loadVaults
    let s := s.startTimers.startSampling
    let s := { s with startup.startStat := word, startup.ready := true, startup.drawn := [] }
    let s := if s.keeper.heldByRam && s.ramPoisoned then { s with keeper.held := true }
      else { s with keeper.heldByRam := false }
    s.wakeActions

/-! ### The random wire (R306, R443, R444) -/

/-- RND_TEST falls: no word is taken for 16 FCLK after it. -/
def State.endKat (s : State) (fall : Nat) : State := { s with startup.rndTest := none, startup.rndQuiet := fall + 16 }

/-- A word of the known-answer exchange. -/
def State.katWord (s : State) (w : DWord) : State :=
  if s.startup.katWords.length = 4 then s else { s with startup.katWords := s.startup.katWords ++ [w] }

/-- At the edge after the fourth word RND_TEST falls (R444). -/
def State.katFalls (s : State) : State :=
  if s.startup.rndTest.isSome && decide (s.startup.katWords.length = 4) then s.endKat (s.clock.edge + 1) else s

/-- Start-up step 0x4 waits for words. -/
def State.drawWants (s : State) : Bool :=
  !s.startup.ready && decide (s.startup.drawn.length < s.wordsNeeded) &&
    [false, true].any fun b => (s.well b).starting && decide ((s.well b).step = 4)

/-- A word of step 0x4 goes to its user at once: after power-on KEY0 of the route store, KEY0 of the rights store, the pointer
seed and BOOT_ID, after a warm reset the seed alone (R152, R184, R237, R407, R411). -/
def State.drawWord (s : State) (w : DWord) : State :=
  let k := s.startup.drawn.length
  let s := { s with startup.drawn := s.startup.drawn ++ [w] }
  if s.startup.kind = .warm ∨ k = 2 then { s with sluice.seed := w }
  else if k = 0 then { s with routes.rt.key0 := w }
  else if k = 1 then { s with routes.rg.key0 := w }
  else { s with pump.bootId := bootOf w }

/-- The head of the engine queue waits for a fresh nonce. -/
def State.retryWants (s : State) : Option EngineEntry :=
  match s.keeper.engine with
  | e :: _ => if e.ended && decide (e.run.cmd.opcode = 0x80#8) then some e else none
  | [] => none

/-- A word taken by the first of its users, or discarded. The manual gives the users of a word no order: the start-up comes
first, and where both stores wait for a key the route store has it (DESIGN CHOICE, log entry 103). -/
def State.giveWord (s : State) (w : DWord) : State :=
  if s.drawWants then s.drawWord w
  else if s.startup.factoryStep = 3 then (s.factoryReset w).factoryReturn
  else if !s.running then s
  else if s.keeperAlive && s.routes.rt.wantsKey then { s with routes.rt := s.routes.rt.loadKey w }
  else if s.keeperAlive && s.routes.rg.wantsKey then { s with routes.rg := s.routes.rg.loadKey w }
  else match s.repairWants with
    | some r => s.repairWord r w
    | none =>
      if !s.keeperGoes then s
      else match s.retryWants with
        | some e => s.attestWord e w
        | none =>
          match s.keeper.run with
          | some r => if r.phase = .random then { s with keeper.words := s.keeper.words ++ [w] } else s
          | none => s

/-- RND_WORD: a word offered with RND_HEALTH high is taken; one with it low never is. -/
def State.rndWord (s : State) (w : DWord) (health : Bool) : State :=
  let s := { s with levels.rndHealth := health }
  if !health || s.startup.inReset then s
  else if s.startup.rndTest.isSome then s.katWord w
  else if s.clock.edge < s.startup.rndQuiet then s
  else s.giveWord w

/-- RND_KAT_TIMEOUT: the exchange ends without its four words, which fails step 0x9. -/
def State.katTimeout (s : State) : State :=
  match s.startup.rndTest with
  | none => s
  | some e =>
    if s.clock.edge < e + 1250000 ∨ s.startup.katWords.length = 4 then s
    else
      let s := s.endKat s.clock.edge
      if s.startup.ready then s
      else [false, true].foldl
        (fun (s : State) b => if (s.well b).starting && decide ((s.well b).step = 9) then s.failStep b else s) s

/-! ### The slow plane (R47 to R49) -/

/-- The SCLK edges from the next to come up to edge `last`, an SCLK edge: SCLK_COUNT counts them, the slow-domain copies are
refreshed and the staged value comes into force. At the present edge they sample the state from before it (R22). -/
def State.sclkTo (s : State) (last : Nat) : State :=
  let n := (last - s.clock.nextSclk) / Config.sclk + 1
  let b := if last = s.clock.edge then s.sampled else s
  let late := s.clock.slowPend && decide (s.clock.dcAt = some last)
  let c := { s.clock with ticks := s.clock.ticks + n, sclkCount := s.clock.sclkCount + BitVec.ofNat 32 n,
                          nextSclk := last + Config.sclk, refreshedAt := last, dcWindow := b.clock.dcStaged, slowPend := late }
  let s := { s with clock := c }
  let age (mark : Nat) : Word := s.slowCopy (if s.startup.ready then last / Config.sclk + 1 - mark else 0)
  { s with clock.rekeyAgeRt := age b.routes.rt.since, clock.rekeyAgeRg := age b.routes.rg.since,
           clock.resenseAge := age b.fuses.sensedAt }

/-- SCLK_EDGE: an FCLK edge whose index is a multiple of 1,000,000, once (R21). -/
def State.sclkEdge (s : State) : State :=
  if s.clock.edge % Config.sclk = 0 ∧ s.clock.nextSclk ≤ s.clock.edge then s.sclkTo s.clock.edge else s

/-- The SCLK edges before an edge that no command has made come of themselves: SCLK rises at every multiple of 1,000,000
(R21). -/
def State.sclkPast (s : State) (e : Nat) : State :=
  if s.clock.nextSclk < e then s.sclkTo (s.clock.nextSclk + (e - 1 - s.clock.nextSclk) / Config.sclk * Config.sclk) else s

/-! ### The fast-table sweep (R216) -/

/-- What the upsets of an edge flip in one copy of a cell. -/
def struck (us : List Upset) (cell : UpsetCell) (copy : Nat) : Word :=
  (us.filter fun u => decide (u.cell = cell) && decide (min u.copy.toNat 2 = copy)).foldl (fun m u => m ^^^ u.mask) 0#32

/-- Bits flipped in an INTID's state in the state bank: bit 0 pending, bit 1 active. -/
def State.flipInt (s : State) (key : Nat) (m : Word) : State :=
  if m &&& 3#32 = 0#32 then s
  else s.modInt key fun x =>
    { x with pending := x.pending != bit m 0, active := x.active != bit m 1, candFrom := s.clock.dp + 1 }

/-- Bits flipped in a core's fast register bank: [11:0] FPTR, [12] the fast presentation slot's valid bit, [13] the fast active
slot's; a slot that comes up valid holds what its flops held. The manual numbers no bits of these flops: the numbers are the
model's, and the rest of the mask strikes flops that the model does not hold (DESIGN CHOICE, log entry 108). -/
def State.flipFast (s : State) (n : Nat) (m : Word) : State :=
  s.modCore n fun c =>
    { c with fptr := c.fptr ^^^ bits m 11 0,
             presF := if !bit m 12 then c.presF else match c.presF with
               | some _ => none
               | none => some { intid := (Config.staleSlot n).toNat, dup := false, loadAt := s.clock.dp, group := 0 },
             actF := if !bit m 13 then c.actF else match c.actF with
               | some _ => none
               | none => some { intid := (Config.staleSlot n).toNat, dup := false } }

/-- The vote of a cell of the state bank or of a fast register bank after the upsets of an edge: it takes the bits that two
copies have, and the lowest copy that disagrees is counted and recorded (R216, R217). -/
def State.voteFlops (s : State) (us : List Upset) (cell : UpsetCell) : State :=
  let a := struck us cell 0
  let b := struck us cell 1
  let c := struck us cell 2
  let m := (a &&& b) ||| (a &&& c) ||| (b &&& c)
  let fix (store core intid : Nat) (s : State) : State :=
    if a ≠ m then s.voteFixed false 0 store core intid else if b ≠ m then s.voteFixed false 1 store core intid
    else if c ≠ m then s.voteFixed false 2 store core intid else s
  match cell with
  | .table _ => s
  | .shared x => fix 1 0 x.toNat (s.flipInt x.toNat m)
  | .priv n i => fix 1 n.toNat i.toNat (s.flipInt (privKey n.toNat i.toNat) m)
  | .registers n => fix 2 n.toNat 0 (if m = 0#32 then s else s.flipFast n.toNat m)

/-- An upset of one copy of a fast-table entry, which keeps it until a read votes on it (R216). -/
def State.upset (s : State) (u : Upset) : State :=
  match u.cell with
  | .table x =>
    let f := s.ft x.toNat
    s.setFt x.toNat (if u.copy = 0#2 then { f with c0 := f.c0 ^^^ u.mask } else if u.copy = 1#2 then { f with c1 := f.c1 ^^^ u.mask }
      else { f with c2 := f.c2 ^^^ u.mask })
  | _ => s

/-- The cells struck, each once. -/
def cellsOf (us : List Upset) : List UpsetCell :=
  us.foldl (fun l u => if l.contains u.cell then l else l ++ [u.cell]) []

/-- FAST_TABLE_SWEEP: the upsets that have struck since, and one entry of 64 to 4,095 read by the sweep. The flops of the state
bank and of the fast register banks are voted at every edge. -/
def State.fastSweep (s : State) (upsets : List Upset) : State :=
  let s := upsets.foldl State.upset s
  let s := (cellsOf upsets).foldl (fun (s : State) c => s.voteFlops upsets c) s
  if !bit (s.reg fFast 0x20) 0 then s
  else
    let i := s.routes.sweepAt
    let s := s.ftFix true i
    { s with routes.sweepAt := if 4095 ≤ i then 64 else i + 1 }

/-! ### The test access port (R426, IEEE 1149.1) -/

/-- The controller's next state: 0 Test-Logic-Reset, 1 Run-Test/Idle, 2 to 8 the data column from Select-DR-Scan to
Update-DR, 9 to 15 the instruction column. -/
def tapNext (st : Nat) (tms : Bool) : Nat :=
  match st with
  | 0 => if tms then 0 else 1
  | 1 => if tms then 2 else 1
  | 2 => if tms then 9 else 3
  | 3 => if tms then 5 else 4
  | 4 => if tms then 5 else 4
  | 5 => if tms then 8 else 6
  | 6 => if tms then 7 else 6
  | 7 => if tms then 8 else 4
  | 8 => if tms then 2 else 1
  | 9 => if tms then 0 else 10
  | 10 => if tms then 12 else 11
  | 11 => if tms then 12 else 11
  | 12 => if tms then 15 else 13
  | 13 => if tms then 14 else 13
  | 14 => if tms then 15 else 11
  | _ => if tms then 2 else 1

/-- What the instruction in force does: a private one outside MANUFACTURE acts as BYPASS. -/
def State.tapActs (s : State) : TapCode :=
  match s.tap.inForce with
  | .privateTest n => if s.tapOpen then .privateTest n else .bypass
  | c => c

/-- One TCK edge in the state the controller stands in. In Shift-IR the first two bits out are 1 and 0, as IEEE 1149.1 has
Capture-IR load them (PRESUMED, log entry 107). -/
def State.tapShift (s : State) (tdi : Bool) : Tap :=
  let t := s.tap
  let top (n : Nat) : Word := (t.shift >>> 1) ||| flag32 n tdi
  if t.state = 3 then
    match s.tapActs with
    | .idcode => { t with shift := BitVec.ofNat 32 ((s.fuse fwIdcode).getD 0), tdo := none }
    | _ => { t with shift := 0#32, tdo := none }
  else if t.state = 4 then
    match s.tapActs with
    | .idcode => { t with tdo := some (bit t.shift 0), shift := top 31, shifts := t.shifts + 1 }
    | .privateTest _ => { t with tdo := some (Config.privateTdo t.shifts), shifts := t.shifts + 1 }
    | .bypass => { t with tdo := some (bit t.shift 0), shift := flag32 0 tdi, shifts := t.shifts + 1 }
  else if t.state = 10 then { t with irShift := 0, tdo := none }
  else if t.state = 11 then
    let out := if t.irShift = 0 then true else if t.irShift = 1 then false else Config.irTdo t.shifts
    { t with tdo := some out, irShift := t.irShift + 1, shifts := t.shifts + 1 }
  else { t with tdo := none }

/-- TAP_TCK_EDGE. `code` is the instruction that the value in the instruction register decodes to. -/
def State.tapEdge (s : State) (tms tdi trstN : Bool) (code : TapCode) : State :=
  if !trstN then s.tapReset
  else
    let t := s.tapShift tdi
    let n := tapNext s.tap.state tms
    let force := if n = 0 then TapCode.idcode else if n = 15 then code else t.inForce
    { s with tap := { t with state := n, inForce := force } }

end Sys2Proof.Machine
end

