-- ==== Sys2Proof/Machine/Time.lean ====
section
/-! DEFINITION. Time between commands, the register port's ordering point over time, and the forms in which a command's effect follows the edges before it (R21, R66, R67, R360, R435). -/

namespace Sys2Proof.Machine

/-! ### What passes of itself between two commands -/

/-- The edges of a span at which a bank may become free for the keeper: its first, its last, and those after a
locked sequence. -/
def State.grantEdges (s : State) (d : Nat) : List Nat :=
  let e := s.clock.dp
  let ends := s.sluice.locks.map fun (l : Lock) => l.lasts + 1
  sorted (((e + 1) :: (e + d) :: ends).filter fun x => decide (e < x) && decide (x ≤ e + d))

/-- A store digest reads on, a page at each edge up to `last` that grants it one (R154, R315). -/
def State.digestIdle : Nat → Nat → State → State
  | 0, _, s => s
  | n + 1, last, s =>
    if s.digestNext.isNone || decide (last ≤ s.clock.dp) then s
    else State.digestIdle n last (State.grantKeeper { s with clock.dp := s.clock.dp + 1 })

/-- The keeper's item and the page to re-encode are granted their banks at the first edge of the span that allows it; a digest
takes every edge it can. -/
def State.keeperIdle (s : State) (d : Nat) : State :=
  let edges := s.grantEdges d
  let s := State.digestIdle d (s.clock.dp + d) s
  (edges.filter fun e => decide (s.clock.dp < e)).foldl (fun (s : State) e => State.grantKeeper { s with clock.dp := e }) s

/-- What the last command left to do: the journals of abandoned commands are wound up (R304, R417, R419), and a
PEND_SET record that waits takes a place that has become free (R457). -/
def State.tidy (s : State) : State :=
  let s := s.tidyImage.noteChange.tidyRepair
  if s.running then (s.pendSetPlaced).settle settleFuel else s

/-- The data-plane units of a memory are granted its bank one after another, each at the first edge of the span at which it
is free (R194, R453). -/
def State.unitRounds : Nat → Nat → Nat → State → State
  | 0, _, _, s => s
  | n + 1, m, last, s =>
    let g := (s.sluice.locks.filter fun (l : Lock) => decide (l.memory = m)).foldl (fun g (l : Lock) => max g (l.lasts + 1))
      (s.clock.dp + 1)
    if last < g ∨ (s.unitsWaiting m).isEmpty then s
    else
      let dp := s.clock.dp
      let t := State.unitRound { s with clock.dp := g } m
      State.unitRounds n m last { t with clock.dp := dp }

/-- The rounds of the data-plane units of every memory in a span. -/
def State.unitsIdle (s : State) (d : Nat) : State :=
  if d = 0 ∨ s.sluice.units.isEmpty then s
  else [2, 3, 4, 5, 6].foldl (fun (s : State) m => State.unitRounds s.sluice.units.length m (s.clock.dp + d) s) s

/-- At the next edge every requester that does not wait loses its age and wait, and the input arbiter of a cistern for
which no record waits is dropped (R183, R184, R197). -/
def State.arbsIdle (s : State) : State :=
  let t := { s with clock.dp := s.clock.dp + 1 }
  (keys s.sluice.arbiters).foldl
    (fun (s : State) id =>
      let w := t.waitsAt id
      if 1000 ≤ id && w.isEmpty then s.dropArb id else s.restArb id w) s

/-- Locked sequences that hold nothing any more, and of which nothing is still to come, are forgotten; those of a store whose
migration row has its banks reserved mark the row's grant edge. -/
def State.locksIdle (s : State) : State :=
  let kept (l : Lock) : Bool :=
    l.holds s.clock.dp || !(l.ended || decide (l.owner = 3) || l.unit.isSome) ||
      (decide (l.memory = 0) && s.routes.rt.reserved) || (decide (l.memory = 1) && s.routes.rg.reserved)
  { s with sluice.locks := s.sluice.locks.filter kept }

/-- What the data plane does of itself in a span of `d` edges: withdrawn and loaded slots, decodes, arbiters and credits at
rest, the units' and the keeper's bank grants, WAKE_REQ. -/
def State.planeIdle (s : State) (d : Nat) : State :=
  if d = 0 then s else
  let dp := s.clock.dp
  let s := (s.ftWriteBack.loadSlots.decodeAll dp (dp + d)).arbsIdle
  (((s.sluiceIdle d).wakesIdle d).unitsIdle d).keeperIdle d

/-- A span of edges with no command: the slow plane's edges, the data plane, the sets of latches seen, then what comes of itself
at the last of them: the phases of a failover, a divergent well's hold, the registered trigger, the scrub accesses in progress
and the latencies. In a freeze the data plane's clock stands (R360). -/
def State.span (s : State) (dt : Nat) : State :=
  let d := if s.frozen then 0 else dt
  let dp := s.clock.dp
  let e := s.clock.edge + dt
  let s := ((s.sclkPast e).planeIdle d).zSets dt
  let s := { s with clock.edge := e, clock.dp := dp + d }
  let s := (s.failoverPhases.replayNow.holdsNow.triggersAct).scrubEdges
  (s.locksIdle.measureAll e).settle settleFuel

/-- The events of the counters that the present edge has wrapped (R53). -/
def State.wrapsOut (s : State) : State :=
  if s.ovfs = 0 then s else State.settle settleFuel { s with raised := List.replicate s.ovfs 131, ovfs := 0 }

/-- What is left of the present edge once no more commands fall at it: the events of wrapped counters, the end of a known-answer
exchange, the vault pairs whose wires have changed. -/
def State.edgeEnds (s : State) : State :=
  ({ s with before := none }.wrapsOut.wrapsOut.katFalls.pairsNow).settle settleFuel

/-- The edges at which something happens of itself that later edges see: a trigger acts, a failover is decided and switches, a
divergent well is held, a latch seen sets its INTID, a pair is computed anew, a scrub access takes its syndrome and writes its
page back. -/
def State.ownEdges (s : State) : List Nat :=
  let trig := match s.twin.trigger with
    | some t => [t.edge + 1]
    | none => []
  let over_ := match s.twin.failover.bind Failover.decided with
    | some t => [t, t + 1]
    | none => []
  let hold := match s.twin.holdDue with
    | some (_, e) => [e]
    | none => []
  let latches := (keys s.levels.pairs).filterMap fun n => (s.pair n).zAt.map fun z => z + 3
  let dirty := s.levels.dirty.map fun (d : Nat × Nat × Bool) => d.2.1
  let dp (g : Nat) : Nat := s.clock.edge + (g - s.clock.dp)
  let scrubs := if s.frozen then [] else s.sluice.locks.flatMap fun (l : Lock) =>
    if l.scrub.isSome && !l.ended then [dp (l.grant + 2), dp (l.grant + 8)] else []
  trig ++ over_ ++ hold ++ latches ++ dirty ++ scrubs

/-- The first of these edges after the present one, `last` at the latest. -/
def State.nextOwn (s : State) (last : Nat) : Nat :=
  s.ownEdges.foldl (fun m e => if s.clock.edge < e ∧ e < m then e else m) last

/-- The edges up to `last`, in spans that end where something happens of itself. -/
def State.spans : Nat → Nat → State → State
  | 0, last, s => s.span (last - s.clock.edge)
  | n + 1, last, s =>
    let e := s.nextOwn last
    if last ≤ e then s.span (last - s.clock.edge)
    else State.spans n last ((s.span (e - s.clock.edge)).pairsNow.settle settleFuel)

/-- The spans that an interval may fall into before the rest of it is taken as one. -/
abbrev spanFuel : Nat := 256

/-- `dt` FCLK edges pass with no command. The state from before the last of them is kept: it is what an action sampled at
that edge sees (R22). In reset no clocked state moves. -/
def State.advance (s : State) (dt : Nat) : State :=
  if s.startup.inReset then s
  else if dt = 0 then s.span 0
  else
    let last := s.clock.edge + dt
    let s := s.edgeEnds.sclkPast (s.clock.edge + 1)
    let s := if dt = 1 then s else ((State.spans spanFuel (last - 1) s).pairsNow).settle settleFuel
    s.mark.span 1

/-! ### The ordering point over time (R66, R67, R435) -/

/-- The ICLK edge at which the next access passes: at or after the present edge, and after the last one. -/
def State.nextPass (s : State) : Nat :=
  let p := (s.clock.edge + (Config.iclk - 1)) / Config.iclk * Config.iclk
  match s.front.lastPass with
  | some l => if p ≤ l then l + Config.iclk else p
  | none => p

/-- An access passes the ordering point at the present edge. -/
def State.pass (s : State) (a : Access) : State :=
  let front := { s.front with lastPass := some s.clock.edge }
  (State.perform { s with front := front } a).settle settleFuel

/-- The accesses that waited behind a hold pass in their order, one an ICLK edge, up to edge `last`. -/
def State.drain : Nat → Nat → State → State
  | 0, _, s => s
  | n + 1, last, s =>
    match s.front.waiting with
    | [] => s
    | a :: rest =>
      let p := s.nextPass
      if s.front.hold.isSome || s.frozen || s.startup.inReset || decide (last < p) then s
      else
        let t := s.advance (p - s.clock.edge)
        if t.frozen then t
        else
          let front := { t.front with waiting := rest }
          State.drain n last (State.pass { t with front := front } a)

/-- The edges before a command pass, and with them the accesses that still waited; every event raised on the way is
settled. -/
def State.elapse (s : State) (dt : Nat) : State :=
  let last := s.clock.edge + dt
  let s := s.tidy
  let s := s.drain (s.front.waiting.length + 1) last
  (s.advance (last - s.clock.edge)).settle settleFuel

/-- Neither well has passed start-up: the lead-select unit answers every access REFUSED (R408). -/
def State.dead (s : State) : Bool := s.twin.fabricFault && !s.startup.ready && !s.startup.inReset

/-- The accesses that have been accepted and await their responses: the one that holds the ordering point, and those behind it. -/
def State.awaited (s : State) : Nat :=
  (if s.front.hold.isSome then 1 else 0) + (s.front.waiting.filter fun (a : Access) => !a.keeper).length

/-- The port accepts an access: not in reset, not frozen, fewer than 32 accesses awaiting responses (R435). -/
def State.accepts (s : State) : Bool := !s.startup.inReset && !s.frozen && decide (s.awaited < 32)

/-- An access offered at the register port: it passes at the next ICLK edge, or waits behind a hold. -/
def State.offer (s : State) (a : Access) : State :=
  if s.dead then s.answer .refused 0#64
  else if !s.accepts then s
  else if s.front.hold.isSome || !s.front.waiting.isEmpty then
    let w := s.front.waiting ++ [a]
    { s with front.waiting := w }
  else
    let t := s.elapse (s.nextPass - s.clock.edge)
    if t.frozen then { t with front.waiting := [a] } else t.pass a

/-! ### The forms of a command -/

/-- What exec answers. -/
abbrev Result : Type := Host.Outcome State Fault Refusal

/-- A machine's answer: the state with every event of the edge settled, and the queue as it was given. -/
def State.answers (s t : State) : Result := .next { t.settle settleFuel with pending := s.pending }

/-- The block idles for `dt` edges. -/
def State.idle (s : State) (dt : Nat) : Result := s.answers (s.elapse dt)

/-- An effect that needs no clock of the block: resets, supplies, pins and latches. -/
def State.always (s : State) (dt : Nat) (f : State → State) : Result := s.answers (f (s.elapse dt))

/-- An effect of a clocked unit: none while reset is asserted. -/
def State.clockedBy (s : State) (dt : Nat) (f : State → State) : Result :=
  s.always dt fun s => if s.startup.inReset then s else f s

/-- An effect that needs the data plane's clock but not READY: reads are performed before READY (R410). -/
def State.serviceBy (s : State) (dt : Nat) (f : State → State) : Result :=
  s.always dt fun s => if s.startup.inReset || s.frozen then s else f s

/-- An effect that needs READY: level sampling and the keeper's timers, which a freeze does not stop (R360, R409). -/
def State.readyBy (s : State) (dt : Nat) (f : State → State) : Result :=
  s.always dt fun s => if s.startup.ready then f s else s

/-- An effect of the data plane: none before READY and none during a freeze (R360). -/
def State.plane (s : State) (dt : Nat) (f : State → State) : Result :=
  s.always dt fun s => if s.running then f s else s

/-- A step of the keeper. In a freeze it runs on to the end of the step that it is in, and stops there (R360). -/
def State.keeperBy (s : State) (dt : Nat) (f : State → State) : Result :=
  s.always dt fun s =>
    if s.running then f s
    else if s.startup.ready && s.keeperOn then
      let t := f s
      if t.midStep then t else { t with twin.failover := t.twin.failover.map fun (o : Failover) => { o with keeperOn := false } }
    else s

/-- An access at the register port. -/
def State.portAccess (s : State) (dt : Nat) (a : Access) : Result := s.always dt fun s => s.offer a

end Sys2Proof.Machine
end

