-- ==== Sys2Proof/Machine/ExecPort.lean ====
section
/-! DEFINITION. The register-port commands: one meaning for each row of the table, each an access at the place its row names. -/

namespace Sys2Proof.Machine

/-- The block offset of a register: frame, view and offset (R70, R73). -/
def byteAt (f view o : Nat) : Nat := f * 0x4000 + view * 0x1000 + o

/-- A write offered at the port. -/
def writeTo (host : HostId) (byte : Nat) (wide : Bool) (data : DWord) : Access :=
  { write := true, wide := wide, byte := byte, host := host, data := data, page := cleanRead, presence := false, presenceAt := 0,
    keeper := false }

/-- A read offered at the port. -/
def readFrom (host : HostId) (byte : Nat) (wide : Bool) : Access :=
  { write := false, wide := wide, byte := byte, host := host, data := 0#64, page := cleanRead, presence := false, presenceAt := 0,
    keeper := false }

/-- A 32-bit write's data. -/
def narrow (w : Word) : DWord := w.setWidth 64

/-- The frame and offset of an RWG register (R93, R143). -/
def guardPlace : GReg → Nat × Nat
  | .rulesetSel h => (fHost h.toNat, 0x20)
  | .coreMask n => (fCore n.toNat, 0x40)
  | .privClassLo n => (fCore n.toNat, 0x60)
  | .privClassHi n => (fCore n.toNat, 0x64)
  | .actDrop n => (fCore n.toNat, 0x70)

/-- The frame of a page that has an arm slot. -/
def guardFrame : GPage → Nat
  | .host n => fHost n.toNat
  | .core n => fCore n.toNat

/-- The block offset of a word of a read window (R70). -/
def windowByte (rights : Bool) (word : Nat) : Nat := (if rights then 0x900000 else 0x800000) + 4 * word

/-- The block offset of a word of a mailbox window (R70). -/
def boxByte (mb word : Nat) : Nat := 0x600000 + 0x4000 * mb + 4 * word

/-- REGISTER_WRITE (R34). -/
def execRegisterWrite (dt : Nat) (host : HostId) (addr : BitVec 22) (wide : Bool) (data : DWord) (s : State) : Result :=
  s.portAccess dt (writeTo host (4 * addr.toNat) wide data)

/-- PAGE_LOCK_WRITE (R63). -/
def execPageLockWrite (dt : Nat) (host : HostId) (frame : BitVec 6) (view : BitVec 2) (value : Word) (s : State) : Result :=
  s.portAccess dt (writeTo host (byteAt frame.toNat view.toNat 0x10) false (narrow value))

/-- GUARD_ARM (R57). -/
def execGuardArm (dt : Nat) (host : HostId) (reg : GReg) (value : Word) (s : State) : Result :=
  s.portAccess dt (writeTo host (byteAt (guardPlace reg).1 0 (guardPlace reg).2) false (narrow value))

/-- GUARD_TIMEOUT (R59). -/
def execGuardTimeout (dt : Nat) (page : GPage) (s : State) : Result :=
  s.clockedBy dt fun s => s.expireArm (guardFrame page)

/-- CORE_MASK_COMMIT (R101). -/
def execCoreMaskCommit (dt : Nat) (host : HostId) (core : BitVec 8) (complement : Word) (s : State) : Result :=
  s.portAccess dt (writeTo host (byteAt (fCore core.toNat) 0 0x840) false (narrow complement))

/-- PRIV_CLASS_COMMIT (R102). -/
def execPrivClassCommit (dt : Nat) (host : HostId) (core : BitVec 8) (hi : Bool) (complement : Word) (s : State) : Result :=
  s.portAccess dt (writeTo host (byteAt (fCore core.toNat) 0 (if hi then 0x864 else 0x860)) false (narrow complement))

/-- ACT_DROP_N: the complement of an arm of ACT_DROP with DROP_N (R97). -/
def execActDropN (dt : Nat) (host : HostId) (core : BitVec 8) (complement : Word) (s : State) : Result :=
  s.portAccess dt (writeTo host (byteAt (fCore core.toNat) 0 0x870) false (narrow complement))

/-- ACT_DROP_F: the complement of an arm of ACT_DROP with DROP_F (R97). -/
def execActDropF (dt : Nat) (host : HostId) (core : BitVec 8) (complement : Word) (s : State) : Result :=
  s.portAccess dt (writeTo host (byteAt (fCore core.toNat) 0 0x870) false (narrow complement))

/-- RULESET_SWAP (R136). -/
def execRulesetSwap (dt : Nat) (host : HostId) (page : BitVec 6) (complement : Word) (s : State) : Result :=
  s.portAccess dt (writeTo host (byteAt (fHost page.toNat) 0 0x820) false (narrow complement))

/-- COUNTER_WRITE (R52). -/
def execCounterWrite (dt : Nat) (host : HostId) (frame : BitVec 9) (idx : BitVec 6) (hi wide : Bool) (data : DWord)
    (s : State) : Result :=
  let o := 0x400 + 8 * idx.toNat + if hi then 4 else 0
  s.portAccess dt (writeTo host (byteAt frame.toNat 0 o) wide data)

/-- COUNTER_LO_READ (R51). -/
def execCounterLoRead (dt : Nat) (host : HostId) (frame : BitVec 9) (idx : BitVec 6) (view : BitVec 2) (wide : Bool)
    (s : State) : Result :=
  s.portAccess dt (readFrom host (byteAt frame.toNat view.toNat (0x400 + 8 * idx.toNat)) wide)

/-- SNAP_REQ (R55). -/
def execSnapReq (dt : Nat) (host : HostId) (value : Word) (s : State) : Result :=
  s.portAccess dt (writeTo host (byteAt fBlock 0 0x24) false (narrow value))

/-- DB_FENCE_READ (R69). -/
def execDbFenceRead (dt : Nat) (host : HostId) (port : BitVec 4) (read : ReadForm) (s : State) : Result :=
  s.portAccess dt (readFrom host (byteAt (fPort port.toNat) read.view.toNat 0x30) read.wide)

/-- DB_FENCE_ANSWER (R69). -/
def execDbFenceAnswer (dt : Nat) (s : State) : Result := s.serviceBy dt State.fenceAnswer

/-- DB_FENCE_TIMEOUT (R69). -/
def execDbFenceTimeout (dt : Nat) (s : State) : Result := s.serviceBy dt State.fenceTimeout

/-- WINDOW_READ (R170). -/
def execWindowRead (dt : Nat) (host : HostId) (rights : Bool) (word : BitVec 18) (wide : Bool) (s : State) : Result :=
  s.portAccess dt (readFrom host (windowByte rights word.toNat) wide)

/-- WINDOW_READ_ANSWER (R170). -/
def execWindowReadAnswer (dt : Nat) (page : PageRead) (s : State) : Result :=
  s.serviceBy dt fun s => s.windowAnswer page

/-- WINDOW_WRITE (R72). -/
def execWindowWrite (dt : Nat) (host : HostId) (rights : Bool) (word : BitVec 18) (wide : Bool) (data : DWord)
    (s : State) : Result :=
  s.portAccess dt (writeTo host (windowByte rights word.toNat) wide data)

/-- MAILBOX_WRITE (R289). -/
def execMailboxWrite (dt : Nat) (host : HostId) (mb : BitVec 6) (word : BitVec 12) (wide : Bool) (data : DWord)
    (s : State) : Result :=
  s.portAccess dt (writeTo host (boxByte mb.toNat word.toNat) wide data)

/-- MAILBOX_SUBMIT: a write that contains word 1 (R290). -/
def execMailboxSubmit (dt : Nat) (host : HostId) (mb : BitVec 6) (wide : Bool) (data : DWord) (presence : Presence)
    (page : PageRead) (s : State) : Result :=
  let a := writeTo host (boxByte mb.toNat (if wide then 0 else 1)) wide data
  s.always dt fun s =>
    s.offer { a with presence := presence.level, presenceAt := s.clock.edge - presence.ago, page := page }

/-- ACK_N (R99); a 64-bit read acknowledges by its lower half (R94). -/
def execAckN (dt : Nat) (host : HostId) (core : BitVec 8) (read : ReadForm) (page : PageRead) (s : State) : Result :=
  s.portAccess dt { readFrom host (byteAt (fCore core.toNat) read.view.toNat 0x20) read.wide with page := page }

/-- ACK_F (R99); a 64-bit read acknowledges by its lower half (R94). -/
def execAckF (dt : Nat) (host : HostId) (core : BitVec 8) (read : ReadForm) (page : PageRead) (s : State) : Result :=
  s.portAccess dt { readFrom host (byteAt (fCore core.toNat) read.view.toNat 0x30) read.wide with page := page }

/-- EOI_N (R100). -/
def execEoiN (dt : Nat) (host : HostId) (core : BitVec 8) (value : Word) (page : PageRead) (s : State) : Result :=
  s.portAccess dt { writeTo host (byteAt (fCore core.toNat) 0 0x28) false (narrow value) with page := page }

/-- EOI_F (R100). -/
def execEoiF (dt : Nat) (host : HostId) (core : BitVec 8) (value : Word) (page : PageRead) (s : State) : Result :=
  s.portAccess dt { writeTo host (byteAt (fCore core.toNat) 0 0x38) false (narrow value) with page := page }

/-- SGI_SEND (R86). -/
def execSgiSend (dt : Nat) (host : HostId) (core : BitVec 8) (value : Word) (s : State) : Result :=
  s.portAccess dt (writeTo host (byteAt (fCore core.toNat) 0 0x48) false (narrow value))

/-- PEND_SET (R87). -/
def execPendSet (dt : Nat) (host : HostId) (core : BitVec 8) (value : Word) (page : PageRead) (s : State) : Result :=
  s.portAccess dt { writeTo host (byteAt (fCore core.toNat) 0 0x4C) false (narrow value) with page := page }

/-- SPILL_CTRL_WRITE (R253). -/
def execSpillCtrlWrite (dt : Nat) (host : HostId) (view : BitVec 2) (value : Word) (s : State) : Result :=
  s.portAccess dt (writeTo host (byteAt fPump view.toNat 0x34) false (narrow value))

/-- SPILL_CONSUMED_WRITE (R253). -/
def execSpillConsumedWrite (dt : Nat) (host : HostId) (view : BitVec 2) (value : Word) (s : State) : Result :=
  s.portAccess dt (writeTo host (byteAt fPump view.toNat 0x38) false (narrow value))

/-- The frame and offset of a group's registers (R209). -/
def groupPlace (g : Nat) : Nat × Nat := (fGroup (g / 128), 0x800 + 16 * (g % 128))

/-- GRP_CFG_WRITE (R181). -/
def execGrpCfgWrite (dt : Nat) (host : HostId) (group : BitVec 10) (view : BitVec 2) (value : Word) (s : State) : Result :=
  let p := groupPlace group.toNat
  s.portAccess dt (writeTo host (byteAt p.1 view.toNat p.2) false (narrow value))

/-- GRP_HOLD_WRITE (R190). -/
def execGrpHoldWrite (dt : Nat) (host : HostId) (group : BitVec 10) (view : BitVec 2) (value : Word) (s : State) : Result :=
  let p := groupPlace group.toNat
  s.portAccess dt (writeTo host (byteAt p.1 view.toNat (p.2 + 4)) false (narrow value))

/-- TRIM_USER_WRITE (R421). -/
def execTrimUserWrite (dt : Nat) (host : HostId) (second : Bool) (view : BitVec 2) (value : Word) (s : State) : Result :=
  s.portAccess dt (writeTo host (byteAt fFuse view.toNat (if second then 0x28 else 0x24)) false (narrow value))

/-- SLOW_REG_WRITE (R49). -/
def execSlowRegWrite (dt : Nat) (host : HostId) (view : BitVec 2) (value : Word) (s : State) : Result :=
  s.portAccess dt (writeTo host (byteAt fFuse view.toNat 0x30) false (narrow value))

/-- TWIN_INJECT (R380). -/
def execTwinInject (dt : Nat) (host : HostId) (value : Word) (s : State) : Result :=
  s.portAccess dt (writeTo host (byteAt fTwin 0 0x38) false (narrow value))

/-- FT_READ (R229). -/
def execFtRead (dt : Nat) (host : HostId) (view : BitVec 2) (s : State) : Result :=
  s.portAccess dt (readFrom host (byteAt fFast view.toNat 0x28) false)

end Sys2Proof.Machine
end

