-- ==== Sys2Proof/Machine/ExecDoorbell.lean ====
section
/-! DEFINITION. The doorbell, store, sluice, fast-lane and core-event commands: one meaning for each row of the table. -/

namespace Sys2Proof.Machine

/-- A window boundary that is due (R179). -/
def State.boundaryDue (s : State) (kind : WindowKind) : State :=
  if s.windowEnd kind ≤ s.clock.dp then s.boundary kind s.waitsAt else s

/-- A group's hold-off that has run out is over (R190). -/
def State.holdEnds (s : State) (g : Nat) : State :=
  if (s.group g).holdEnd ≤ s.clock.dp then s.modGroup g fun x => { x with holdFrom := 0, holdEnd := 0 } else s

/-- DOORBELL_ACCEPT (R112); an offer before READY counts as backpressure (R142). -/
def execDoorbellAccept (dt : Nat) (port : BitVec 4) (data : DWord) (rid : BitVec 16) (np : Bool) (s : State) : Result :=
  s.clockedBy dt fun s => s.acceptN port.toNat data rid np

/-- DOORBELL_LOOKUP (R155). -/
def execDoorbellLookup (dt : Nat) (rights : Bool) (bank : BitVec 4) (page : PageRead) (s : State) : Result :=
  s.plane dt fun s => s.lookupRound rights bank.toNat page

/-- DOORBELL_EFFECT (R118). -/
def execDoorbellEffect (dt : Nat) (port : BitVec 4) (page : PageRead) (s : State) : Result :=
  s.plane dt fun s => s.effectN port.toNat page

/-- FAST_DOORBELL_ACCEPT (R222); an offer before READY counts as backpressure (R142). -/
def execFastDoorbellAccept (dt : Nat) (port : BitVec 4) (data : DWord) (rid : BitVec 16) (np : Bool) (s : State) : Result :=
  s.clockedBy dt fun s => s.acceptF port.toNat data rid np

/-- FAST_DOORBELL_EFFECT (R220). -/
def execFastDoorbellEffect (dt : Nat) (port : BitVec 4) (s : State) : Result :=
  s.plane dt fun s => s.effectF port.toNat

/-- DB_RESPONSE (R122). -/
def execDbResponse (dt : Nat) (port : BitVec 4) (s : State) : Result :=
  s.plane dt fun s => s.respond port.toNat

/-- PORT_MASK (R126). -/
def execPortMask (dt : Nat) (port : Seen 4) (s : State) : Result :=
  s.always dt fun s => s.pinSeen port.ago (.portMask dt port)

/-- PORT_UNMASK (R126). -/
def execPortUnmask (dt : Nat) (port : Seen 4) (s : State) : Result :=
  s.always dt fun s => s.pinSeen port.ago (.portUnmask dt port)

/-- SHADOW_RESERVE (R133). -/
def execShadowReserve (dt : Nat) (s : State) : Result :=
  s.plane dt State.shadowReserve

/-- SHADOW_RELEASE (R132). -/
def execShadowRelease (dt : Nat) (s : State) : Result :=
  s.plane dt State.releaseShadow

/-- ROUTE_ITEM_WRITE (R158). -/
def execRouteItemWrite (dt : Nat) (page : PageRead) (s : State) : Result :=
  s.plane dt fun s => s.routeItem page

/-- RIGHTS_ITEM_WRITE (R135). -/
def execRightsItemWrite (dt : Nat) (page : PageRead) (s : State) : Result :=
  s.plane dt fun s => s.rightsItem page

/-- LOCK_OVERRUN (R195). -/
def execLockOverrun (dt : Nat) (s : State) : Result :=
  s.plane dt State.lockOverrun

/-- MONITOR_WINDOW_CLOSE (R159). -/
def execMonitorWindowClose (dt : Nat) (rights : Bool) (s : State) : Result :=
  s.plane dt fun s => s.monitorClose rights

/-- REKEY_START (R160). -/
def execRekeyStart (dt : Nat) (rights : Bool) (s : State) : Result :=
  s.plane dt fun s => s.rekeyStart rights

/-- MIGRATION_ROW_TICK (R162). -/
def execMigrationRowTick (dt : Nat) (rights : Bool) (s : State) : Result :=
  s.plane dt fun s => s.rowTick rights

/-- MIGRATION_ROW_WRITE (R163). -/
def execMigrationRowWrite (dt : Nat) (rights : Bool) (pages : List PageRead) (s : State) : Result :=
  s.plane dt fun s => s.rowWrite rights pages

/-- TARGET_ROUND (R185). -/
def execTargetRound (dt : Nat) (target : BitVec 9) (s : State) : Result :=
  s.plane dt fun s => s.targetRound target.toNat

/-- WINDOW_BOUNDARY (R180). -/
def execWindowBoundary (dt : Nat) (kind : WindowKind) (s : State) : Result :=
  s.plane dt fun s => s.boundaryDue kind

/-- TRICKLE_HOLD_END (R190). -/
def execTrickleHoldEnd (dt : Nat) (group : BitVec 10) (s : State) : Result :=
  s.plane dt fun s => s.holdEnds group.toNat

/-- FAST_ROUND (R221). -/
def execFastRound (dt : Nat) (target : BitVec 9) (s : State) : Result :=
  s.plane dt fun s => s.fastRound target.toNat

/-- CORE_SLEEP_SEEN (R103). -/
def execCoreSleepSeen (dt : Nat) (core : Seen 8) (s : State) : Result :=
  s.always dt fun s => s.pinSeen core.ago (.coreSleepSeen dt core)

/-- CORE_WAKE_SEEN (R103). -/
def execCoreWakeSeen (dt : Nat) (core : Seen 8) (s : State) : Result :=
  s.always dt fun s => s.pinSeen core.ago (.coreWakeSeen dt core)

end Sys2Proof.Machine
end

