-- ==== Sys2Proof/Machine/ExecLevels.lean ====
section
/-! DEFINITION. The level-input, vault and standby-latch commands: one meaning for each row of the table. -/

namespace Sys2Proof.Machine

/-- LEVEL_INPUT_CHANGE (R266). -/
def execLevelInputChange (dt : Nat) (wire : BitVec 7) (high : Bool) (s : State) : Result :=
  s.always dt fun s => s.wireChange wire.toNat high

/-- LEVEL_FILTER_EDGE (R266). -/
def execLevelFilterEdge (dt : Nat) (wire : BitVec 7) (s : State) : Result :=
  s.readyBy dt fun s => s.wireFilter wire.toNat

/-- LEVEL_SET (R458). -/
def execLevelSet (dt : Nat) (line : BitVec 6) (s : State) : Result :=
  s.readyBy dt fun s => s.levelSet line.toNat

/-- DISC_TAMPER (R268). -/
def execDiscTamper (dt : Nat) (pair : BitVec 3) (s : State) : Result :=
  s.readyBy dt fun s => s.pairsNow.discTamper pair.toNat

/-- VAULT_SET (R268). -/
def execVaultSet (dt : Nat) (pair : BitVec 3) (s : State) : Result :=
  s.readyBy dt fun s => s.pairsNow.vaultSet pair.toNat

/-- VAULT_SWEEP (R274). -/
def execVaultSweep (dt : Nat) (s : State) : Result :=
  s.readyBy dt fun s => s.pairsNow.sweep

/-- ZEROIZE_LATCH_SET (R270). -/
def execZeroizeLatchSet (dt : Nat) (pair : BitVec 3) (s : State) : Result :=
  s.always dt fun s => s.asyncZ pair.toNat

/-- ZLATCH_SEEN (R273): the latch is seen the synchroniser's depth after its capture. -/
def execZlatchSeen (dt : Nat) (pair : Seen 3) (s : State) : Result :=
  s.readyBy dt fun s => if s.depth ≤ pair.ago then s.zSeen pair.pin.toNat else s

/-- STBY_LATCH_SET (R277). -/
def execStbyLatchSet (dt : Nat) (source : StbySource) (s : State) : Result :=
  s.always dt fun s => s.stbyLatch source

end Sys2Proof.Machine
end

