-- ==== Sys2Proof/Machine/ExecPump.lean ====
section
/-! DEFINITION. The cistern-pump and outbound-port commands: one meaning for each row of the table. -/

namespace Sys2Proof.Machine

/-- CISTERN_APPEND (R236). -/
def execCisternAppend (dt : Nat) (source : AppendSource) (page : PageRead) (s : State) : Result :=
  s.plane dt fun s => s.cisternAppend source page

/-- LEVEL1_RESPONSE (R240). -/
def execLevel1Response (dt : Nat) (tag : BitVec 9) (ok : Bool) (entry : DWord) (s : State) : Result :=
  s.always dt fun s => s.response (.level1Response 0 tag ok entry)

/-- DESCRIPTOR_RESPONSE (R240). -/
def execDescriptorResponse (dt : Nat) (tag : BitVec 9) (ok : Bool) (w0 w1 w2 w3 : DWord) (s : State) : Result :=
  s.always dt fun s => s.response (.descriptorResponse 0 tag ok w0 w1 w2 w3)

/-- CONTROL_BLOCK_RESPONSE (R240). -/
def execControlBlockResponse (dt : Nat) (tag : BitVec 9) (ok : Bool) (consumed producer : DWord) (s : State) : Result :=
  s.always dt fun s => s.response (.controlBlockResponse 0 tag ok consumed producer)

/-- HEAD_READ_RESPONSE (R245). -/
def execHeadReadResponse (dt : Nat) (tag : BitVec 9) (ok : Bool) (consumed : DWord) (s : State) : Result :=
  s.always dt fun s => s.response (.headReadResponse 0 tag ok consumed)

/-- FLOAT_POLL (R245). -/
def execFloatPoll (dt : Nat) (cistern : BitVec 15) (s : State) : Result :=
  s.plane dt fun s => s.floatPoll cistern.toNat

/-- HOLD_REFRESH (R245). -/
def execHoldRefresh (dt : Nat) (cistern : BitVec 15) (s : State) : Result :=
  s.plane dt fun s => s.holdRefresh cistern.toNat

/-- HOLD_LIMIT_EXPIRE (R246). -/
def execHoldLimitExpire (dt : Nat) (cistern : BitVec 15) (s : State) : Result :=
  s.plane dt fun s => s.holdLimit cistern.toNat

/-- COAL_TIMER_EXPIRE (R250). -/
def execCoalTimerExpire (dt : Nat) (cistern : BitVec 15) (s : State) : Result :=
  s.plane dt fun s => s.coalTimer cistern.toNat

/-- OUTBOUND_GRANT (R254). -/
def execOutboundGrant (dt : Nat) (s : State) : Result :=
  s.plane dt State.grantOutbound

/-- OM_REQUEST_TAKEN (R438). -/
def execOmRequestTaken (dt : Nat) (s : State) : Result :=
  s.plane dt State.requestTaken

/-- LINE_WRITE_RESPONSE (R248). -/
def execLineWriteResponse (dt : Nat) (tag : BitVec 9) (ok : Bool) (s : State) : Result :=
  s.always dt fun s => s.response (.lineWriteResponse 0 tag ok)

/-- PRODUCER_WRITE_RESPONSE (R242). -/
def execProducerWriteResponse (dt : Nat) (tag : BitVec 9) (ok : Bool) (s : State) : Result :=
  s.always dt fun s => s.response (.producerWriteResponse 0 tag ok)

/-- OUTBOUND_TIMEOUT (R456). -/
def execOutboundTimeout (dt : Nat) (tag : BitVec 9) (s : State) : Result :=
  s.plane dt fun s => s.outboundTimeout tag.toNat

/-- OUTBOUND_LATE_ANSWER (R456). -/
def execOutboundLateAnswer (dt : Nat) (tag : BitVec 9) (s : State) : Result :=
  s.always dt fun s => s.response (.outboundLateAnswer 0 tag)

/-- SPILLWAY_APPEND (R253). -/
def execSpillwayAppend (dt : Nat) (source : SpillSource) (s : State) : Result :=
  s.plane dt fun s => s.spillAppend source

/-- OM_STRAY_RESPONSE (R438). -/
def execOmStrayResponse (dt : Nat) (tag : BitVec 9) (read : Bool) (failed : Bool) (s : State) : Result :=
  s.always dt fun s => s.response (.omStrayResponse 0 tag read failed)

/-- IMAGE_SLOT_RESPONSE (R419). -/
def execImageSlotResponse (dt : Nat) (tag : BitVec 9) (ok : Bool) (data : List Byte) (s : State) : Result :=
  s.always dt fun s => s.response (.imageSlotResponse 0 tag ok data)

end Sys2Proof.Machine
end

