-- ==== Sys2Proof/Machine/ExecKeeper.lean ====
section
/-! DEFINITION. The keeper's commands and its own events: one meaning for each row of the table. -/

namespace Sys2Proof.Machine

/-- MAILBOX_ROUND (R295). -/
def execMailboxRound (dt : Nat) (s : State) : Result :=
  s.plane dt State.mailboxRound

/-- KEEPER_SERVICE_POINT (R300). -/
def execKeeperServicePoint (dt : Nat) (s : State) : Result :=
  s.plane dt State.servicePoint

/-- ENGINE_OP_DONE (R297). -/
def execEngineOpDone (dt : Nat) (presence : Presence) (s : State) : Result :=
  s.plane dt fun s => s.engineDone presence

/-- WATCHDOG_EXPIRE (R318). -/
def execWatchdogExpire (dt : Nat) (s : State) : Result :=
  s.plane dt State.watchdogExpires

/-- KEEPER_RESTART_DONE (R318). -/
def execKeeperRestartDone (dt : Nat) (romOk : Bool) (s : State) : Result :=
  s.readyBy dt fun s => s.restartDone romOk

/-- TOKEN_EXPIRE (R304). -/
def execTokenExpire (dt : Nat) (mb : BitVec 6) (s : State) : Result :=
  s.readyBy dt fun s => s.expireToken mb.toNat

/-- RANDOM_WAIT_TIMEOUT (R306). -/
def execRandomWaitTimeout (dt : Nat) (s : State) : Result :=
  s.plane dt State.randomExpires

/-- COMMAND_RESUME (R303). -/
def execCommandResume (dt : Nat) (s : State) : Result :=
  s.plane dt State.commandResume

/-- NOP (R307). -/
def execNop (dt : Nat) (s : State) : Result :=
  s.keeperBy dt State.cmdNop

/-- KEEPER_INFO (R307). -/
def execKeeperInfo (dt : Nat) (s : State) : Result :=
  s.keeperBy dt State.cmdInfo

/-- TOKEN_DROP (R304). -/
def execTokenDrop (dt : Nat) (s : State) : Result :=
  s.keeperBy dt State.cmdTokenDrop

/-- STANDBY_ENTER (R276). -/
def execStandbyEnter (dt : Nat) (s : State) : Result :=
  s.keeperBy dt State.cmdStandby

/-- STANDBY_DRAIN_DONE (R276). -/
def execStandbyDrainDone (dt : Nat) (s : State) : Result :=
  s.plane dt State.drainDone

/-- STANDBY_DRAIN_TIMEOUT (R276). -/
def execStandbyDrainTimeout (dt : Nat) (s : State) : Result :=
  s.plane dt State.drainTimeout

/-- VAULT_REARM (R272). -/
def execVaultRearm (dt : Nat) (pins : BitVec 8) (s : State) : Result :=
  s.keeperBy dt fun s => s.cmdRearm pins

/-- ROUTE_WRITE (R157). -/
def execRouteWrite (dt : Nat) (s : State) : Result :=
  s.keeperBy dt State.cmdRouteWrite

/-- FAST_WRITE (R214). -/
def execFastWrite (dt : Nat) (s : State) : Result :=
  s.keeperBy dt State.cmdFastWrite

/-- GROUP_WRITE (R205). -/
def execGroupWrite (dt : Nat) (pages : List PageRead) (s : State) : Result :=
  s.keeperBy dt fun s => s.cmdGroupWrite pages

/-- ROUTE_REKEY (R161). -/
def execRouteRekey (dt : Nat) (s : State) : Result :=
  s.keeperBy dt State.cmdRekey

/-- RIGHTS_WRITE (R134). -/
def execRightsWrite (dt : Nat) (s : State) : Result :=
  s.keeperBy dt State.cmdRightsWrite

/-- CISTERN_OPEN (R258). -/
def execCisternOpen (dt : Nat) (s : State) : Result :=
  s.keeperBy dt State.cmdOpen

/-- CISTERN_CLOSE (R258). -/
def execCisternClose (dt : Nat) (s : State) : Result :=
  s.keeperBy dt State.cmdClose

/-- CISTERN_SYNC (R258). -/
def execCisternSync (dt : Nat) (s : State) : Result :=
  s.keeperBy dt State.cmdSync

/-- CISTERN_FLUSH (R258). -/
def execCisternFlush (dt : Nat) (s : State) : Result :=
  s.keeperBy dt State.cmdFlush

/-- SNAPSHOT (R311). -/
def execSnapshot (dt : Nat) (s : State) : Result :=
  s.keeperBy dt State.cmdSnapshot

/-- SCRUB (R394). -/
def execScrub (dt : Nat) (s : State) : Result :=
  s.keeperBy dt State.cmdScrub

/-- STRENGTH_SET (R398). -/
def execStrengthSet (dt : Nat) (s : State) : Result :=
  s.keeperBy dt State.cmdStrength

/-- IMAGE_SAVE (R417). -/
def execImageSave (dt : Nat) (s : State) : Result :=
  s.keeperBy dt State.cmdImageSave

/-- IMAGE_RESTORE (R418). -/
def execImageRestore (dt : Nat) (s : State) : Result :=
  s.keeperBy dt State.cmdImageRestore

/-- STAGE (R330). -/
def execStage (dt : Nat) (s : State) : Result :=
  s.keeperBy dt State.cmdStage

/-- APPROVE (R336). -/
def execApprove (dt : Nat) (s : State) : Result :=
  s.plane dt State.approveHead

/-- APPROVAL_VERIFIED (R337). -/
def execApprovalVerified (dt : Nat) (s : State) : Result :=
  s.plane dt State.approvalVerified

/-- STAGE_STATUS (R313). -/
def execStageStatus (dt : Nat) (s : State) : Result :=
  s.keeperBy dt State.cmdStageStatus

/-- STAGE_CANCEL (R338). -/
def execStageCancel (dt : Nat) (s : State) : Result :=
  s.keeperBy dt State.cmdStageCancel

/-- STAGE_EXPIRE (R338). -/
def execStageExpire (dt : Nat) (s : State) : Result :=
  s.readyBy dt State.stageExpire

/-- COMMISSION (R328). -/
def execCommission (dt : Nat) (s : State) : Result :=
  s.keeperBy dt State.cmdCommission

/-- OFFICER_LIST (R314). -/
def execOfficerList (dt : Nat) (s : State) : Result :=
  s.keeperBy dt State.cmdOfficerList

/-- ATTEST (R346). -/
def execAttest (dt : Nat) (found : List SweptPage) (s : State) : Result :=
  s.keeperBy dt fun s => s.cmdAttest found

/-- CERT_READ (R345). -/
def execCertRead (dt : Nat) (s : State) : Result :=
  s.keeperBy dt State.cmdCertRead

/-- SHA256 (R315). -/
def execSha256 (dt : Nat) (s : State) : Result :=
  s.keeperBy dt State.cmdSha

/-- CONFIG_DIGEST (R347). -/
def execConfigDigest (dt : Nat) (found : List SweptPage) (s : State) : Result :=
  s.keeperBy dt fun s => s.cmdConfigDigest found

/-- TWIN_STATUS (R381). -/
def execTwinStatus (dt : Nat) (s : State) : Result :=
  s.keeperBy dt State.cmdTwinStatus

/-- REPAIR (R370). -/
def execRepair (supply : Supply) (s : State) : Result :=
  s.keeperBy supply.dt fun s => s.cmdRepair supply.powerGood

/-- TWIN_SWAP (R378). -/
def execTwinSwap (dt : Nat) (s : State) : Result :=
  s.keeperBy dt State.cmdSwap

/-- SELF_TEST (R317). -/
def execSelfTest (dt : Nat) (passed : BitVec 5) (s : State) : Result :=
  s.keeperBy dt fun s => s.cmdSelfTest passed

/-- LIFECYCLE_ADVANCE (R425). -/
def execLifecycleAdvance (dt : Nat) (presence : Presence) (s : State) : Result :=
  s.keeperBy dt fun s => s.cmdLifecycle presence

/-- FUSE_RESENSE (R350). -/
def execFuseResense (dt : Nat) (drift : List FuseDrift) (s : State) : Result :=
  s.keeperBy dt fun s => s.cmdResense drift

/-- FUSE_RESENSE_TICK (R350). -/
def execFuseResenseTick (dt : Nat) (drift : List FuseDrift) (s : State) : Result :=
  s.readyBy dt fun s => s.resenseTick drift

/-- FUSE_PROGRAM_DONE (R423). -/
def execFuseProgramDone (dt : Nat) (clean : Bool) (s : State) : Result :=
  s.clockedBy dt fun s => s.programDone clean

end Sys2Proof.Machine
end

