-- ==== Sys2Proof/Machine/ExecIntegrity.lean ====
section
/-! DEFINITION. The stored-state integrity commands: one meaning for each row of the table. -/

namespace Sys2Proof.Machine

/-- SCRUB_WALKER_TICK (R392). -/
def execScrubWalkerTick (dt : Nat) (store : BitVec 3) (s : State) : Result :=
  s.plane dt fun s => s.walkerTick store.toNat

/-- SCRUB_ACCESS (R393). -/
def execScrubAccess (dt : Nat) (store : BitVec 3) (bank : BitVec 4) (page : PageRead) (s : State) : Result :=
  s.plane dt fun s => s.scrubAccess store.toNat bank.toNat page

/-- PAGE_REBUILD (R391). -/
def execPageRebuild (dt : Nat) (store : BitVec 3) (index : BitVec 16) (s : State) : Result :=
  s.plane dt fun s => s.rebuild store.toNat index.toNat

/-- REENCODE_PAGE (R398). -/
def execReencodePage (dt : Nat) (page : PageRead) (s : State) : Result :=
  s.plane dt fun s => s.reencodePage page

/-- FAST_TABLE_SWEEP (R216). -/
def execFastTableSweep (turn : SweepTurn) (s : State) : Result :=
  s.plane turn.dt fun s => s.fastSweep turn.upsets

end Sys2Proof.Machine
end

