-- ==== Sys2Proof/Machine/ExecTwin.lean ====
section
/-! DEFINITION. The twin-link, failover and re-pair commands: one meaning for each row of the table. -/

namespace Sys2Proof.Machine

/-- CHECKPOINT (R355). -/
def execCheckpoint (dt : Nat) (vecA vecB : List Byte) (s : State) : Result :=
  s.plane dt fun s => s.checkpoint vecA vecB

/-- TWIN_FRAME_ARRIVE (R356). -/
def execTwinFrameArrive (dt : Nat) (toB : Bool) (noise : List Byte) (s : State) : Result :=
  s.plane dt fun s => s.frameArrive toB noise

/-- SIG_COMPARE (R356). -/
def execSigCompare (dt : Nat) (s : State) : Result :=
  s.plane dt State.sigCompare

/-- HB_LOSS (R357). -/
def execHbLoss (dt : Nat) (well : Bool) (s : State) : Result :=
  s.plane dt fun s => s.heartbeatLoss well

/-- LEAD_SILENT (R358). -/
def execLeadSilent (line : Quiet) (s : State) : Result :=
  s.readyBy line.dt fun s => s.leadSilent line.edges

/-- MIRROR_SILENT (R358). -/
def execMirrorSilent (line : Quiet) (s : State) : Result :=
  s.readyBy line.dt fun s => s.mirrorSilent line.edges

/-- FAILOVER_FREEZE (R360). -/
def execFailoverFreeze (dt : Nat) (s : State) : Result :=
  s.plane dt State.freeze

/-- SELF_CHECK_REPORT (R361). -/
def execSelfCheckReport (dt : Nat) (well : Bool) (found : SelfCheck) (s : State) : Result :=
  s.readyBy dt fun s => s.selfReport well found

/-- SELF_CHECK_DEADLINE (R361). -/
def execSelfCheckDeadline (dt : Nat) (s : State) : Result :=
  s.readyBy dt State.selfDeadline

/-- FAILOVER_RESUME (R363). -/
def execFailoverResume (dt : Nat) (s : State) : Result :=
  s.readyBy dt State.resume

/-- REPAIR_DIGEST_MATCH (R371). -/
def execRepairDigestMatch (dt : Nat) (agree : Bool) (s : State) : Result :=
  s.plane dt fun s => s.digestMatch agree

/-- REPAIR_CHUNK_STAGE (R372). -/
def execRepairChunkStage (dt : Nat) (s : State) : Result :=
  s.plane dt State.chunkStage

/-- REPAIR_CHUNK_OPEN (R375): the joining well opens the chunk; the lead opens none. -/
def execRepairChunkOpen (dt : Nat) (well : Bool) (s : State) : Result :=
  s.plane dt fun s => if well = s.twin.leadB then s else s.chunkOpen

/-- FORWARDED_WRITE (R373). -/
def execForwardedWrite (dt : Nat) (store : BitVec 3) (index : BitVec 16) (s : State) : Result :=
  s.plane dt fun s => s.forwarded store.toNat index.toNat

/-- REPAIR_JOIN (R376). -/
def execRepairJoin (dt : Nat) (s : State) : Result :=
  s.plane dt State.join

/-- REPAIR_REFILL_DONE (R375). -/
def execRepairRefillDone (dt : Nat) (s : State) : Result :=
  s.plane dt State.refillDone

/-- PWR_GOOD_FALL (R377). -/
def execPwrGoodFall (dt : Nat) (well : Bool) (s : State) : Result :=
  s.clockedBy dt fun s => s.powerFall well

end Sys2Proof.Machine
end

