-- ==== Sys2Proof/Machine/ExecReset.lean ====
section
/-! DEFINITION. The reset, start-up, random-wire, slow-plane and test-access commands: one meaning for each row of the table. -/

namespace Sys2Proof.Machine

/-- POWER_ON_RESET (R403). -/
def execPowerOnReset (dt : Nat) (s : State) : Result :=
  s.always dt State.powerOn

/-- PORST_RELEASE (R403). -/
def execPorstRelease (dt : Nat) (goodA goodB : Bool) (s : State) : Result :=
  s.always dt fun s => s.release0 goodA goodB

/-- WARM_RESET (R404). -/
def execWarmReset (dt : Nat) (lowFor : Nat) (s : State) : Result :=
  s.always dt fun s => s.warmReset lowFor

/-- AON_SUPPLY_LOSS (R403). -/
def execAonSupplyLoss (dt : Nat) (s : State) : Result :=
  s.always dt State.aonLoss

/-- STARTUP_STEP_DONE (R407). -/
def execStartupStepDone (dt : Nat) (well : Bool) (outcome : StepEnd) (s : State) : Result :=
  s.clockedBy dt fun s => match outcome with
    | .failed => s.stepDone well false []
    | .passed found => s.stepDone well true found

/-- STARTUP_STEP_TIMEOUT (R407). -/
def execStartupStepTimeout (dt : Nat) (well : Bool) (s : State) : Result :=
  s.clockedBy dt fun s => s.stepTimeout well

/-- READY (R409). -/
def execReady (handshake : Handshake) (s : State) : Result :=
  s.clockedBy handshake.dt fun s => s.becomeReady handshake.agree

/-- RND_WORD (R443). -/
def execRndWord (dt : Nat) (word : DWord) (health : Bool) (s : State) : Result :=
  s.clockedBy dt fun s => s.rndWord word health

/-- RND_KAT_TIMEOUT (R444). -/
def execRndKatTimeout (dt : Nat) (s : State) : Result :=
  s.clockedBy dt State.katTimeout

/-- SCLK_EDGE (R47). -/
def execSclkEdge (dt : Nat) (s : State) : Result :=
  s.clockedBy dt State.sclkEdge

/-- TAP_TCK_EDGE (R426). -/
def execTapTckEdge (dt : Nat) (tms tdi trstN : Bool) (code : TapCode) (s : State) : Result :=
  s.always dt fun s => s.tapEdge tms tdi trstN code

end Sys2Proof.Machine
end

