-- ==== Sys2Proof/Machine/Dispatch.lean ====
section
/-! DEFINITION. The dispatch: each command's arm calls its meaning. -/

namespace Sys2Proof.Machine

def exec (i : Instr) (s : State) : Host.Outcome State Fault Refusal :=
  match i with
  | .registerWrite dt host addr wide data => Sys2Proof.Machine.execRegisterWrite dt host addr wide data s
  | .pageLockWrite dt host frame view value => Sys2Proof.Machine.execPageLockWrite dt host frame view value s
  | .guardArm dt host reg value => Sys2Proof.Machine.execGuardArm dt host reg value s
  | .guardTimeout dt page => Sys2Proof.Machine.execGuardTimeout dt page s
  | .coreMaskCommit dt host core complement => Sys2Proof.Machine.execCoreMaskCommit dt host core complement s
  | .privClassCommit dt host core hi complement => Sys2Proof.Machine.execPrivClassCommit dt host core hi complement s
  | .actDropN dt host core complement => Sys2Proof.Machine.execActDropN dt host core complement s
  | .actDropF dt host core complement => Sys2Proof.Machine.execActDropF dt host core complement s
  | .rulesetSwap dt host page complement => Sys2Proof.Machine.execRulesetSwap dt host page complement s
  | .counterWrite dt host frame idx hi wide data => Sys2Proof.Machine.execCounterWrite dt host frame idx hi wide data s
  | .counterLoRead dt host frame idx view wide => Sys2Proof.Machine.execCounterLoRead dt host frame idx view wide s
  | .snapReq dt host value => Sys2Proof.Machine.execSnapReq dt host value s
  | .dbFenceRead dt host port read => Sys2Proof.Machine.execDbFenceRead dt host port read s
  | .dbFenceAnswer dt => Sys2Proof.Machine.execDbFenceAnswer dt s
  | .dbFenceTimeout dt => Sys2Proof.Machine.execDbFenceTimeout dt s
  | .windowRead dt host rights word wide => Sys2Proof.Machine.execWindowRead dt host rights word wide s
  | .windowReadAnswer dt page => Sys2Proof.Machine.execWindowReadAnswer dt page s
  | .windowWrite dt host rights word wide data => Sys2Proof.Machine.execWindowWrite dt host rights word wide data s
  | .mailboxWrite dt host mb word wide data => Sys2Proof.Machine.execMailboxWrite dt host mb word wide data s
  | .mailboxSubmit dt host mb wide data presence page => Sys2Proof.Machine.execMailboxSubmit dt host mb wide data presence page s
  | .ackN dt host core read page => Sys2Proof.Machine.execAckN dt host core read page s
  | .ackF dt host core read page => Sys2Proof.Machine.execAckF dt host core read page s
  | .eoiN dt host core value page => Sys2Proof.Machine.execEoiN dt host core value page s
  | .eoiF dt host core value page => Sys2Proof.Machine.execEoiF dt host core value page s
  | .sgiSend dt host core value => Sys2Proof.Machine.execSgiSend dt host core value s
  | .pendSet dt host core value page => Sys2Proof.Machine.execPendSet dt host core value page s
  | .spillCtrlWrite dt host view value => Sys2Proof.Machine.execSpillCtrlWrite dt host view value s
  | .spillConsumedWrite dt host view value => Sys2Proof.Machine.execSpillConsumedWrite dt host view value s
  | .grpCfgWrite dt host group view value => Sys2Proof.Machine.execGrpCfgWrite dt host group view value s
  | .grpHoldWrite dt host group view value => Sys2Proof.Machine.execGrpHoldWrite dt host group view value s
  | .trimUserWrite dt host second view value => Sys2Proof.Machine.execTrimUserWrite dt host second view value s
  | .slowRegWrite dt host view value => Sys2Proof.Machine.execSlowRegWrite dt host view value s
  | .twinInject dt host value => Sys2Proof.Machine.execTwinInject dt host value s
  | .ftRead dt host view => Sys2Proof.Machine.execFtRead dt host view s
  | .doorbellAccept dt port data rid np => Sys2Proof.Machine.execDoorbellAccept dt port data rid np s
  | .doorbellLookup dt rights bank page => Sys2Proof.Machine.execDoorbellLookup dt rights bank page s
  | .doorbellEffect dt port page => Sys2Proof.Machine.execDoorbellEffect dt port page s
  | .fastDoorbellAccept dt port data rid np => Sys2Proof.Machine.execFastDoorbellAccept dt port data rid np s
  | .fastDoorbellEffect dt port => Sys2Proof.Machine.execFastDoorbellEffect dt port s
  | .dbResponse dt port => Sys2Proof.Machine.execDbResponse dt port s
  | .portMask dt port => Sys2Proof.Machine.execPortMask dt port s
  | .portUnmask dt port => Sys2Proof.Machine.execPortUnmask dt port s
  | .shadowReserve dt => Sys2Proof.Machine.execShadowReserve dt s
  | .shadowRelease dt => Sys2Proof.Machine.execShadowRelease dt s
  | .routeItemWrite dt page => Sys2Proof.Machine.execRouteItemWrite dt page s
  | .rightsItemWrite dt page => Sys2Proof.Machine.execRightsItemWrite dt page s
  | .lockOverrun dt => Sys2Proof.Machine.execLockOverrun dt s
  | .monitorWindowClose dt rights => Sys2Proof.Machine.execMonitorWindowClose dt rights s
  | .rekeyStart dt rights => Sys2Proof.Machine.execRekeyStart dt rights s
  | .migrationRowTick dt rights => Sys2Proof.Machine.execMigrationRowTick dt rights s
  | .migrationRowWrite dt rights pages => Sys2Proof.Machine.execMigrationRowWrite dt rights pages s
  | .targetRound dt target => Sys2Proof.Machine.execTargetRound dt target s
  | .windowBoundary dt kind => Sys2Proof.Machine.execWindowBoundary dt kind s
  | .trickleHoldEnd dt group => Sys2Proof.Machine.execTrickleHoldEnd dt group s
  | .fastRound dt target => Sys2Proof.Machine.execFastRound dt target s
  | .coreSleepSeen dt core => Sys2Proof.Machine.execCoreSleepSeen dt core s
  | .coreWakeSeen dt core => Sys2Proof.Machine.execCoreWakeSeen dt core s
  | .levelInputChange dt wire high => Sys2Proof.Machine.execLevelInputChange dt wire high s
  | .levelFilterEdge dt wire => Sys2Proof.Machine.execLevelFilterEdge dt wire s
  | .levelSet dt line => Sys2Proof.Machine.execLevelSet dt line s
  | .discTamper dt pair => Sys2Proof.Machine.execDiscTamper dt pair s
  | .vaultSet dt pair => Sys2Proof.Machine.execVaultSet dt pair s
  | .vaultSweep dt => Sys2Proof.Machine.execVaultSweep dt s
  | .zeroizeLatchSet dt pair => Sys2Proof.Machine.execZeroizeLatchSet dt pair s
  | .zlatchSeen dt pair => Sys2Proof.Machine.execZlatchSeen dt pair s
  | .stbyLatchSet dt source => Sys2Proof.Machine.execStbyLatchSet dt source s
  | .cisternAppend dt source page => Sys2Proof.Machine.execCisternAppend dt source page s
  | .level1Response dt tag ok entry => Sys2Proof.Machine.execLevel1Response dt tag ok entry s
  | .descriptorResponse dt tag ok w0 w1 w2 w3 => Sys2Proof.Machine.execDescriptorResponse dt tag ok w0 w1 w2 w3 s
  | .controlBlockResponse dt tag ok consumed producer => Sys2Proof.Machine.execControlBlockResponse dt tag ok consumed producer s
  | .headReadResponse dt tag ok consumed => Sys2Proof.Machine.execHeadReadResponse dt tag ok consumed s
  | .floatPoll dt cistern => Sys2Proof.Machine.execFloatPoll dt cistern s
  | .holdRefresh dt cistern => Sys2Proof.Machine.execHoldRefresh dt cistern s
  | .holdLimitExpire dt cistern => Sys2Proof.Machine.execHoldLimitExpire dt cistern s
  | .coalTimerExpire dt cistern => Sys2Proof.Machine.execCoalTimerExpire dt cistern s
  | .outboundGrant dt => Sys2Proof.Machine.execOutboundGrant dt s
  | .omRequestTaken dt => Sys2Proof.Machine.execOmRequestTaken dt s
  | .lineWriteResponse dt tag ok => Sys2Proof.Machine.execLineWriteResponse dt tag ok s
  | .producerWriteResponse dt tag ok => Sys2Proof.Machine.execProducerWriteResponse dt tag ok s
  | .outboundTimeout dt tag => Sys2Proof.Machine.execOutboundTimeout dt tag s
  | .outboundLateAnswer dt tag => Sys2Proof.Machine.execOutboundLateAnswer dt tag s
  | .spillwayAppend dt source => Sys2Proof.Machine.execSpillwayAppend dt source s
  | .mailboxRound dt => Sys2Proof.Machine.execMailboxRound dt s
  | .keeperServicePoint dt => Sys2Proof.Machine.execKeeperServicePoint dt s
  | .engineOpDone dt presence => Sys2Proof.Machine.execEngineOpDone dt presence s
  | .watchdogExpire dt => Sys2Proof.Machine.execWatchdogExpire dt s
  | .keeperRestartDone dt romOk => Sys2Proof.Machine.execKeeperRestartDone dt romOk s
  | .tokenExpire dt mb => Sys2Proof.Machine.execTokenExpire dt mb s
  | .randomWaitTimeout dt => Sys2Proof.Machine.execRandomWaitTimeout dt s
  | .commandResume dt => Sys2Proof.Machine.execCommandResume dt s
  | .nop dt => Sys2Proof.Machine.execNop dt s
  | .keeperInfo dt => Sys2Proof.Machine.execKeeperInfo dt s
  | .tokenDrop dt => Sys2Proof.Machine.execTokenDrop dt s
  | .standbyEnter dt => Sys2Proof.Machine.execStandbyEnter dt s
  | .standbyDrainDone dt => Sys2Proof.Machine.execStandbyDrainDone dt s
  | .standbyDrainTimeout dt => Sys2Proof.Machine.execStandbyDrainTimeout dt s
  | .vaultRearm dt pins => Sys2Proof.Machine.execVaultRearm dt pins s
  | .routeWrite dt => Sys2Proof.Machine.execRouteWrite dt s
  | .fastWrite dt => Sys2Proof.Machine.execFastWrite dt s
  | .groupWrite dt pages => Sys2Proof.Machine.execGroupWrite dt pages s
  | .routeRekey dt => Sys2Proof.Machine.execRouteRekey dt s
  | .rightsWrite dt => Sys2Proof.Machine.execRightsWrite dt s
  | .cisternOpen dt => Sys2Proof.Machine.execCisternOpen dt s
  | .cisternClose dt => Sys2Proof.Machine.execCisternClose dt s
  | .cisternSync dt => Sys2Proof.Machine.execCisternSync dt s
  | .cisternFlush dt => Sys2Proof.Machine.execCisternFlush dt s
  | .snapshot dt => Sys2Proof.Machine.execSnapshot dt s
  | .scrub dt => Sys2Proof.Machine.execScrub dt s
  | .strengthSet dt => Sys2Proof.Machine.execStrengthSet dt s
  | .imageSave dt => Sys2Proof.Machine.execImageSave dt s
  | .imageRestore dt => Sys2Proof.Machine.execImageRestore dt s
  | .stage dt => Sys2Proof.Machine.execStage dt s
  | .approve dt => Sys2Proof.Machine.execApprove dt s
  | .approvalVerified dt => Sys2Proof.Machine.execApprovalVerified dt s
  | .stageStatus dt => Sys2Proof.Machine.execStageStatus dt s
  | .stageCancel dt => Sys2Proof.Machine.execStageCancel dt s
  | .stageExpire dt => Sys2Proof.Machine.execStageExpire dt s
  | .commission dt => Sys2Proof.Machine.execCommission dt s
  | .officerList dt => Sys2Proof.Machine.execOfficerList dt s
  | .attest dt found => Sys2Proof.Machine.execAttest dt found s
  | .certRead dt => Sys2Proof.Machine.execCertRead dt s
  | .sha256 dt => Sys2Proof.Machine.execSha256 dt s
  | .configDigest dt found => Sys2Proof.Machine.execConfigDigest dt found s
  | .twinStatus dt => Sys2Proof.Machine.execTwinStatus dt s
  | .repair supply => Sys2Proof.Machine.execRepair supply s
  | .twinSwap dt => Sys2Proof.Machine.execTwinSwap dt s
  | .selfTest dt passed => Sys2Proof.Machine.execSelfTest dt passed s
  | .lifecycleAdvance dt presence => Sys2Proof.Machine.execLifecycleAdvance dt presence s
  | .fuseResense dt drift => Sys2Proof.Machine.execFuseResense dt drift s
  | .fuseResenseTick dt drift => Sys2Proof.Machine.execFuseResenseTick dt drift s
  | .fuseProgramDone dt clean => Sys2Proof.Machine.execFuseProgramDone dt clean s
  | .scrubWalkerTick dt store => Sys2Proof.Machine.execScrubWalkerTick dt store s
  | .scrubAccess dt store bank page => Sys2Proof.Machine.execScrubAccess dt store bank page s
  | .pageRebuild dt store index => Sys2Proof.Machine.execPageRebuild dt store index s
  | .reencodePage dt page => Sys2Proof.Machine.execReencodePage dt page s
  | .checkpoint dt vecA vecB => Sys2Proof.Machine.execCheckpoint dt vecA vecB s
  | .twinFrameArrive dt toB noise => Sys2Proof.Machine.execTwinFrameArrive dt toB noise s
  | .sigCompare dt => Sys2Proof.Machine.execSigCompare dt s
  | .hbLoss dt well => Sys2Proof.Machine.execHbLoss dt well s
  | .leadSilent line => Sys2Proof.Machine.execLeadSilent line s
  | .mirrorSilent line => Sys2Proof.Machine.execMirrorSilent line s
  | .failoverFreeze dt => Sys2Proof.Machine.execFailoverFreeze dt s
  | .selfCheckReport dt well found => Sys2Proof.Machine.execSelfCheckReport dt well found s
  | .selfCheckDeadline dt => Sys2Proof.Machine.execSelfCheckDeadline dt s
  | .failoverResume dt => Sys2Proof.Machine.execFailoverResume dt s
  | .repairDigestMatch dt agree => Sys2Proof.Machine.execRepairDigestMatch dt agree s
  | .repairChunkStage dt => Sys2Proof.Machine.execRepairChunkStage dt s
  | .repairChunkOpen dt well => Sys2Proof.Machine.execRepairChunkOpen dt well s
  | .forwardedWrite dt store index => Sys2Proof.Machine.execForwardedWrite dt store index s
  | .repairJoin dt => Sys2Proof.Machine.execRepairJoin dt s
  | .pwrGoodFall dt well => Sys2Proof.Machine.execPwrGoodFall dt well s
  | .powerOnReset dt => Sys2Proof.Machine.execPowerOnReset dt s
  | .porstRelease dt goodA goodB => Sys2Proof.Machine.execPorstRelease dt goodA goodB s
  | .warmReset dt lowFor => Sys2Proof.Machine.execWarmReset dt lowFor s
  | .aonSupplyLoss dt => Sys2Proof.Machine.execAonSupplyLoss dt s
  | .startupStepDone dt well outcome => Sys2Proof.Machine.execStartupStepDone dt well outcome s
  | .startupStepTimeout dt well => Sys2Proof.Machine.execStartupStepTimeout dt well s
  | .ready handshake => Sys2Proof.Machine.execReady handshake s
  | .rndWord dt word health => Sys2Proof.Machine.execRndWord dt word health s
  | .rndKatTimeout dt => Sys2Proof.Machine.execRndKatTimeout dt s
  | .sclkEdge dt => Sys2Proof.Machine.execSclkEdge dt s
  | .omStrayResponse dt tag read failed => Sys2Proof.Machine.execOmStrayResponse dt tag read failed s
  | .imageSlotResponse dt tag ok data => Sys2Proof.Machine.execImageSlotResponse dt tag ok data s
  | .repairRefillDone dt => Sys2Proof.Machine.execRepairRefillDone dt s
  | .fastTableSweep turn => Sys2Proof.Machine.execFastTableSweep turn s
  | .tapTckEdge dt tms tdi trstN code => Sys2Proof.Machine.execTapTckEdge dt tms tdi trstN code s

end Sys2Proof.Machine
end

