-- ==== Sys2Proof/Safety.lean ====
section
/-! DEFINITION. The terms that claims are stated in: the state a command leaves, the edge at which an access passes, the
registers a write reaches, and what makes a state or a run safe. -/

namespace Sys2Proof.Machine

/-- The state a command leaves: what it made of the state at its edge, every fabric event of that edge set (R44), and
the queue as the command found it. -/
def State.left (s t : State) : State := { t.settle settleFuel with pending := s.pending }

/-- The ICLK edge at which an access offered `dt` edges from now passes the ordering point (R66, R435). -/
def State.portEdge (s : State) (dt : Nat) : State :=
  let u := s.elapse dt
  let v := u.elapse (u.nextPass - u.clock.edge)
  let front := { v.front with lastPass := some v.clock.edge }
  { v with front := front }

/-- An access offered `dt` edges from now passes: the port takes it, nothing holds or waits at the ordering point, and
the data plane runs at the edge at which it passes (R66, R360, R435). -/
def State.portOpen (s : State) (dt : Nat) : Prop :=
  (s.elapse dt).dead = false ∧ (s.elapse dt).accepts = true ∧ (s.elapse dt).front.hold = none ∧
    (s.elapse dt).front.waiting = [] ∧ (s.portEdge dt).running = true ∧ (s.portEdge dt).front.hold = none

/-- A register that a write reaches through the register table of its page (R34, R38): the fault injector's control
word, the staged slow word and the group registers, which have effects of their own, apart. -/
def tableReg (f o : Nat) : Bool :=
  isGlobal f && decide (0x20 ≤ o) && (decide (o < 0x400) || decide (0x800 ≤ o)) && decide (o < 0x1000) &&
    (regInfo f o).isSome && !(decide (fGroup 0 ≤ f) && decide (f < fPump)) && !(decide (f = fTwin) && decide (o = 0x20)) &&
    !(decide (f = fFuse) && decide (o = 0x30))

/-- A table register whose write changes nothing but the register (R34). -/
def quietReg (f o : Nat) : Bool :=
  tableReg f o && !(decide (f = fRoute) && (decide (o = 0x40) || decide (o = 0x44))) &&
    !(decide (f = fPump) && (decide (o = 0x34) || decide (o = 0x38))) && !decide (f = fLevel) && !decide (f = fFuse) &&
    !(decide (f = fFast) && decide (o = 0x34))

/-- A host's access reaches a frame: the page access gate, as it stands before the access's edge, admits it (R22, R139,
R140). -/
def State.frameAdmits (s : State) (f : Nat) (host : HostId) (write : Bool) : Bool :=
  if isCoreFrame f then s.sampled.coreAdmits (f - 0x80) host.toNat
  else if isHostFrame f then decide (host.toNat = 0) || decide (host.toNat = f - 0x40)
  else s.sampled.globalAdmits f host.toNat write

/-- A page's arm slot holds an arm that is still open at this edge (R57, R59). -/
def State.armedWith (s : State) (f : Nat) (a : Arm) : Prop :=
  s.arm f = some a ∧ s.clock.edge < a.edge + 65 * Config.iclk

/-- The access that a refusal leaves: the page's record and counts, and the response REFUSED (R37, R42, R454). -/
def State.refusedAt (s : State) (f reason view o : Nat) (read : Bool) (host : HostId) : State :=
  (s.recordPage f reason (faultWord reason view o read host)).answer .refused 0#64

/-- Counter `k` as a write forms it (R52, R53): the count that the written bits give, `n` increments of the edge added to its 48
bits, OVF set where that wraps; the edge's wraps of R53 are those of the count so formed, in place of the count as it stood
before. -/
def State.formedWith (s : State) (k : Nat) (w : BitVec 48) (n : Nat) : State :=
  let t := s.setCounter k { s.counter k with count := w + BitVec.ofNat 48 n, ovf := decide (2 ^ 48 ≤ w.toNat + n) }
  let stood : Nat := if 2 ^ 48 ≤ (s.sampled.counter k).count.toNat + n then 1 else 0
  let formed : Nat := if 2 ^ 48 ≤ w.toNat + n then 1 else 0
  { t with ovfs := s.ovfs - stood + formed }

/-- The ordering point held from this edge on (R66). -/
def State.heldWith (s : State) (h : Hold) : State := { s with front.hold := some h }

/-- A row whose 16 pages have moved by the bank difference d into a key slot: its poison bits stand at the pages' new
places in both wells, and its pages carry the slot in their EPOCH copies (R165, R166). -/
def State.rowMoved (s : State) (m row d : Nat) (slot : Bool) : State :=
  let move (w : Well) : Well := { w with poison := movePoison w.poison m row d }
  (List.range 16).foldl (fun (t : State) b => t.setEpoch m (row * 16 + b) slot) ((s.modWell false move).modWell true move)

/-- A response beat at this edge ends an access of the outbound port: the block is clocked and not frozen, and the beat's
tag names an access that was taken and has not timed out (R360, R438, R456). -/
def State.awaits (s : State) (tag : Nat) (a : OutAccess) : Prop :=
  s.startup.inReset = false ∧ s.frozen = false ∧ s.access tag = some a ∧ a.takenAt.isSome = true ∧ a.timedOut = false

/-- No fabric event waits to be set: what holds between commands (R44). -/
def State.calm (s : State) : Prop := s.raised = []

/-- The sparse tables of the state list each number once, in rising order: the counters, interrupts, cores, ports, groups,
round grants, arbiters, cache entries, pairs and mailboxes that are not as reset leaves them, so that equal contents are equal
data. -/
def State.tablesRise (s : State) : Prop :=
  rising 0 s.front.counters = true ∧ rising 0 s.ints = true ∧ rising 0 s.cores = true ∧ rising 0 s.ports = true ∧
    rising 0 s.sluice.groups = true ∧ rising 0 s.sluice.grants = true ∧ rising 0 s.sluice.arbiters = true ∧
    rising 0 s.pump.cache = true ∧ rising 0 s.levels.pairs = true ∧ rising 0 s.keeper.submitted = true ∧
    rising 0 s.keeper.boxes = true ∧ ∀ e ∈ s.keeper.boxes, rising 0 e.2.bytes = true

/-- A run of n steps from a state, as the states it passes: each step answers the next. -/
inductive Runs : Nat → State → State → Prop where
  | stop (s : State) : Runs 0 s s
  | more {n : Nat} {s t u : State} (h : step s = .next t) (r : Runs n t u) : Runs (n + 1) s u

/-- A state is safe when its next step answers a calm state: no command stops the block. -/
def State.safe (s : State) : Prop := ∃ t, step s = .next t ∧ t.calm

end Sys2Proof.Machine
end

