-- ==== Sys2Proof/Certificates/Slice0/Obligations.lean ====
section
/-! DEFINITION. The statements for the provers: what each command does, when, and what it leaves alone, from the rules of
the spec. Each is about `exec` or `step` at every state that meets its hypotheses. -/

open Sys2Proof Sys2Proof.Machine

/-! ### The block -/

/-- One step takes the command at the front of the queue and runs it with the queue's rest; with no command waiting one
FCLK edge passes (the model's choice, log entry 2). -/
def Obligations.StepRunsTheFrontCommand : Prop :=
  ∀ (s : State) (c : Instr) (rest : List Instr),
    (s.pending = c :: rest → step s = exec c { s with pending := rest }) ∧
    (s.pending = [] → step s = .next (s.left (s.elapse 1)))

/-- Reset leaves the block in reset, the wells unpowered and unpaired, no presentation, doorbell, descriptor or command, and no
event waiting; it is a safe state (values the spec gives; the fields' other values are log entry 3). -/
def Obligations.ResetIsACalmSafeState : Prop :=
  State.reset.calm ∧ State.reset.safe ∧ State.reset.tablesRise ∧ State.reset.pending = [] ∧ State.reset.startup.ready = false ∧ State.reset.startup.inReset = true ∧
  (∀ n, State.reset.seenN n = none ∧ State.reset.seenF n = none) ∧
  (∀ p, State.reset.readyN p = false ∧ State.reset.readyF p = false) ∧ (∀ c, State.reset.cached c = none) ∧
  (∀ k, State.reset.counter k = Counter.reset) ∧ State.reset.front.snapSeq = 0#32 ∧
  (∀ m, (State.reset.box m).st = .idle) ∧ State.reset.keeper.staged = none ∧ State.reset.routes.rt.gen = 0#16

/-- An invariant of every step, whatever the command and the state: the sparse tables of the state keep each number once and
in rising order. These are the tables that the statements about counters, groups, mailboxes, presentations, cisterns and
pairs ask to be so. Nothing that a command, a fabric event, a tick of a clock, a power-on or a warm reset does leaves a number
listed twice. -/
def Obligations.EveryStepKeepsTheTablesRising : Prop :=
  ∀ s t : State, s.tablesRise → step s = .next t → t.tablesRise

/-- No command stops the block: from every state each step answers a next state in which no fabric event is left unsettled,
and which waits for exactly the commands behind the front one; so a run of any length goes on, and takes the commands in
the order in which they came. -/
def Obligations.EveryStepAnswersACalmState : Prop :=
  (∀ s : State, ∃ t : State, step s = .next t ∧ t.calm ∧ t.pending = s.pending.tail) ∧
  ∀ (n : Nat) (s : State), (∃ t, Runs n s t) ∧ ∀ t, Runs n s t → t.pending = s.pending.drop n ∧ (0 < n → t.calm)

/-- R139, R140, R37: a host that a page's gate does not admit changes no register of the page, and learns nothing of it: the
answer to its 32-bit write is REFUSED whatever the page's registers hold and whatever value it offers. -/
def Obligations.AnUnadmittedHostChangesNoRegister : Prop :=
  ∀ (s v : State) (dt : Nat) (host : HostId) (addr : BitVec 22) (f view o : Nat),
    s.portOpen dt → s.portEdge dt = v → placeOf (4 * addr.toNat) = .frame f view o → v.frameAdmits f host true = false →
    ∃ t : State, (∀ data, exec (.registerWrite dt host addr false data) s = .next t) ∧ t.front.regs = v.front.regs ∧
      t.front.locks = v.front.locks ∧ (∀ p, t.arm p = v.arm p) ∧ t.gate = v.gate ∧ t.routes = v.routes ∧ t.cores = v.cores ∧
      t.front.response = some { code := .refused, data := 0#64 }

/-! ### The register port (R33 to R73) -/

/-- R34, R36: a 32-bit write to a table register of a global page forms the register's new value by its view under the
register's mask, and the write is answered OK; a write to a register of this kind whose write has no effect of its own
changes nothing else.
R36, R37, R38, R63: what a register write that is not performed leaves. An address outside every frame and window is
answered UNMAPPED; a 64-bit write at an odd word is refused WIDTH; a write that the page gate does not admit is refused
DENIED; a write to a locked register is refused LOCKED. A refusal counts, raises its fabric event and records itself
on the page, and changes no register.
R34, R38, R59, R72, R380, R410: the register writes of the other forms. A write to a read-only register, to a base-only
register through another view, or to an offset that holds no register is answered OK and changes nothing; the fault injector's
control word takes its write-once field once, and refuses a second write of it WRITE_ONCE; a 64-bit write to two ordinary
registers forms both, the lower first; and before READY a write is answered OK and changes nothing, whatever it names (of a store
window's the model's choice, log entry 102).
The edge at which an access passes is the reading of log entry 10. -/
def Obligations.RegisterWritesFollowTheirViews : Prop :=
  (
    ∀ (s v : State) (dt : Nat) (host : HostId) (addr : BitVec 22) (data : DWord) (f view o : Nat) (i : RegInfo),
      s.portOpen dt → s.portEdge dt = v → placeOf (4 * addr.toNat) = .frame f view o → tableReg f o = true →
      regInfo f o = some i → (i.baseOnly = true → view = 0) → v.locked f i.group = false →
      v.frameAdmits f host true = true →
      exec (.registerWrite dt host addr false data) s =
          .next (s.left ((v.storeReg f o (viewed view (v.reg f o) (loWord data) i.mask)).answerUnlessHeld .ok 0#64)) ∧
        (quietReg f o = true →
          exec (.registerWrite dt host addr false data) s =
            .next (s.left ((v.setReg f o (viewed view (v.reg f o) (loWord data) i.mask)).answer .ok 0#64)))) ∧
  (
    ∀ (s v : State) (dt : Nat) (host : HostId) (addr : BitVec 22) (data : DWord),
      s.portOpen dt → s.portEdge dt = v →
      (placeOf (4 * addr.toNat) = .unmapped → ∀ wide,
        exec (.registerWrite dt host addr wide data) s = .next (s.left (v.answer .unmapped 0#64))) ∧
      (∀ f view o, placeOf (4 * addr.toNat) = .frame f view o →
        (addr.toNat % 2 = 1 → exec (.registerWrite dt host addr true data) s =
          .next (s.left (v.refusedAt f rsWidth view o false host))) ∧
        (v.frameAdmits f host true = false →
          exec (.registerWrite dt host addr false data) s =
            .next (s.left (v.refusedAt f rsDenied view o false host))) ∧
        (∀ i, tableReg f o = true → regInfo f o = some i → (i.baseOnly = true → view = 0) → v.frameAdmits f host true = true →
          v.locked f i.group = true →
          exec (.registerWrite dt host addr false data) s =
            .next (s.left (v.refusedAt f rsLocked view o false host))))) ∧
  (
    ∀ (s v : State) (dt : Nat) (host : HostId) (addr : BitVec 22) (data : DWord), s.portEdge dt = v →
      (∀ f view o, placeOf (4 * addr.toNat) = .frame f view o → s.portOpen dt → v.frameAdmits f host true = true →
        (isGuarded f o = false →
          (o < 0x10 ∨ 0x14 ≤ o ∧ o < 0x20 ∨ 0x600 ≤ o ∧ o < 0x800 ∨ 0x400 ≤ o ∧ o < 0x600 ∧ view ≠ 0 ∨
            0x20 ≤ o ∧ (o < 0x400 ∨ 0x800 ≤ o) ∧
              (isCoreFrame f = true ∧ o ≠ 0x50 ∧ o ≠ 0x54 ∧ (view ≠ 0 ∨ o ≠ 0x28 ∧ o ≠ 0x38 ∧ o ≠ 0x48 ∧ o ≠ 0x4C) ∨
               isCoreFrame f = false ∧ f = fBlock ∧ (o ≠ 0x24 ∨ view ≠ 0 ∨ bit (loWord data) 0 = false) ∨
               isCoreFrame f = false ∧ f ≠ fBlock ∧ (f ≠ fTwin ∨ o ≠ 0x38) ∧ (f < fGroup 0 ∨ fPump ≤ f ∨ o < 0x800) ∧
                 ∀ i, regInfo f o = some i → i.baseOnly = true ∧ view ≠ 0)) →
          exec (.registerWrite dt host addr false data) s = .next (s.left (v.answer .ok 0#64))) ∧
        (∀ i w, f = fTwin → o = 0x20 → regInfo f o = some i → (i.baseOnly = true → view = 0) → v.locked f i.group = false →
          viewed view (v.reg f o) (loWord data) i.mask = w →
          ((view = 0 ∨ bit (loWord data) 16 = true) →
            (v.front.injectWritten = true →
              exec (.registerWrite dt host addr false data) s = .next (s.left (v.refusedAt f rsWriteOnce view o false host))) ∧
            (v.front.injectWritten = false → exec (.registerWrite dt host addr false data) s =
              .next (s.left ((State.setReg { v with front.injectWritten := true } f o w).answer .ok 0#64)))) ∧
          (view ≠ 0 → bit (loWord data) 16 = false →
            exec (.registerWrite dt host addr false data) s = .next (s.left ((v.setReg f o w).answer .ok 0#64)))) ∧
        (∀ i j u, quietReg f o = true → quietReg f (o + 4) = true → o % 8 = 0 → regInfo f o = some i → regInfo f (o + 4) = some j →
          (i.baseOnly = true ∨ j.baseOnly = true → view = 0) → v.locked f i.group = false → v.locked f j.group = false →
          v.setReg f o (viewed view (v.reg f o) (loWord data) i.mask) = u →
          exec (.registerWrite dt host addr true data) s =
            .next (s.left ((u.setReg f (o + 4) (viewed view (u.reg f (o + 4)) (hiWord data) j.mask)).answer .ok 0#64)))) ∧
      (∀ u, s.elapse dt = u → u.dead = false → u.accepts = true → u.front.hold = none → u.front.waiting = [] → v.startup.ready = false →
        v.frozen = false → placeOf (4 * addr.toNat) ≠ .unmapped →
        ∀ wide, exec (.registerWrite dt host addr wide data) s = .next (s.left (v.answer .ok 0#64))))

/-- R63: a write to PAGE_LOCK through the base view or SET sets lock bits and clears none; through CLR or TGL it changes
nothing; with LOCK_PAGE set it is refused LOCKED.
R49, R421: the trim registers take their viewed value and the trims in force follow; the slow register takes its
staged value and stays pending until the next SCLK edge. Locked, each refuses.
R64, R380: TWIN_INJECT is refused LOCKED unless INJECT_EN is set; in force it inverts the next signature of the
named wells, or suppresses their frames for 1,280 edges; another mode changes nothing. -/
def Obligations.StagedAndLockedRegistersTakeTheirWrites : Prop :=
  (
    ∀ (s v : State) (dt : Nat) (host : HostId) (frame : BitVec 6) (view : BitVec 2) (value : Word),
      frame.toNat < 0x28 → s.portOpen dt → s.portEdge dt = v → v.frameAdmits frame.toNat host true = true →
      (bit (v.lock frame.toNat) 31 = false → view.toNat ≤ 1 →
        exec (.pageLockWrite dt host frame view value) s =
          .next (s.left (State.answer
            { v with front.locks := ins 0#32 v.front.locks frame.toNat (v.lock frame.toNat ||| value) } .ok 0#64))) ∧
      (bit (v.lock frame.toNat) 31 = false → 2 ≤ view.toNat →
        exec (.pageLockWrite dt host frame view value) s = .next (s.left (v.answer .ok 0#64))) ∧
      (bit (v.lock frame.toNat) 31 = true →
        exec (.pageLockWrite dt host frame view value) s =
          .next (s.left (v.refusedAt frame.toNat rsLocked view.toNat 0x10 false host)))) ∧
  (
    ∀ (s v : State) (dt : Nat) (host : HostId) (second : Bool) (view : BitVec 2) (value : Word) (o : Nat) (mask : Word),
      s.portOpen dt → s.portEdge dt = v → v.sampled.globalAdmits fFuse host.toNat true = true →
      (if second then 0x28 else 0x24) = o → (if second then 0x3F77#32 else 0xFFFFFFFF#32) = mask →
      (v.locked fFuse (some 0) = false → exec (.trimUserWrite dt host second view value) s = .next (s.left
        (((v.setReg fFuse o (viewed view.toNat (v.reg fFuse o) value mask)).trimsChanged v.depth v.lineFilter v.vaultFilter).answerUnlessHeld
          .ok 0#64))) ∧
      (v.locked fFuse (some 0) = true → exec (.trimUserWrite dt host second view value) s =
        .next (s.left (v.refusedAt fFuse rsLocked view.toNat o false host))) ∧
      (∀ w, v.locked fFuse (some 1) = false → viewed view.toNat (v.clock.dcStaged.setWidth 32) value 0xFFFFF#32 = w →
        exec (.slowRegWrite dt host view value) s =
        .next (s.left (State.answer
          { v with clock.dcStaged := w.setWidth 20, clock.slowPend := true, clock.dcAt := some v.clock.edge } .ok 0#64))) ∧
      (v.locked fFuse (some 1) = true → exec (.slowRegWrite dt host view value) s =
        .next (s.left (v.refusedAt fFuse rsLocked view.toNat 0x30 false host)))) ∧
  (
    ∀ (s v : State) (dt : Nat) (host : HostId) (value : Word),
      s.portOpen dt → s.portEdge dt = v → v.sampled.globalAdmits fTwin host.toNat true = true →
      (bit (v.reg fTwin 0x20) 16 = false → exec (.twinInject dt host value) s =
        .next (s.left (v.refusedAt fTwin rsLocked 0 0x38 false host))) ∧
      (bit (v.reg fTwin 0x20) 16 = true → ∃ t, exec (.twinInject dt host value) s = .next (s.left (State.answer t .ok 0#64)) ∧
        (∀ b, (t.well b).invertNext = ((v.well b).invertNext || (decide (bits value 9 8 = 1) && bit value (if b then 1 else 0)))) ∧
        (∀ b, (t.well b).mutedUntil =
          if bits value 9 8 = 2 ∧ bit value (if b then 1 else 0) = true then v.clock.edge + 1280 else (v.well b).mutedUntil) ∧
        (∀ b, { t.well b with invertNext := (v.well b).invertNext, mutedUntil := (v.well b).mutedUntil } = v.well b) ∧
        { t.twin with wellA := v.twin.wellA, wellB := v.twin.wellB } = v.twin ∧ { t with twin := v.twin } = v))

/-- R57, R59: the first write of a guarded pair arms the page's slot and leaves the register; a second write to any
guarded register of the page while the arm is open is refused GUARD_ORDER and closes the arm.
R59: at the 65th ICLK edge after arming, the arm is discarded with GUARD_TIMEOUT; before it the slot stays armed,
and an empty slot stays empty.
R59, R60, R93, R97, R102, R136: a second write of a guarded pair, of CORE_MASK, PRIV_CLASS, ACT_DROP or RULESET_SEL, that is
not the armed value's complement is refused GUARD_MISMATCH, one from another host or at another complement address GUARD_ORDER,
and one while nothing is armed GUARD_ORDER: the arm is closed and no register changes. A write of a guarded register or of a
complement address through another view, and a 64-bit write that touches one, are refused GUARD_FORM and close the arm.
Which of two reasons is recorded is the model's choice, log entry 87. -/
def Obligations.GuardedPairsArmTimeOutAndRefuse : Prop :=
  (
    ∀ (s v : State) (dt : Nat) (host : HostId) (reg : GReg) (value : Word) (f o : Nat),
      guardPlace reg = (f, o) → s.portOpen dt → s.portEdge dt = v → v.frameAdmits f host true = true →
      (v.arm f = none →
        exec (.guardArm dt host reg value) s =
          .next (s.left ((v.setArm f (some { value := value, host := host, edge := v.clock.edge, offset := o })).answer .ok 0#64))) ∧
      (∀ a, v.armedWith f a →
        exec (.guardArm dt host reg value) s = .next (s.left ((v.setArm f none).refusedAt f rsOrder 0 o false host)))) ∧
  (
    ∀ (s u : State) (dt : Nat) (page : GPage),
      s.elapse dt = u → u.startup.inReset = false →
      (∀ a, u.arm (guardFrame page) = some a → a.edge + 65 * Config.iclk ≤ u.clock.edge →
        exec (.guardTimeout dt page) s =
          .next (s.left ((u.setArm (guardFrame page) none).recordPage (guardFrame page) rsTimeout
            (faultWord rsTimeout 0 a.offset false a.host)))) ∧
      ((u.arm (guardFrame page) = none ∨ ∃ a, u.armedWith (guardFrame page) a) →
        exec (.guardTimeout dt page) s = .next (s.left u))) ∧
  (
    ∀ (s v : State) (dt : Nat) (host : HostId), s.portEdge dt = v → s.portOpen dt →
      (∀ (core : BitVec 8) (page : BitVec 6) (hi : Bool) (complement : Word) (x : Instr) (f o : Nat), v.frameAdmits f host true = true →
        (f = fCore core.toNat ∧
            (x = .coreMaskCommit dt host core complement ∧ o = 0x40 ∨
              x = .privClassCommit dt host core hi complement ∧ o = (if hi then 0x64 else 0x60) ∨
              x = .actDropN dt host core complement ∧ o = 0x70 ∨ x = .actDropF dt host core complement ∧ o = 0x70) ∨
          f = fHost page.toNat ∧ x = .rulesetSwap dt host page complement ∧ o = 0x20) →
        (∀ a, v.armedWith f a → a.host = host → a.offset = o → complement ≠ ~~~a.value →
          exec x s = .next (s.left ((v.setArm f none).refusedAt f rsMismatch 0 (o + 0x800) false host))) ∧
        (∀ a, v.armedWith f a → (a.host ≠ host ∨ a.offset ≠ o) →
          exec x s = .next (s.left ((v.setArm f none).refusedAt f rsOrder 0 (o + 0x800) false host))) ∧
        (v.arm f = none → exec x s = .next (s.left (v.refusedAt f rsOrder 0 (o + 0x800) false host)))) ∧
      (∀ (addr : BitVec 22) (data : DWord) (f view o : Nat), placeOf (4 * addr.toNat) = .frame f view o → v.frameAdmits f host true = true →
        (isGuarded f o = true → view ≠ 0 → exec (.registerWrite dt host addr false data) s =
          .next (s.left (((v.expireArm f).setArm f none).refusedAt f rsForm view o false host))) ∧
        (o % 8 = 0 → (isGuarded f o = true ∨ isGuarded f (o + 4) = true) → exec (.registerWrite dt host addr true data) s =
          .next (s.left (((v.expireArm f).setArm f none).refusedAt f rsForm view o false host)))))

/-- R57, R93, R97, R101, R102: the complement of the armed value, from the arming host and within 64 ICLK, commits it.
CORE_MASK and the halves of PRIV_CLASS take the value and every presentation that the change has made untenable is
withdrawn; ACT_DROP drops the slots that the value names.
R136, R143: a commit of RULESET_SEL counts a swap on the host's page and the gate's; where it changes the host's
selection, the selection takes the value, its edge is recorded, doorbells not settled that were accepted under the host's
previous selection are marked so, and every repeat cache is emptied. -/
def Obligations.CommitsTakeTheArmedValue : Prop :=
  (
    ∀ (s v : State) (dt : Nat) (host : HostId) (core : BitVec 8) (a : Arm) (hi : Bool) (w : State),
      s.portOpen dt → s.portEdge dt = v → v.frameAdmits (fCore core.toNat) host true = true →
      v.armedWith (fCore core.toNat) a → a.host = host → v.setArm (fCore core.toNat) none = w →
      (a.offset = 0x40 →
        exec (.coreMaskCommit dt host core (~~~a.value)) s =
          .next (s.left ((w.modCore core.toNat fun c => { c with mask := a.value.setWidth 4 }).recheck.answer .ok 0#64))) ∧
      (a.offset = (if hi then 0x64 else 0x60) →
        exec (.privClassCommit dt host core hi (~~~a.value)) s =
          .next (s.left ((w.modCore core.toNat fun c =>
            { c with privClass := if hi then joinWords (loWord c.privClass) a.value
                                  else joinWords a.value (hiWord c.privClass) }).recheck.answer .ok 0#64))) ∧
      (a.offset = 0x70 → bit a.value 0 = true → bit a.value 1 = false →
        exec (.actDropN dt host core (~~~a.value)) s = .next (s.left ((w.drop core.toNat false).answer .ok 0#64))) ∧
      (a.offset = 0x70 → bit a.value 0 = false → bit a.value 1 = true →
        exec (.actDropF dt host core (~~~a.value)) s = .next (s.left ((w.drop core.toNat true).answer .ok 0#64))) ∧
      (a.offset = 0x70 → bit a.value 0 = true → bit a.value 1 = true →
        exec (.actDropF dt host core (~~~a.value)) s =
          .next (s.left (((w.drop core.toNat false).drop core.toNat true).answer .ok 0#64)))) ∧
  (
    ∀ (s v w : State) (dt : Nat) (host : HostId) (page : BitVec 6) (a : Arm),
      s.portOpen dt → s.portEdge dt = v → v.frameAdmits (fHost page.toNat) host true = true →
      v.armedWith (fHost page.toNat) a → a.host = host → a.offset = 0x20 →
      ((v.setArm (fHost page.toNat) none).count (fHost page.toNat) 5).count fGate 5 = w →
      (bit v.gate.setB page.toNat = bit a.value 0 →
        exec (.rulesetSwap dt host page (~~~a.value)) s = .next (s.left (w.answer .ok 0#64))) ∧
      (bit v.gate.setB page.toNat ≠ bit a.value 0 →
        exec (.rulesetSwap dt host page (~~~a.value)) s =
          .next (s.left (((State.markOld
            { w with gate.setB := setBit w.gate.setB page.toNat (bit a.value 0),
                     gate.swapAt := ins none w.gate.swapAt page.toNat (some w.clock.dp) } page.toNat).emptyCaches).answer .ok 0#64))))

/-- R61: the registers that a complement pair guards read their committed value, the arm of the page notwithstanding, and
their complement addresses its bitwise complement: RULESET_SEL the half in force of its host, CORE_MASK and the two words of
PRIV_CLASS those of their core, ACT_DROP, whose value a commit consumes, zero. -/
def Obligations.GuardedRegistersReadTheirCommittedValue : Prop :=
  ∀ (s : State) (f o : Nat) (m : Word), rwgMask f o = some m →
    s.readReg f (o + 0x800) = ~~~(s.readReg f o) ∧
    (∀ (p : Nat) (a : Option Arm), (s.setArm p a).readReg f o = s.readReg f o ∧
      (s.setArm p a).readReg f (o + 0x800) = s.readReg f (o + 0x800)) ∧
    (∀ n, n < 64 → f = 0x40 + n → s.readReg f o = if s.gate.setB.getLsbD n then 1#32 else 0#32) ∧
    (∀ n, n < 256 → f = 0x80 + n →
      (o = 0x40 → s.readReg f o = (s.core n).mask.setWidth 32) ∧
      (o = 0x60 → s.readReg f o = (s.core n).privClass.setWidth 32) ∧
      (o = 0x64 → s.readReg f o = ((s.core n).privClass >>> 32).setWidth 32) ∧
      (o = 0x70 → s.readReg f o = 0#32))

/-- R52, R53: a write to either word of a counter, or to the pair, is formed in three steps: the written bits replace those of
the count from before the edge and the other word stays; the edge's increments are added to the full 48 bits; OVF is set, and
the wrap noted for FEV_COUNTER_OVF, where that addition wraps, and clear otherwise.
R51, R54: a read of a counter's low word returns the low bits from before the edge and loads the latch with the high bits
and OVF from before it; a 64-bit read of the pair returns the 48 bits with OVF at bit 63. -/
def Obligations.CountersReadAndWriteTheirPair : Prop :=
  (
    ∀ (s v : State) (dt : Nat) (host : HostId) (frame : BitVec 9) (idx : BitVec 6) (data : DWord) (k n : Nat) (old : BitVec 48),
      (frame.toNat < 0x28 ∨ 0x40 ≤ frame.toNat ∧ frame.toNat < 0x180) → counterExists frame.toNat idx.toNat = true →
      s.portOpen dt → s.portEdge dt = v → v.frameAdmits frame.toNat host true = true →
      ckey frame.toNat idx.toNat = k → (v.sampled.counter k).count = old → ((v.counter k).count - old).toNat = n →
      exec (.counterWrite dt host frame idx false false data) s =
        .next (s.left ((v.formedWith k (old.extractLsb' 32 16 ++ data.extractLsb' 0 32) n).answer .ok 0#64)) ∧
      exec (.counterWrite dt host frame idx true false data) s =
        .next (s.left ((v.formedWith k (data.extractLsb' 0 16 ++ old.extractLsb' 0 32) n).answer .ok 0#64)) ∧
      exec (.counterWrite dt host frame idx false true data) s =
        .next (s.left ((v.formedWith k (data.extractLsb' 0 48) n).answer .ok 0#64))) ∧
  (
    ∀ (s v : State) (dt : Nat) (host : HostId) (frame : BitVec 9) (idx : BitVec 6) (view : BitVec 2) (k : Nat) (c : Counter)
      (t : State),
      (frame.toNat < 0x28 ∨ 0x40 ≤ frame.toNat ∧ frame.toNat < 0x180) → idx.toNat < ncnt frame.toNat →
      s.portOpen dt → s.portEdge dt = v → v.frameAdmits frame.toNat host false = true →
      ckey frame.toNat idx.toNat = k → v.sampled.counter k = c →
      v.setCounter k { v.counter k with latchHi := c.count.extractLsb' 32 16, latchOvf := c.ovf } = t →
      exec (.counterLoRead dt host frame idx view false) s =
        .next (s.left (t.answer .ok ((c.count.extractLsb' 0 32).setWidth 64))) ∧
      (rising 0 v.front.counters = true →
        exec (.counterLoRead dt host frame idx view true) s =
          .next (s.left (t.answer .ok ((BitVec.ofBool c.ovf ++ 0#15) ++ c.count)))))

/-- R55, R56: writing 1 to SNAP_REQ copies every live counter with its OVF, as they stand before the edge, into its holding pair
and advances SNAP_SEQ; a second request of the edge makes no second snapshot; writing 0 to it changes nothing. -/
def Obligations.SnapshotCopiesEveryCounter : Prop :=
  ∀ (s v : State) (dt : Nat) (host : HostId) (value : Word),
    s.portOpen dt → s.portEdge dt = v → v.frameAdmits fBlock host true = true →
    (bit value 0 = true → v.front.snapAt ≠ some v.clock.edge → rising 0 v.front.counters = true →
      ∃ t, exec (.snapReq dt host value) s = .next (s.left t) ∧
        (∀ k, t.counter k =
          { v.counter k with heldCount := (v.sampled.counter k).count, heldOvf := (v.sampled.counter k).ovf }) ∧
        t.front.snapSeq = v.front.snapSeq + 1 ∧ t.front.response = some { code := .ok, data := 0#64 } ∧
        { t.front with counters := v.front.counters, snapSeq := v.front.snapSeq, snapAt := v.front.snapAt,
                       response := v.front.response } = v.front ∧
        { t with front := v.front } = v) ∧
    (v.front.snapAt = some v.clock.edge → exec (.snapReq dt host value) s = .next (s.left (v.answer .ok 0#64))) ∧
    (bit value 0 = false → exec (.snapReq dt host value) s = .next (s.left (v.answer .ok 0#64)))

/-- R66, R69: a read of DB_FENCE holds the ordering point and covers the doorbells of its port accepted before its edge.
It is answered with their count once all have settled, and with TIMEOUT and the count after 65,536 FCLK; a 64-bit read returns
RCACHE_CTRL above it, as it stood before the read's edge.
R72, R140, R149, R170: a read of a store window holds the ordering point until its bank grant; vault routes are read
from flops at the access's own edge. Its answer is the entry at the grant, or
UNCORRECTABLE where the page can not be used or the lead finds it uncorrectable (R390). Every write to a window
is refused WINDOW_WRITE, each half of a 64-bit one by itself.
R109, R216, R229: a read of the fast-table entry that FT_SEL names returns the voted word to a host that is H0 or the
entry's owner. A copy that disagrees is counted, raises FEV_FASTTABLE_VOTE and is recorded, the vote standing for the
self-check for 1,024 edges (R361), and the entry waits for the write-back of the next edge; an entry that waits for it is not counted again. Another host is refused DENIED.
Commands of one edge act in the order of the queue, the model's choice of log entry 4. That the gate of a window read is taken at the edge at which it passes is a reading, log entry 53. The verdict of a page read falls at its row's edge, a reading, log entry 95. -/
def Obligations.FencesAndStoreReadsWaitOrVote : Prop :=
  (
    ∀ (s u v : State) (dt : Nat) (host : HostId) (port : BitVec 4) (view : BitVec 2) (wide : Bool),
      (s.portOpen dt → s.portEdge dt = v → v.frameAdmits (fPort port.toNat) host false = true →
        exec (.dbFenceRead dt host port ⟨view, wide⟩) s = .next (s.left (v.heldWith
          (.fence host port.toNat (v.port port.toNat).nextId v.clock.dp
            (sat 0xFFFF ((v.sampled.port port.toNat).unsettled.filter fun x => decide (x.acc < v.clock.dp)).length)
            (if wide then v.sampled.reg (fPort port.toNat) 0x34 else 0#32))))) ∧
      (∀ h p bound since waited high, s.elapse dt = u → u.startup.inReset = false → u.frozen = false →
        u.front.hold = some (.fence h p bound since waited high) → waited ≤ 0xFFFF →
        (u.fenceLeft p bound since = false →
          exec (.dbFenceAnswer dt) s = .next (s.left (u.endHold.answer .ok (high ++ BitVec.ofNat 32 waited)))) ∧
        (u.fenceLeft p bound since = true →
          exec (.dbFenceAnswer dt) s = .next (s.left u)) ∧
        (u.fenceLeft p bound since = true → since + 65536 ≤ u.clock.dp →
          exec (.dbFenceTimeout dt) s =
            .next (s.left (u.endHold.answer .ok (high ++ BitVec.ofNat 32 (0x80000000 + waited))))))) ∧
  (
    ∀ (s u v : State) (dt : Nat) (host : HostId) (word : BitVec 18) (wide : Bool) (data : DWord) (page : PageRead) (o : Nat),
      (s.portOpen dt → s.portEdge dt = v → (wide = true → word.toNat % 2 = 0) → 4 * word.toNat % 4096 = o →
        ((host = 0#6 ∨ rgHost (rgHalf (v.sampled.rightsEntry (word.toNat / 4)) false) = host.toNat) →
          exec (.windowRead dt host true word wide) s =
            .next (s.left (v.heldWith (.window true (word.toNat / 4) (word.toNat % 4) wide)))) ∧
        ((host = 0#6 ∨ rtOwner (v.sampled.route (word.toNat / 2)) = host.toNat) → 72 ≤ word.toNat / 2 →
          exec (.windowRead dt host false word wide) s =
            .next (s.left (v.heldWith (.window false (word.toNat / 2) (word.toNat % 2) wide)))) ∧
        ((host = 0#6 ∨ rtOwner (v.sampled.route (word.toNat / 2)) = host.toNat) → word.toNat / 2 < 72 →
          exec (.windowRead dt host false word wide) s =
            .next (s.left (v.answer .ok (entryData ((v.sampled.route (word.toNat / 2)).setWidth 128) (word.toNat % 2) wide)))) ∧
        ∀ rights,
          exec (.windowWrite dt host rights word false data) s =
            .next (s.left (v.refusedAt fBlock rsWindow 0 o false host)) ∧
          (wide = true → exec (.windowWrite dt host rights word true data) s =
            .next (s.left ((v.recordPage fBlock rsWindow (faultWord rsWindow 0 o false host)).refusedAt fBlock rsWindow 0 (o + 4)
              false host)))) ∧
      (∀ rights idx w wide m b (t : State) (r : PageResult × State), s.elapse dt = u → u.startup.inReset = false → u.frozen = false →
        u.front.hold = some (.window rights idx w wide) → u.windowBank = some (m, b) → u.maintWins 2 m b = true →
        u.chargeMaint 2 m b = t →
        State.readPage { t with sluice.grants := ins none t.sluice.grants (bankArb rights b) (some t.clock.dp) }
          m ((u.hash rights).physical (pageOf rights idx)) 2 false page = r →
        (r.1.usable = true → r.1.leadError = false → exec (.windowReadAnswer dt page) s =
          .next (s.left (r.2.endHold.answer .ok (entryData (u.stored rights idx) w wide)))) ∧
        (r.1.usable = false ∨ r.1.leadError = true → exec (.windowReadAnswer dt page) s =
          .next (s.left (r.2.endHold.answer .uncorrectable 0#64))))) ∧
  (
    ∀ (s v : State) (dt : Nat) (host : HostId) (view : BitVec 2) (i : Nat) (d : Word),
      s.portOpen dt → s.portEdge dt = v → v.sampled.globalAdmits fFast host.toNat false = true →
      bits (v.sampled.reg fFast 0x24) 11 0 = i → v.sampled.fast i = d →
      ((host = 0#6 ∨ ftOwner d = host.toNat) → ((v.ft i).odd = none ∨ i ∈ v.routes.ftBack) →
        exec (.ftRead dt host view) s = .next (s.left (v.answer .ok (d.setWidth 64)))) ∧
      (∀ copy w, (host = 0#6 ∨ ftOwner d = host.toNat) → (v.ft i).odd = some copy → i ∉ v.routes.ftBack →
        v.event fFast 7 139 = w →
        exec (.ftRead dt host view) s = .next (s.left (State.answer
          { w with routes.ftVoteLast := 0x80000000#32 ||| at32 28 copy ||| at32 0 i,
                   routes.ftBack := w.routes.ftBack ++ [i],
                   twin.votes := (v.clock.edge :: v.twin.votes).filter fun e => decide (v.clock.edge ≤ e + 1024) }
          .ok (d.setWidth 64)))) ∧
      (host ≠ 0#6 → ftOwner d ≠ host.toNat → exec (.ftRead dt host view) s =
        .next (s.left (v.refusedAt fFast rsDenied view.toNat 0x28 true host))))

/-- R71, R289, R390: a write to an IDLE or DONE mailbox writes the mailbox's bytes; one to a QUEUED or RUNNING mailbox, or
beyond the mailbox's 4 KiB, writes nothing, the first of these counted; one to a poisoned page is refused
UNCORRECTABLE, and one to any other is a read-modify-write of its page, refused too where the page turns out uncorrectable.
Another host than the mailbox's own is refused DENIED. The state is the one from before the edge, and an accepted write asks for
the mailbox memory (R453).
R290: a write that contains word 1 of an IDLE or DONE mailbox, through pages that read clean, submits the command:
the mailbox is QUEUED with its opcode and sequence number, its page is written, and the command waits with the header,
payload and PRESENCE, as its synchroniser shows it, sampled at that edge. -/
def Obligations.MailboxesAreWrittenAndSubmitted : Prop :=
  (
    ∀ (s v : State) (dt : Nat) (host : HostId) (mb : BitVec 6) (word : BitVec 12) (data : DWord) (m : Mailbox) (o : Nat),
      s.portOpen dt → s.portEdge dt = v → v.sampled.box mb.toNat = m → 4 * word.toNat = o → o ≠ 4 →
      (host ≠ mb → exec (.mailboxWrite dt host mb word false data) s =
        .next (s.left (v.refusedAt fBlock rsDenied 0 (o % 4096) false host))) ∧
      (host = mb → 0x1000 ≤ o → exec (.mailboxWrite dt host mb word false data) s = .next (s.left (v.answer .ok 0#64))) ∧
      (host = mb → o < 0x1000 → (m.st = .queued ∨ m.st = .running) →
        exec (.mailboxWrite dt host mb word false data) s = .next (s.left ((v.count fKeeper 8).answer .ok 0#64))) ∧
      (host = mb → o < 0x1000 → (m.st = .idle ∨ m.st = .done) → v.poisoned 6 (boxPage mb.toNat o) = true →
        exec (.mailboxWrite dt host mb word false data) s =
          .next (s.left ((v.count fIntegrity 8).refusedAt fBlock rsUncorr 0 (o % 4096) false host))) ∧
      (∀ (r : PageResult × State) (t : State), host = mb → o < 0x1000 → (m.st = .idle ∨ m.st = .done) →
        v.readPage 6 (boxPage mb.toNat o) 2 false cleanRead = r →
        (r.2.askUnit 6 0 r.1.correction).wroteWhole 6 (boxPage mb.toNat o) = t →
        (r.1.usable = true → exec (.mailboxWrite dt host mb word false data) s =
          .next (s.left ((t.setBox mb.toNat ((t.box mb.toNat).setWord o (loWord data))).answer .ok 0#64))) ∧
        (r.1.usable = false → exec (.mailboxWrite dt host mb word false data) s =
          .next (s.left (r.2.refusedAt fBlock rsUncorr 0 (o % 4096) false host))))) ∧
  (
    ∀ (s v : State) (dt : Nat) (mb : BitVec 6) (wide : Bool) (data : DWord) (presence : Presence) (m : Mailbox) (w : Word)
      (len : Nat) (p : Bool) (t1 : State),
      s.portOpen dt → s.portEdge dt = v → v.presenceSeen presence.level ((s.elapse dt).clock.edge - presence.ago) = p → ((v.sampled.box mb.toNat).st = .idle ∨ (v.sampled.box mb.toNat).st = .done) →
      (if wide then (v.box mb.toNat).setWord 0 (loWord data) else v.box mb.toNat) = m →
      (if wide then hiWord data else loWord data) = w →
      v.pagesSound → v.keeper.held = false → (m.word 0).setWidth 8 ≠ 0x61#8 → bits (m.word 0) 31 16 = len →
      rising 0 v.keeper.boxes = true → rising 0 v.keeper.submitted = true → rising 0 m.bytes = true →
      (if wide then v.wroteWhole 6 (boxPage mb.toNat 0) else v).wroteWhole 6 (boxPage mb.toNat 4) = t1 →
      ∃ (t : State) (c : Cmd),
        exec (.mailboxSubmit dt mb mb wide data presence cleanRead) s = .next (s.left (t.answer .ok 0#64)) ∧
        (t.box mb.toNat).st = .queued ∧ (t.box mb.toNat).opcode = (m.word 0).setWidth 8 ∧
        (t.box mb.toNat).seq = w.setWidth 16 ∧ (t.box mb.toNat).word 4 = w ∧
        look none t.keeper.submitted mb.toNat = some c ∧
        c.host = mb.toNat ∧ c.opcode = (m.word 0).setWidth 8 ∧ c.flags = (m.word 0 >>> 8).setWidth 8 ∧ c.len = len ∧
        c.seq = w.setWidth 16 ∧ c.presence = p ∧ c.unreadable = false ∧
        c.payload = ((List.range (min len 4088)).map fun i => look 0#8 m.bytes (8 + i)) ∧
        (∀ n, n ≠ mb.toNat → t.box n = v.box n ∧ look none t.keeper.submitted n = look none v.keeper.submitted n) ∧
        { t.keeper with boxes := v.keeper.boxes, submitted := v.keeper.submitted } = v.keeper ∧
        t.levels = { v.levels with presence := p } ∧ t.twin = t1.twin ∧ { t.sluice with units := v.sluice.units } = v.sluice ∧
        { t with keeper := v.keeper, levels := v.levels, sluice := v.sluice, twin := v.twin } = v)

/-- R79, R80, R94, R99, R390: a base-view read of an acknowledge register takes the presentation that its slot held
before this edge, and answers its INTID; an empty slot answers NONE and is counted. An uncorrectable reservoir page
withdraws the presentation instead, and one uncorrectable in the lead alone is answered UNCORRECTABLE. A 64-bit read
returns the presented register in its upper half, as it stood before the edge. A read through another view acknowledges
nothing.
That the INTIDs below 4,096 stand in no page is a reading, log entry 14. -/
def Obligations.AcknowledgeTakesThePresentation : Prop :=
  ∀ (s v : State) (dt : Nat) (host : HostId) (core : BitVec 8) (view : BitVec 2) (page : PageRead) (n : Nat),
    s.portOpen dt → s.portEdge dt = v → core.toNat = n → v.sampled.coreAdmits n host.toNat = true →
    (view.toNat = 0 → v.seenN n = none → exec (.ackN dt host core ⟨view, false⟩ page) s =
      .next (s.left ((v.count (fCore n) 5).answer .ok 0x80000000#64))) ∧
    (view.toNat = 0 → v.seenF n = none → exec (.ackF dt host core ⟨view, false⟩ page) s =
      .next (s.left ((v.count (fCore n) 5).answer .ok 0x80000000#64))) ∧
    (∀ p, view.toNat = 0 → v.seenN n = some p → (p.intid < 4096 ∨ 131072 ≤ p.intid) →
      exec (.ackN dt host core ⟨view, false⟩ page) s =
        .next (s.left ((v.take n false p).answer .ok ((slotWord (some p)).setWidth 64)))) ∧
    (∀ p, view.toNat = 0 → v.seenF n = some p → (p.intid < 4096 ∨ 131072 ≤ p.intid) →
      exec (.ackF dt host core ⟨view, false⟩ page) s =
        .next (s.left ((v.take n true p).answer .ok ((slotWord (some p)).setWidth 64)))) ∧
    (∀ p (r : PageResult × State), view.toNat = 0 → v.seenN n = some p → 4096 ≤ p.intid → p.intid < 131072 →
      v.readPage 2 (reservoirPage p.intid) 2 false page = r →
      exec (.ackN dt host core ⟨view, false⟩ page) s = .next (s.left
        (if r.1.usable then
          (if r.1.leadError then (r.2.take n false p).answerUnlessHeld .uncorrectable 0#64
            else (r.2.take n false p).answerUnlessHeld .ok ((slotWord (some p)).setWidth 64))
          else (r.2.withdrawN n).answerUnlessHeld .uncorrectable 0#64))) ∧
    (view.toNat = 0 → v.before ≠ none → v.seenN n = none → exec (.ackN dt host core ⟨view, true⟩ page) s = .next (s.left
      ((v.count (fCore n) 5).answer .ok (joinWords 0x80000000#32 (slotWord (v.sampled.seenN n)))))) ∧
    (∀ p, view.toNat = 0 → v.before ≠ none → v.seenF n = some p → (p.intid < 4096 ∨ 131072 ≤ p.intid) →
      exec (.ackF dt host core ⟨view, true⟩ page) s = .next (s.left
        ((v.take n true p).answer .ok (joinWords (slotWord (some p)) (slotWord (v.sampled.seenF n)))))) ∧
    (view.toNat ≠ 0 →
      exec (.ackN dt host core ⟨view, false⟩ page) s =
        .next (s.left (v.answer .ok ((slotWord (v.sampled.seenN n)).setWidth 64))) ∧
      exec (.ackF dt host core ⟨view, false⟩ page) s =
        .next (s.left (v.answer .ok ((slotWord (v.sampled.seenF n)).setWidth 64))))

/-- R95, R100: a write of the active INTID to EOI_N or EOI_F empties the slot, takes the INTID out of the active state and
counts the completion on the core's page and the reservoir's; any other value changes no state and counts an event. -/
def Obligations.EndOfInterruptReleasesTheActiveInterrupt : Prop :=
  ∀ (s v : State) (dt : Nat) (host : HostId) (core : BitVec 8) (value : Word) (page : PageRead) (n : Nat) (fast : Bool)
    (x : Instr),
    s.portOpen dt → s.portEdge dt = v → core.toNat = n → v.sampled.coreAdmits n host.toNat = true →
    x = (if fast then .eoiF dt host core value page else .eoiN dt host core value page) →
    ((∀ a, v.act n fast = some a → intidOf a.intid ≠ bits value 16 0) →
      exec x s = .next (s.left ((v.event (fCore n) 7 132).answer .ok 0#64))) ∧
    (∀ a, v.act n fast = some a → intidOf a.intid = bits value 16 0 → (a.intid < 4096 ∨ 131072 ≤ a.intid) →
      exec x s = .next (s.left
        ((((((v.freeSlot n fast).deactivate a.intid).updateInt a.intid (coreUnit n)).count
          (fCore n) 6).count fReservoir 6).answer .ok 0#64))) ∧
    (∀ a (r : PageResult × State), v.act n fast = some a → intidOf a.intid = bits value 16 0 → 4096 ≤ a.intid →
      a.intid < 131072 → v.readPage 2 (reservoirPage a.intid) 4 false page = r →
      exec x s = .next (s.left
        ((((r.2.release n fast a r.1.usable).count (fCore n) 6).count fReservoir 6).answerUnlessHeld .ok 0#64)))

/-- R86: a software-generated interrupt sets the named private INTID of the target core, counted as a software set and on
the sending core's page; a host that the target core's page does not admit is refused DENIED. -/
def Obligations.SgiSetsThePrivateInterrupt : Prop :=
  ∀ (s v : State) (dt : Nat) (host : HostId) (core : BitVec 8) (value : Word),
    s.portOpen dt → s.portEdge dt = v → v.sampled.coreAdmits core.toNat host.toNat = true →
    (v.sampled.coreAdmits (bits value 23 16) host.toNat = true → exec (.sgiSend dt host core value) s =
      .next (s.left ((((v.count fReservoir 4).pend (privKey (bits value 23 16) (bits value 3 0))
        (.software v.clock.edge)).count (fCore core.toNat) 8).answer .ok 0#64))) ∧
    (v.sampled.coreAdmits (bits value 23 16) host.toNat = false → exec (.sgiSend dt host core value) s =
      .next (s.left (v.refusedAt (fCore core.toNat) rsDenied 0 0x48 false host)))

/-- R87, R88, R96, R457: PEND_SET sets a private INTID of its page's core, or a shared INTID whose owner the host is: a
direct route's INTID is set, an enabled cistern route makes a software record in its slice's local queue or, with no
place there, holds the ordering point, and a disabled route makes a spillway record. The route of an INTID of the fast table is
read with its vote (R216).
When the record that waits is placed is a reading, log entry 38. -/
def Obligations.PendSetFollowsTheRoute : Prop :=
  ∀ (s v : State) (dt : Nat) (host : HostId) (core : BitVec 8) (value : Word) (page : PageRead) (x : Nat)
    (u : State),
    s.portOpen dt → s.portEdge dt = v → v.sampled.coreAdmits core.toNat host.toNat = true → bits value 16 0 = x →
    v.ftRead x = u →
    (x < 64 → exec (.pendSet dt host core value page) s =
      .next (s.left (((v.count fReservoir 4).pend (privKey core.toNat x) (.software v.clock.edge)).answer .ok 0#64))) ∧
    (64 ≤ x → v.sampled.ownerAdmits x host.toNat = false → exec (.pendSet dt host core value page) s =
      .next (s.left (u.refusedAt (fCore core.toNat) rsDenied 0 0x4C false host))) ∧
    (64 ≤ x → v.sampled.ownerAdmits x host.toNat = true →
      (rtEnable (v.sampled.route x) = false → exec (.pendSet dt host core value page) s =
        .next (s.left ((u.spillRec (madeRec x 9 host.toNat)).answer .ok 0#64))) ∧
      (rtEnable (v.sampled.route x) = true → rtMode (v.sampled.route x) = true → u.localRoom (rtCistern (v.sampled.route x)) = true →
        exec (.pendSet dt host core value page) s =
          .next (s.left ((u.pushLocal (rtCistern (v.sampled.route x)) (madeRec x 0x0C host.toNat)).answer .ok 0#64))) ∧
      (rtEnable (v.sampled.route x) = true → rtMode (v.sampled.route x) = true → u.localRoom (rtCistern (v.sampled.route x)) = false →
        exec (.pendSet dt host core value page) s = .next (s.left (u.heldWith (.pendSet host x (rtCistern (v.sampled.route x)) .ok)))) ∧
      (rtEnable (v.sampled.route x) = true → rtMode (v.sampled.route x) = false → x < 4096 →
        exec (.pendSet dt host core value page) s =
          .next (s.left (((u.count fReservoir 4).pend x (.software v.clock.edge)).answer .ok 0#64))) ∧
      (∀ r : PageResult × State, rtEnable (v.sampled.route x) = true → rtMode (v.sampled.route x) = false → 4096 ≤ x →
        v.readPage 2 (reservoirPage x) 4 false page = r → exec (.pendSet dt host core value page) s =
          .next (s.left ((if r.1.usable then (r.2.count fReservoir 4).pend x (.software v.clock.edge)
            else r.2.spillRec (madeRec x 6 host.toNat)).answerUnlessHeld .ok 0#64))))

/-- R46, R253: a write to SPILL_CTRL takes the register's new value, clears SPILL_TOTAL and ends SPILL_DEAD, as both stood
before the edge, so that an append of the edge itself counts from the cleared value; a write to
SPILL_CONSUMED takes its value, and one that would leave more than 2^L records unconsumed leaves exactly 2^L and is
counted. A locked SPILL_CTRL refuses.
R181, R190, R204, R209: GRP_CFG writes a group's weight and owner, a weight of 0 clearing its live state; GRP_HOLD
writes its interval, a running hold ending no later than the new interval from this edge. A locked lock group
refuses.
That a write through any view restarts the ring is a reading, log entry 52. -/
def Obligations.PumpAndGroupRegistersActOnTheirUnits : Prop :=
  (
    ∀ (s v w : State) (dt : Nat) (host : HostId) (view : BitVec 2) (value : Word),
      s.portOpen dt → s.portEdge dt = v → v.sampled.globalAdmits fPump host.toNat true = true →
      (v.locked fPump (some 1) = false →
        v.setReg fPump 0x34 (viewed view.toNat (v.reg fPump 0x34) value 0x9FF1FFFF#32) = w →
        exec (.spillCtrlWrite dt host view value) s =
          .next (s.left (State.answer
            { w with pump.spill.total := v.pump.spill.total - v.sampled.pump.spill.total,
                     pump.spill.dead := v.pump.spill.dead && !v.sampled.pump.spill.dead } .ok 0#64))) ∧
      (v.locked fPump (some 1) = true → exec (.spillCtrlWrite dt host view value) s =
        .next (s.left (v.refusedAt fPump rsLocked view.toNat 0x34 false host))) ∧
      (v.setReg fPump 0x38 (viewed view.toNat (v.reg fPump 0x38) value 0xFFFFFFFF#32) = w →
        (w.spillFill ≤ 2 ^ w.spillLog →
          exec (.spillConsumedWrite dt host view value) s = .next (s.left (w.answer .ok 0#64))) ∧
        (2 ^ w.spillLog < w.spillFill →
          exec (.spillConsumedWrite dt host view value) s = .next (s.left
            (((w.setReg fPump 0x38 (w.pump.spill.total - BitVec.ofNat 32 (2 ^ w.spillLog))).count fPump 12).answer .ok 0#64))))) ∧
  (
    ∀ (s v : State) (dt : Nat) (host : HostId) (group : BitVec 10) (view : BitVec 2) (value : Word) (g f : Nat),
      group.toNat = g → fGroup (g / 128) = f → s.portOpen dt → s.portEdge dt = v → v.sampled.globalAdmits f host.toNat true = true →
      (∀ w : Word, v.locked f (some 0) = false → viewed view.toNat (v.grpCfg g) value 0x3FFF#32 = w →
        (bits w 7 0 ≠ 0 → exec (.grpCfgWrite dt host group view value) s = .next (s.left
          (((v.updatePage 3 0 (g / 4) 2).modGroup g fun x => { x with weight := w.setWidth 8, owner := BitVec.ofNat 6 (bits w 13 8) }).answer .ok 0#64))) ∧
        (bits w 7 0 = 0 → exec (.grpCfgWrite dt host group view value) s = .next (s.left
          (((v.updatePage 3 0 (g / 4) 2).modGroup g fun x => { x with weight := 0#8, owner := BitVec.ofNat 6 (bits w 13 8), credit := 0, age := 0, wait := 0, snap := none }).answer
            .ok 0#64)))) ∧
      (v.locked f (some 0) = true → exec (.grpCfgWrite dt host group view value) s = .next (s.left
        (v.refusedAt f rsLocked view.toNat (0x800 + 16 * (g % 128)) false host))) ∧
      (∀ n : Nat, v.locked f (some 1) = false → bits (viewed view.toNat (v.grpHold g) value 0xFFFF#32) 15 0 = n →
        ((v.group g).heldAt v.clock.dp = false → exec (.grpHoldWrite dt host group view value) s = .next (s.left
          (((v.updatePage 3 0 (g / 4) 2).modGroup g fun x => { x with interval := BitVec.ofNat 16 n }).answer .ok 0#64))) ∧
        ((v.group g).heldAt v.clock.dp = true → exec (.grpHoldWrite dt host group view value) s = .next (s.left
          (((v.updatePage 3 0 (g / 4) 2).modGroup g fun x => { x with interval := BitVec.ofNat 16 n, holdEnd := min x.holdEnd (v.clock.dp + 64 * n) }).answer
            .ok 0#64)))) ∧
      (v.locked f (some 1) = true → exec (.grpHoldWrite dt host group view value) s = .next (s.left
        (v.refusedAt f rsLocked view.toNat (0x804 + 16 * (g % 128)) false host))))

/-! ### Doorbells (R112 to R155, R215 to R222) -/

/-- R22, R112, R113, R126, R132, R136, R142: an offer on the normal channel of a ready port enters the normal FIFO with the
selection, the port's window and its INTID's class as they stand before the acceptance edge, is unsettled from there,
awaits a response where it is non-posted, and is counted; a port that is not ready, and not masked, counts
backpressure, before READY too.
R123, R137, R215, R216, R222: an offer on the fast channel of a ready port enters the fast FIFO with the CAM and
fast-table verdict and owner that the state before the acceptance edge gives, and a copy of the fast-table entry that
disagrees is counted; a port that is not ready, and not masked, counts backpressure. -/
def Obligations.DoorbellsAreAcceptedIntoTheirFifo : Prop :=
  (
    ∀ (s u w : State) (dt : Nat) (port : BitVec 4) (data : DWord) (rid : BitVec 16) (np : Bool) (p : Nat) (d : Doorbell),
      s.elapse dt = u → u.startup.inReset = false → port.toNat = p →
      (u.port p).normal.any (fun x => decide (x.acc = u.clock.dp)) = false →
      { id := (u.port p).nextId, data := data, rid := rid, np := np, acc := u.clock.dp, accEdge := u.clock.edge, stamp := u.sampled.gate.setB,
        outside := u.sampled.outsideWindow p rid, noCache := bit (u.sampled.reg (fPort p) 0x34) 0,
        fastClass := u.sampled.isFast (dbIntid data), verdict := 255, decodedAt := 0, owner := 0#6, target := 0,
        route := none, rights := none, hit := false, divert := none } = d →
      (u.readyN p = true →
        (u.modPort p fun x =>
          { x with nextId := x.nextId + 1, normal := x.normal ++ [d],
                   unsettled := x.unsettled ++
                     [{ id := d.id, rid := rid, acc := u.clock.dp, fast := false, olds := u.swappedNow rid }],
                   awaiting := if np then x.awaiting ++ [{ id := d.id, acc := u.clock.dp, pre := none, code := none, settledAt := 0,
                                                           discard := x.isMasked }]
                               else x.awaiting }).count (fPort p) 3 = w →
        exec (.doorbellAccept dt port data rid np) s = .next (s.left (if np then w.count (fPort p) 5 else w))) ∧
      (u.readyN p = false → u.frozen = false → (u.sampled.port p).isMasked = false →
        exec (.doorbellAccept dt port data rid np) s = .next (s.left (u.count (fPort p) 8))) ∧
      (u.readyN p = false → (u.frozen = true ∨ (u.sampled.port p).isMasked = true) →
        exec (.doorbellAccept dt port data rid np) s = .next (s.left u))) ∧
  (
    ∀ (s u v w : State) (dt : Nat) (port : BitVec 4) (data : DWord) (rid : BitVec 16) (np : Bool) (p : Nat) (d e : Doorbell),
      s.elapse dt = u → u.startup.inReset = false → port.toNat = p →
      (u.port p).fast.any (fun x => decide (x.acc = u.clock.dp)) = false → u.doorbell p data rid np = e →
      { e with verdict := u.sampled.fastVerdict e, owner := BitVec.ofNat 6 (u.sampled.fastHost e) } = d →
      (u.readyF p = true →
        (u.modPort p fun x =>
          { x with nextId := x.nextId + 1, fast := x.fast ++ [d],
                   unsettled := x.unsettled ++
                     [{ id := d.id, rid := d.rid, acc := d.acc, fast := true, olds := u.swappedNow d.rid }] }) = v →
        (if dbIntid data < 4096 then v.ftFix false (dbIntid data) else v).count (fPort p) 4 = w →
        exec (.fastDoorbellAccept dt port data rid np) s = .next (s.left (if np then w.count (fPort p) 10 else w))) ∧
      (u.readyF p = false → u.frozen = false → (u.sampled.port p).isMasked = false →
        exec (.fastDoorbellAccept dt port data rid np) s = .next (s.left (u.count (fPort p) 8))) ∧
      (u.readyF p = false → (u.frozen = true ∨ (u.sampled.port p).isMasked = true) →
        exec (.fastDoorbellAccept dt port data rid np) s = .next (s.left u)))

/-- R118, R131, R144, R232, R390: the head of a normal FIFO takes effect once its lookups are in and its fence is open. With
a verdict it counts and records the fault, and its record goes to the spillway; passed on a direct route it sets the INTID, settles
with ACCEPTED and fills the repeat cache, once the page of an INTID held in SRAM has been read; a page that cannot be read, or an
earlier reason, diverts it; a head that is not ready waits.
R220, R222: the head of a fast FIFO takes effect five edges after its acceptance: passed, it sets its INTID and
settles with ACCEPTED; faulting, it counts, and its record enters the fast fault queue, for which it waits while four
records stood there before the edge.
That the repeat cache is filled at the effect edge is a reading, log entry 17. -/
def Obligations.DoorbellsTakeEffectByTheirVerdict : Prop :=
  (
    ∀ (s u : State) (dt : Nat) (port : BitVec 4) (page : PageRead) (p : Nat),
      s.elapse dt = u → u.running = true → port.toNat = p →
      (u.headReady p = none → exec (.doorbellEffect dt port page) s = .next (s.left u)) ∧
      (∀ d, u.headReady p = some d → d.gate = 0 → d.divert = none → d.cistern = none → dbIntid d.data < 4096 →
        exec (.doorbellEffect dt port page) s = .next (s.left
          ((((((u.passCounts d.attributed).fill p d).popN p).markError p d).pend (dbIntid d.data) (.doorbell d.accEdge)).settleDb p d.id 1#2))) ∧
      (∀ d r, u.headReady p = some d → d.gate = 0 → d.divert = none → d.cistern = none → 4096 ≤ dbIntid d.data →
        u.readPage 2 (reservoirPage (dbIntid d.data)) 4 false page = r →
        (r.1.usable = true → exec (.doorbellEffect dt port page) s = .next (s.left
          ((((((r.2.passCounts d.attributed).fill p d).popN p).markError p d).pend (dbIntid d.data) (.doorbell d.accEdge)).settleDb p d.id 1#2))) ∧
        (r.1.usable = false → exec (.doorbellEffect dt port page) s = .next (s.left (r.2.headDivert p d 6)))) ∧
      (∀ d reason, u.headReady p = some d → d.gate = 0 → d.divert = some reason →
        exec (.doorbellEffect dt port page) s = .next (s.left (u.headDivert p d reason.toNat))) ∧
      (∀ d t, u.headReady p = some d → d.gate ≠ 0 → (u.spillTake (dbRecord p d d.gate)).isSome = true →
        (u.faultCounts p d false d.gate d.attributed).spillTake (dbRecord p d d.gate) = some t →
        exec (.doorbellEffect dt port page) s = .next (s.left (t.popN p))) ∧
      (∀ d, u.headReady p = some d → d.gate ≠ 0 → u.spillTake (dbRecord p d d.gate) = none →
        exec (.doorbellEffect dt port page) s = .next (s.left u))) ∧
  (
    ∀ (s u : State) (dt : Nat) (port : BitVec 4) (p : Nat) (d : Doorbell) (rest : List Doorbell),
      s.elapse dt = u → u.running = true → port.toNat = p → (u.port p).fast = d :: rest →
      (u.clock.dp < d.acc + 5 → exec (.fastDoorbellEffect dt port) s = .next (s.left u)) ∧
      (d.acc + 5 ≤ u.clock.dp → (u.port p).lastFast ≠ some u.clock.dp →
        (d.verdict = 0 → exec (.fastDoorbellEffect dt port) s = .next (s.left
          ((((u.passCounts d.owner.toNat).modPort p fun x => { x with fast := rest, lastFast := some u.clock.dp }).pend
            (dbIntid d.data) (.doorbell d.accEdge)).settleDb p d.id 1#2))) ∧
        (d.verdict ≠ 0 → 4 ≤ (u.sampled.port p).faultQueue.length → exec (.fastDoorbellEffect dt port) s = .next (s.left u)) ∧
        (d.verdict ≠ 0 → (u.sampled.port p).faultQueue.length < 4 → exec (.fastDoorbellEffect dt port) s = .next (s.left
          (((u.faultCounts p d true d.verdict d.owner.toNat).modPort p fun x => { x with fast := rest, lastFast := some u.clock.dp }).modPort p
            fun x => { x with faultQueue := x.faultQueue ++ [dbRecord p d d.verdict] })))))

/-- R118, R236, R244: the head of a normal FIFO on a cistern route, its cache entry read clean, is appended to its
cistern's line buffer where the append slot is its own, enters the miss queue where the cistern is being fetched, is
diverted to the spillway with the cistern's reason, or waits. A record that the entry holds already is appended before
any other, whatever port's turn it is; the cistern's record at the head of its local queue goes first.
The refresh of a full ring, one for each append, is a reading, log entry 47. -/
def Obligations.CisternHeadAppendsMissesOrDiverts : Prop :=
  ∀ (s u : State) (dt : Nat) (port : BitVec 4) (page : PageRead) (d : Doorbell) (p c : Nat),
    s.elapse dt = u → u.running = true → port.toNat = p → u.headReady p = some d → d.gate = 0 → d.divert = none →
    d.cistern = some c → u.cached c = none ∨ u.pagesSound ∧ page = cleanRead →
    (u.localFirst c = true → u.holds c (dbRecord p d 0) = false →
      exec (.doorbellEffect dt port page) s = .next (s.left u)) ∧ ((u.localFirst c = false ∨ u.holds c (dbRecord p d 0) = true) →
    (∀ t, u.append c (dbRecord p d 0) (!u.missBefore c) false = .waits t →
      exec (.doorbellEffect dt port page) s = .next (s.left t)) ∧
    (∀ t, u.append c (dbRecord p d 0) (!u.missBefore c) false = .missed t →
      exec (.doorbellEffect dt port page) s = .next (s.left
        (((((t.pushMiss c (dbRecord p d 0)).passCounts d.attributed).fill p d).popN p).markError p d))) ∧
    (∀ t reason, u.append c (dbRecord p d 0) (!u.missBefore c) false = .diverted t reason →
      exec (.doorbellEffect dt port page) s = .next (s.left (((t.spent c).headDivert p d reason).restInput c))) ∧
    (∀ t, u.append c (dbRecord p d 0) (!u.missBefore c) false = .taken t → u.holds c (dbRecord p d 0) = false →
      u.slotElsewhere p c = false →
      exec (.doorbellEffect dt port page) s = .next (s.left
        (((((t.chargeInput p c (putIn p (u.contenders c)) false).passCounts d.attributed).fill p d).popN p).markError p d)) ∧
      exec (.cisternAppend dt (.port port) page) s = exec (.doorbellEffect dt port page) s) ∧
    (∀ t, u.append c (dbRecord p d 0) (!u.missBefore c) false = .taken t → u.holds c (dbRecord p d 0) = true →
      exec (.cisternAppend dt (.port port) page) s = .next (s.left
        (((((t.chargeInput p c (putIn p (u.contenders c)) true).passCounts d.attributed).fill p d).popN p).markError p d))))

/-- R122, R126: the oldest non-posted doorbell is answered with its code from the edge after the one at which it settled, one
response an edge; a response to be discarded leaves without being driven, and is counted; nothing leaves before it.
The settling edge and the response edge are ordered by log entry 13. -/
def Obligations.ResponsesLeaveInOrder : Prop :=
  ∀ (s u : State) (dt : Nat) (port : BitVec 4) (p : Nat) (a : Awaiting) (rest : List Awaiting),
    s.elapse dt = u → u.running = true → port.toNat = p → (u.port p).awaiting = a :: rest →
    (a.code = none → exec (.dbResponse dt port) s = .next (s.left u)) ∧
    (∀ c, a.code = some c → (u.port p).respAt = some u.clock.edge ∨ u.clock.edge ≤ a.settledAt →
      exec (.dbResponse dt port) s = .next (s.left u)) ∧
    (∀ c, a.code = some c → (u.port p).respAt ≠ some u.clock.edge → a.settledAt < u.clock.edge → a.discard = false →
      exec (.dbResponse dt port) s = .next (s.left
        (u.modPort p fun x => { x with awaiting := rest, resp := c, respAt := some u.clock.edge }))) ∧
    (∀ c, a.code = some c → (u.port p).respAt ≠ some u.clock.edge → a.settledAt < u.clock.edge → a.discard = true →
      exec (.dbResponse dt port) s = .next (s.left
        ((u.modPort p fun x => { x with awaiting := rest, resp := 0#2, respAt := some u.clock.edge }).count (fPort p) 9)))

/-- R24, R126, R360: PORT_PWR_OK captured low, the synchroniser's depth having passed, masks the port, discards the response of
the edge and the responses still due, and raises its event; captured high, it unmasks the port. Seen earlier, neither changes
anything; in a failover freeze the capture waits for the resume edge.
R24, R103, R360: CORE_SLEEP captured high, the synchroniser's depth having passed, puts the core to sleep and withdraws its
presentations; captured low it wakes the core, whose rounds may be held from the next edge. A level already seen, or one
not captured for the depth yet, changes nothing; in a failover freeze the capture waits for the resume edge.
That both wait for the resume edge in a freeze is the model's choice, log entry 9. How the depth of the synchroniser is given is a reading, log entry 68. -/
def Obligations.PortPowerAndCoreSleepMaskTheirSide : Prop :=
  (
    ∀ (s u v : State) (dt : Nat) (port : BitVec 4) (ago p : Nat),
      s.elapse dt = u → u.startup.inReset = false → port.toNat = p →
      (if (u.port p).respAt = some u.clock.edge ∧ (u.port p).resp ≠ 0#2 then
          (u.modPort p fun x => { x with resp := 0#2 }).count (fPort p) 9 else u) = v →
      (u.depth ≤ ago + 1 → u.frozen = false →
        ((u.port p).pwrOk = true → exec (.portMask dt ⟨port, ago⟩) s = .next (s.left
          ((v.modPort p fun x => { x with awaiting := x.awaiting.map fun a => { a with discard := true }, pwrOk := false }).event
            (fPort p) 11 135))) ∧
        ((u.port p).pwrOk = false → exec (.portMask dt ⟨port, ago⟩) s = .next (s.left u)) ∧
        exec (.portUnmask dt ⟨port, ago⟩) s = .next (s.left (u.modPort p fun x => { x with pwrOk := true }))) ∧
      (u.depth ≤ ago + 1 → u.frozen = true →
        exec (.portMask dt ⟨port, ago⟩) s =
          .next (s.left { u with twin.answers := u.twin.answers ++ [.portMask dt ⟨port, ago⟩] }) ∧
        exec (.portUnmask dt ⟨port, ago⟩) s =
          .next (s.left { u with twin.answers := u.twin.answers ++ [.portUnmask dt ⟨port, ago⟩] })) ∧
      (ago + 1 < u.depth → exec (.portMask dt ⟨port, ago⟩) s = .next (s.left u) ∧
        exec (.portUnmask dt ⟨port, ago⟩) s = .next (s.left u))) ∧
  (
    ∀ (s u : State) (dt : Nat) (core : BitVec 8) (ago n : Nat),
      s.elapse dt = u → u.startup.inReset = false → core.toNat = n →
      (u.depth ≤ ago + 1 → u.frozen = false →
        ((u.core n).asleep = false → exec (.coreSleepSeen dt ⟨core, ago⟩) s = .next (s.left
          (((u.modCore n fun c => { c with asleep := true }).withdrawN n).withdrawF n))) ∧
        ((u.core n).asleep = true → exec (.coreSleepSeen dt ⟨core, ago⟩) s = .next (s.left u)) ∧
        ((u.core n).asleep = true → exec (.coreWakeSeen dt ⟨core, ago⟩) s = .next (s.left (u.modCore n fun c =>
          { c with asleep := false, fromN := max c.fromN (u.clock.dp + 1), fromF := max c.fromF (u.clock.dp + 1) }))) ∧
        ((u.core n).asleep = false → exec (.coreWakeSeen dt ⟨core, ago⟩) s = .next (s.left u))) ∧
      (u.depth ≤ ago + 1 → u.frozen = true →
        exec (.coreSleepSeen dt ⟨core, ago⟩) s =
          .next (s.left { u with twin.answers := u.twin.answers ++ [.coreSleepSeen dt ⟨core, ago⟩] }) ∧
        exec (.coreWakeSeen dt ⟨core, ago⟩) s =
          .next (s.left { u with twin.answers := u.twin.answers ++ [.coreWakeSeen dt ⟨core, ago⟩] })) ∧
      (ago + 1 < u.depth → exec (.coreSleepSeen dt ⟨core, ago⟩) s = .next (s.left u) ∧
        exec (.coreWakeSeen dt ⟨core, ago⟩) s = .next (s.left u)))

/-! ### Stores, rekey and migration (R132 to R167, R194, R195) -/

/-- R155, R200, R201: one grant of a store's bank reads one page, whatever the read finds, and serves every doorbell of the
ports' first four that waits for it; the winner's arbiter is charged, the read is counted, and no second grant of the
bank falls at the edge. A bank that is held, or for which nothing waits, grants nothing.
R132, R133: a waiting route or rights item reserves a commit-shadow entry while fewer than 16 are in use; an entry is
released after its write edge, once no doorbell accepted at or before it still waits for its lookup.
R195: a keeper-marked sequence that has held its bank for 64 edges is broken: its lock ends at this edge, its record
stands in LOCK_LAST, its event is raised and the work it belongs to stops with LOCK_OVERRUN; a shorter one goes on.
The arbiter of a bank not used before is formed by the reading of log entry 16. The edge of a late decode's request is a reading, log entry 74; the order of sequences broken at one edge the model's choice, log entry 85. Bank 0 of a migration row that a sweep breaks is the model's choice too. -/
def Obligations.BankGrantsShadowsAndLocks : Prop :=
  (
    ∀ (s u : State) (dt : Nat) (rights : Bool) (bank : BitVec 4) (page : PageRead),
      s.elapse dt = u → u.running = true →
      ((u.bankHeld rights bank.toNat = true ∨ u.bankRequests rights bank.toNat = []) →
        exec (.doorbellLookup dt rights bank page) s = .next (s.left u)) ∧
      (∀ q pg, u.bankHeld rights bank.toNat = false →
        u.arbWinner (bankArb rights bank.toNat) (sorted ((u.bankRequests rights bank.toNat).map Prod.fst)) = some q →
        (u.bankRequests rights bank.toNat).find? (fun e => decide (e.1 = q)) = some (q, pg) →
        ∃ t : State, exec (.doorbellLookup dt rights bank page) s = .next (s.left t) ∧
          (t.hash rights).reads = (u.hash rights).reads + 1 ∧
          (∀ p i d, i < 4 → (u.port p).normal[i]? = some d → u.wantsLook rights d = true → pageOf rights (d.index rights) = pg →
            rising 0 u.ports = true →
            ∃ e f, (t.port p).normal[i]? = some e ∧ e.look rights = some f) ∧
          (rising 0 u.sluice.grants = true →
            look none t.sluice.grants (bankArb rights bank.toNat) = some u.clock.dp) ∧
          (rising 0 u.sluice.arbiters = true →
            ∃ a, look none t.sluice.arbiters (bankArb rights bank.toNat) = some a ∧ a.ptr = (q + 1) % 16) ∧
          t.ints = u.ints ∧ t.cores = u.cores ∧ t.gate = u.gate ∧ t.pump = u.pump ∧ t.levels = u.levels ∧
          t.front.regs = u.front.regs ∧ t.front.locks = u.front.locks)) ∧
  (
    ∀ (s u : State) (dt : Nat), s.elapse dt = u → u.running = true →
      (∀ r, u.keeper.run = some r → r.phase = .items → (r.cmd.opcode = 0x10#8 ∨ r.cmd.opcode = 0x20#8) → r.marked = false →
        (u.gate.shadow.length < 16 → exec (.shadowReserve dt) s = .next (s.left
          { u with
            gate.shadow := u.gate.shadow ++ [{ rights := decide (r.cmd.opcode = 0x20#8), idx := 0, old := 0#128, edge := none }],
            keeper.run := some { r with marked := true } })) ∧
        (16 ≤ u.gate.shadow.length → exec (.shadowReserve dt) s = .next (s.left u))) ∧
      exec (.shadowRelease dt) s = .next (s.left
        { u with gate.shadow := u.gate.shadow.filter fun x =>
            match x.edge with
            | none => true
            | some e => decide (u.clock.dp ≤ e) || u.unlooked x.rights e })) ∧
  (
    ∀ (s u w : State) (dt : Nat), s.elapse dt = u → u.running = true →
      (∀ l, u.markedLock = some l → l.grant + 64 ≤ u.clock.dp →
        State.event { u with sluice.locks := u.sluice.locks.map fun x =>
          if x.memory = l.memory ∧ x.bank = l.bank ∧ x.ended = false then { x with lasts := u.clock.dp, ended := true } else x }
            fSluice 10 138 = w →
        exec (.lockOverrun dt) s = .next (s.left
          (State.stopMarked { w with sluice.lockLast := lockRecord l false } stOverrun))) ∧
      ((u.markedLock = none ∨ ∃ l, u.markedLock = some l ∧ u.clock.dp < l.grant + 64) →
        exec (.lockOverrun dt) s = .next (s.left u)))

/-- R132, R153, R156, R158, R213, R458: at its write edge a granted ROUTE_WRITE item keeps the old entry in its commit-shadow
entry, writes the route, its mirrors and its page's EPOCH copies, empties the repeat caches, withdraws what the write
has made untenable, counts, frees the bank and goes on to the next item.
R134, R135, R156: at its write edge a granted RIGHTS_WRITE item writes the halves it names and keeps the others, with
the old entry in its commit-shadow entry; a host that names the half in force ends with DENIED and nothing written. -/
def Obligations.ItemsWriteTheStores : Prop :=
  (
    ∀ (s u w : State) (dt : Nat) (r : Run) (i : List Byte) (rest : List (List Byte)) (g x : Nat),
      s.elapse dt = u → u.running = true → u.phaseOf 0x10 .items = some r → r.todo = i :: rest → r.granted = some g →
      ofLe (i.take 4) % 131072 = x → u.pagesSound → u.epochBad 0 (u.routes.rt.physical (x / 8)) = false →
      (u.clock.dp < g + 3 → exec (.routeItemWrite dt cleanRead) s = .next (s.left u)) ∧
      (g + 3 ≤ u.clock.dp → (((u.rewriteEpoch 0 (u.routes.rt.physical (x / 8))).shadowWrite false x).setRoute x
        (BitVec.ofNat 64 (ofLe (i.drop 4)))).emptyCaches.recheck = w →
        exec (.routeItemWrite dt cleanRead) s = .next (s.left
          (((w.count fRoute 14).unlock 0 (u.routes.rt.bank (x / 8))).nextItem r)))) ∧
  (
    ∀ (s u : State) (dt : Nat) (r : Run) (i : List Byte) (rest : List (List Byte)) (g rid halves : Nat) (a b : DWord)
      (old : BitVec 128) (names : Bool),
      s.elapse dt = u → u.running = true → u.phaseOf 0x20 .items = some r → r.todo = i :: rest → r.granted = some g →
      ofLe (i.take 2) = rid → ofLe ((i.drop 2).take 1) = halves → u.rightsEntry rid = old →
      u.pagesSound → u.epochBad 1 (u.routes.rg.physical (rid / 4)) = false → g + 3 ≤ u.clock.dp →
      (if bit u.sampled.gate.setB r.cmd.host then decide (2 ≤ halves) else decide (halves % 2 = 1)) = names →
      (if halves % 2 = 1 then BitVec.ofNat 64 (ofLe ((i.drop 4).take 8)) else rgHalf old false) = a →
      (if 2 ≤ halves then BitVec.ofNat 64 (ofLe ((i.drop 12).take 8)) else rgHalf old true) = b →
      ((r.cmd.host = 0 ∨ names = false) → ∀ w : State,
        (u.rewriteEpoch 1 (u.routes.rg.physical (rid / 4))).shadowWrite true rid = w →
        exec (.rightsItemWrite dt cleanRead) s = .next (s.left
          ((((State.emptyCaches { w with gate.rights := ins 0#128 w.gate.rights rid (rgJoin a b) }).count fGate 6).unlock 1
            (u.routes.rg.bank (rid / 4))).nextItem r))) ∧
      (r.cmd.host ≠ 0 → names = true →
        exec (.rightsItemWrite dt cleanRead) s = .next (s.left (u.failItem r stDenied 1 (u.routes.rg.bank (rid / 4))))))

/-- R22, R159, R160: at the end of its window the conflict monitor of a store records the hottest bank's share and the read
share as they stood before the edge, starts a new window with what the edge itself added, and counts and raises the conflict
where both thresholds are passed; it asks for a rekey where the store's automatic rekey is on, no migration runs and the
spacing has elapsed. Before the end nothing changes.
R152, R160, R161, R162: with a rekey asked for and its fresh key loaded, the migration of a store starts at row 0 and
is counted; each row's tick reserves the row's banks once its edge has come.
R163, R165, R166: once the reads and corrections that follow its grant allow its write, a row of 16 pages is rewritten
under the fresh key: no other grant of its banks falls at the edge, its poison bits and EPOCH copies move with its pages
and the row is counted. The next row follows at the pace; after the last the key selection and generation advance, the
migration ends and its event is raised. Before its write edge nothing is written.
The pace after a warm reset is the model's choice, log entry 80. So are the banks held from a row's tick and the pace of a HASH_CTRL written on the way, log entries 97 and 105. -/
def Obligations.MonitorsRekeyAndMigrateTheStores : Prop :=
  (
    ∀ (s u b : State) (dt : Nat) (rights : Bool) (h h' c : Hash) (hot : Nat) (trig starts : Bool) (ctrl : Word),
      s.elapse dt = u → u.running = true → u.sampled = b → u.hash rights = h → b.hash rights = c → b.reg fRoute 0x24 = ctrl →
      hotBank c.sat = hot →
      (u.clock.dp < h.windowAt + 1250000 → exec (.monitorWindowClose dt rights) s = .next (s.left u)) ∧
      (h.windowAt + 1250000 ≤ u.clock.dp →
        trig = (decide (atLeast1 (bits ctrl 7 0) * 1250000 ≤ look 0 c.sat hot * 256) &&
          decide (c.reads * 256 < atLeast1 (bits ctrl 15 8) * 20000000)) →
        starts = (trig && bit (b.reg fRoute 0x20) (if rights then 1 else 0) && !c.migActive && b.spaced c) →
        { h with sat := (List.range 16).foldl (fun t i => ins 0 t i (look 0 h.sat i - look 0 c.sat i)) [], reads := h.reads - c.reads,
                 windowAt := u.clock.dp, reqPend := h.reqPend || starts,
                 monLast := 0x80000000#32 ||| flag32 30 trig ||| at32 24 hot |||
                   at32 16 (share (look 0 c.sat hot) 1250000) ||| at32 8 (share c.reads 20000000) } = h' →
        exec (.monitorWindowClose dt rights) s = .next (s.left
          (if trig then (if starts then (u.setHash rights h').event fRoute 12 136
            else ((u.setHash rights h').event fRoute 12 136).count fRoute 13) else u.setHash rights h')))) ∧
  (
    ∀ (s u : State) (dt : Nat) (rights : Bool) (h : Hash),
      s.elapse dt = u → u.running = true → u.hash rights = h →
      (u.keeperAlive = true → h.keyReady = true → (h.reqPend = true ∨ h.asked = true) → h.migActive = false →
        exec (.rekeyStart dt rights) s = .next (s.left ((u.setHash rights
          { h with migActive := true, migRow := 0, tickAt := u.clock.dp, baseTick := u.clock.dp, baseRow := 0, reserved := false,
                   reqPend := false, asked := false, keyReady := false, spacedAt := u.slowMark, since := u.slowMark }).count
            fRoute (if rights then 10 else 9)))) ∧
      ((h.keyReady = false ∨ h.migActive = true ∨ u.keeperAlive = false ∨ h.reqPend = false ∧ h.asked = false) →
        exec (.rekeyStart dt rights) s = .next (s.left u)) ∧
      (h.migActive = true → h.reserved = false → h.tickAt ≤ u.clock.dp →
        exec (.migrationRowTick dt rights) s = .next (s.left
          (u.setHash rights { h with reserved := true, tickAt := u.clock.dp }))) ∧
      ((h.migActive = false ∨ h.reserved = true ∨ u.clock.dp < h.tickAt) →
        exec (.migrationRowTick dt rights) s = .next (s.left u))) ∧
  (
    ∀ (s u v w : State) (dt : Nat) (rights : Bool) (pages : List PageRead) (h : Hash) (m row d : Nat) (held : Tbl (Option Nat)),
      s.elapse dt = u → u.running = true → u.hash rights = h → (if rights then 1 else 0) = m → h.migRow = row →
      h.migActive = true → h.reserved = true → (u.readRow m row pages).2 = v →
      bankHash row (if h.sel then h.key1 else h.key0) ^^^ bankHash row (if h.sel then h.key0 else h.key1) = d →
      (List.range 16).foldl (fun g b => ins none g (bankArb rights b) (some u.clock.dp)) u.sluice.grants = held →
      (((List.range 16).foldl (fun (x : State) b => (x.setEpoch m (row * 16 + b) (!h.sel)).wroteWhole m (row * 16 + b))
        (State.modWell (State.modWell { v with sluice.grants := held } false
          fun x => { x with poison := movePoison x.poison m row d }) true
          fun x => { x with poison := movePoison x.poison m row d })).count fRoute 11) = w →
      (u.clock.dp < writeEdge (u.rowGrant rights) (u.readRow m row pages).1 →
        exec (.migrationRowWrite dt rights pages) s = .next (s.left u)) ∧
      (writeEdge (u.rowGrant rights) (u.readRow m row pages).1 ≤ u.clock.dp →
        (row ≠ 1023 → exec (.migrationRowWrite dt rights pages) s = .next (s.left (w.setHash rights
          { h with migRow := row + 1, reserved := false,
                   tickAt := max (h.baseTick + (row + 1 - h.baseRow) * w.sampled.pace) (w.clock.dp + 1) }))) ∧
        (row = 1023 → exec (.migrationRowWrite dt rights pages) s = .next (s.left ((w.setHash rights
          { h with sel := !h.sel, gen := h.gen + 1, migActive := false, migRow := 0, reserved := false }).event fRoute 15 137)))))

/-! ### Sluice and reservoir (R178 to R233) -/

/-- R176, R185 to R193: a round of a target that may hold one presents the picked INTID of the winning group: its slot
loads at the next edge and its line rises two edges later, the target's pointer moves behind the winner, the winner is
charged 16 credits and starts its age and wait anew, and each other bidder, not served or aged at this edge before, ages
and waits by one. Every other group and target stays. A target that may hold none, or for which no group bids, presents
nothing.
R221, R222, R228: a fast round of a core whose lane is open presents its first fast candidate at or after the pointer: the
slot loads at the next edge, the line rises two edges later, the pointer moves behind the candidate, its latency is due to
be measured where the monitor is on, and the round is counted; with no candidate, or a closed lane, nothing changes.
That a picked slot counts as occupied, when LAT_MON_EN is looked at, and when a latency is entered, are the model's choices, log entries 70 and 71. -/
def Obligations.RoundsPresentTheirWinner : Prop :=
  (
    ∀ (s u : State) (dt : Nat) (target : BitVec 9) (t : Nat) (bids : List Bid), s.elapse dt = u → u.running = true →
      target.toNat = t → u.targetBids t u.clock.dp = bids →
      ((u.roundDue t = false ∨ roundWinner (u.targetPtr t) bids = none) →
        exec (.targetRound dt target) s = .next (s.left u)) ∧
      (∀ g key, u.roundDue t = true → roundWinner (u.targetPtr t) bids = some g →
        u.pickFor t g u.clock.dp = some key → rising 0 u.cores = true → rising 0 u.sluice.groups = true →
        ∃ w : State, exec (.targetRound dt target) s = .next (s.left w) ∧
          w.core t = { u.core t with
            presN := some { intid := key, dup := (u.int key).dup, loadAt := u.clock.dp + 1, group := g }, ptr := some ((g + 1) % 1024),
            pp := if g = u.sampled.privGroup then (privPos key + 1) % 131072 else (u.core t).pp,
            lineN := drive (u.core t).lineN u.clock.edge (u.clock.edge + 3) true } ∧
          (w.group g).credit = (u.group g).credit - 16 ∧ (w.group g).age = 0 ∧ (w.group g).wait = 0 ∧
          (∀ b ∈ bids, b.idx ≠ g → (u.group b.idx).weight ≠ 0#8 → (u.group b.idx).snap = none →
            (w.group b.idx).age = min ((u.group b.idx).age + 1) 15 ∧ (w.group b.idx).wait = min ((u.group b.idx).wait + 1) 1023 ∧
            (w.group b.idx).credit = (u.group b.idx).credit) ∧
          (∀ n, n ≠ g → (∀ b ∈ bids, b.idx ≠ n) → w.group n = u.group n) ∧
          (∀ n, n ≠ t → w.core n = u.core n) ∧ w.ints = u.ints ∧ w.ports = u.ports ∧ w.gate = u.gate ∧ w.routes = u.routes ∧
          w.pump = u.pump ∧ w.levels = u.levels ∧ w.keeper = u.keeper ∧ w.twin = u.twin ∧ w.front.regs = u.front.regs)) ∧
  (
    ∀ (s u : State) (dt : Nat) (target : BitVec 9) (n : Nat), s.elapse dt = u → u.running = true → target.toNat = n →
      ((u.sampled.fastOpen n = false ∨ 256 < n ∨ u.clock.dp < (u.core n).fromF ∨ (u.core n).presF ≠ none ∨
          u.fastPick n u.clock.dp = none) →
        exec (.fastRound dt target) s = .next (s.left u)) ∧
      (∀ key, u.levels.stbyOk = false → n ≤ 256 → u.sampled.fastOpen n = true → (u.core n).presF = none →
        (u.core n).fromF ≤ u.clock.dp → u.fastPick n u.clock.dp = some key →
        exec (.fastRound dt target) s = .next (s.left ((u.count fFast 4).modCore n fun c =>
          { c with presF := some { intid := key, dup := (u.int key).dup, loadAt := u.clock.dp + 1, group := 0 },
                   fptr := (fastPos key + 1) % 4096,
                   lat := if bit (u.reg fFast 0x20) 1 then
                       c.lat ++ ((u.sampled.int key).origin.map fun o =>
                         ({ rise := u.clock.edge + 3, origin := o, intid := intidOf key } : LatWait)).toList
                     else c.lat,
                   lineF := drive c.lineF u.clock.edge (u.clock.edge + 3) true }))))

/-- R179, R180, R207: at the end of a window the next follows by the length in force. At a target window's end the boundary
is counted and every group's credit is refilled by 16 times its weight, to at most 65,535, where the group has been
eligible since the last boundary, and set to that where it has not. Before the end nothing changes.
R190: a group's hold that has run out is cleared; one still running is kept.
That the next boundary is counted from the edge of this row is a reading, log entry 61. -/
def Obligations.WindowsRefillAndHoldsEnd : Prop :=
  (
    ∀ (s u : State) (dt : Nat) (kind : WindowKind), s.elapse dt = u → u.running = true →
      (u.clock.dp < u.windowEnd kind → exec (.windowBoundary dt kind) s = .next (s.left u)) ∧
      (u.windowEnd kind ≤ u.clock.dp → ∃ w : State, exec (.windowBoundary dt kind) s = .next (s.left w) ∧
        w.windowEnd kind = u.clock.dp + ctrlWindow (u.sampled.windowCtrl kind) ∧ w.ints = u.ints ∧ w.cores = u.cores ∧
        w.ports = u.ports ∧ w.front.regs = u.front.regs ∧
        (kind = .target → w.front.counters = (u.count fSluice 12).front.counters ∧
          (rising 0 u.sluice.groups = true → ∀ g n, g ∈ keys u.sluice.groups → (u.group g).weight ≠ 0#8 →
            (u.sampled.group g).weight.toNat = n → n ≠ 0 →
            ((u.group g).used = true ∨ u.sampled.eligibleSomewhere g u.clock.dp = true →
              w.group g = { u.group g with credit := min ((u.group g).credit + 16 * n) 65535, used := false }) ∧
            ((u.group g).used = false → u.sampled.eligibleSomewhere g u.clock.dp = false →
              w.group g = { u.group g with credit := 16 * n, used := false }))))) ∧
  (
    ∀ (s u : State) (dt : Nat) (group : BitVec 10) (g : Nat), s.elapse dt = u → u.running = true → group.toNat = g →
      ((u.group g).holdEnd ≤ u.clock.dp → exec (.trickleHoldEnd dt group) s = .next (s.left
        (u.modGroup g fun x => { x with holdFrom := 0, holdEnd := 0 }))) ∧
      (u.clock.dp < (u.group g).holdEnd → exec (.trickleHoldEnd dt group) s = .next (s.left u)))

/-! ### Levels, vault pairs and standby latches (R260 to R286) -/

/-- R265, R266: a change of a wire shows at its synchroniser's output depth - 1 edges later, and until then the sample shows what
it showed. A change that cuts the run before it short of the filter length, where that run differs from what the filter had
settled at, is counted as a glitch with its event; one that repeats the captured level changes nothing. Before READY no wire is
sampled: the wire's level is kept, and nothing is counted.
R266: once the synchronised sample has shown a new level for the filter length, the filtered value takes it at this edge; a
rise of an enabled line is counted, and a vault wire's pair is due to be computed anew at the edge, once for all that changes
there. Before that nothing changes.
The counting of glitches at the capture edge is a reading, log entry 54. -/
def Obligations.LevelWiresAreCapturedAndFiltered : Prop :=
  (
    ∀ (s u : State) (dt : Nat) (wire : BitVec 7) (high v : Bool) (i k f : Nat) (w w' : Wire),
      s.elapse dt = u → wire.toNat = i → i < 72 → u.wire i = w → u.assertedAt i high = v → u.clock.edge + u.depth - 1 = k →
      u.filterOf i = f → { w with syn := noteChange w.syn (f + 8) k v } = w' →
      (u.startup.ready = false → exec (.levelInputChange dt wire high) s = .next (s.left
        (u.setWire i { w with syn := if v then [(u.clock.edge, true)] else [] }))) ∧
      (u.startup.ready = true →
        (v = lineNewest w.syn → exec (.levelInputChange dt wire high) s = .next (s.left u)) ∧
        (v ≠ lineNewest w.syn → (∀ c, w.syn.head? = some c → c.2 = w.settled f ∨ c.1 + f ≤ k) →
          exec (.levelInputChange dt wire high) s = .next (s.left (u.setWire i w'))) ∧
        (∀ c, v ≠ lineNewest w.syn → w.syn.head? = some c → c.2 ≠ w.settled f → k < c.1 + f →
          exec (.levelInputChange dt wire high) s = .next (s.left ((u.setWire i w').event fLevel 3 142)))) ∧
      (∀ e, k ≤ e → w'.shown e = v) ∧ (∀ e, e < k → k ≤ e + (f + 8) → w'.shown e = w.shown e)) ∧
  (
    ∀ (s u t : State) (dt : Nat) (wire : BitVec 7) (i e : Nat) (w : Wire) (v : Bool),
      s.elapse dt = u → u.startup.ready = true → wire.toNat = i → i < 72 → u.wire i = w → u.clock.edge = e → w.shown e = v →
      (v = lineNewest w.fil ∨ e + 1 < lineStart w.syn e + u.filterOf i →
        exec (.levelFilterEdge dt wire) s = .next (s.left u)) ∧
      (v ≠ lineNewest w.fil → lineStart w.syn e + u.filterOf i ≤ e + 1 → u.setWire i { w with fil := noteChange w.fil 8 e v } = t →
        (i < 56 → exec (.levelFilterEdge dt wire) s = .next (s.left (if t.lineUp i e then t.count fLevel 4 else t))) ∧
        (56 ≤ i → exec (.levelFilterEdge dt wire) s = .next (s.left (t.pairDue ((i - 56) / 2) e false)))))

/-- R22, R83, R215, R216, R223, R233, R458: three edges after an edge at which a line was filtered asserted, its INTID is set, or,
on a cistern route, as it stood before the edge, one record is made for the rise; the fast-table entry that it reads is voted. A
line that was not asserted then, or already served at this edge, sets nothing.
R268, R279: a vault pair in service whose wires have disagreed for DISC edges is taken as tampered: P_n rises, and the
disagreement is counted and recorded; one whose wires agree by then ends short. Short of DISC, or out of service, nothing
changes. All that changes at the edge is computed first. -/
def Obligations.LevelsAndDiscrepanciesSet : Prop :=
  (
    ∀ (s u t : State) (dt : Nat) (line : BitVec 6) (i rise : Nat),
      s.elapse dt = u → u.startup.ready = true → line.toNat = i → i < 56 → 3 ≤ u.clock.edge →
      lineStart (u.wire i).fil (u.clock.edge - 3) = rise →
      (u.lineUp i (u.clock.edge - 3) = false ∨ look none u.levels.levelSetAt i = some u.clock.edge →
        exec (.levelSet dt line) s = .next (s.left u)) ∧
      (u.lineUp i (u.clock.edge - 3) = true → look none u.levels.levelSetAt i ≠ some u.clock.edge →
        State.ftFix { u with levels.levelSetAt := ins none u.levels.levelSetAt i (some u.clock.edge) } false (72 + i) = t →
        (u.sampled.mirrorCistern (72 + i) = none →
          exec (.levelSet dt line) s = .next (s.left (t.pend (72 + i) (.level rise)))) ∧
        (∀ c, u.sampled.mirrorCistern (72 + i) = some c →
          ((∀ l, look none u.levels.levelSetAt i = some l → l < rise + 3) →
            exec (.levelSet dt line) s = .next (s.left (t.localOrDrop c (madeRec (72 + i) 0x0D 0)))) ∧
          (∀ l, look none u.levels.levelSetAt i = some l → rise + 3 ≤ l →
            exec (.levelSet dt line) s = .next (s.left t))))) ∧
  (
    ∀ (s u t : State) (dt : Nat) (pair : BitVec 3) (n k : Nat) (p : Pair),
      (s.elapse dt).pairsNow = u → (s.elapse dt).startup.ready = true → pair.toNat = n → u.pair n = p → p.since = some k →
      k ≤ u.clock.edge →
      ((u.inService n = false ∨ p.tamper = true ∨ u.clock.edge - k + 1 < u.discLimit) →
        exec (.discTamper dt pair) s = .next (s.left u)) ∧
      (u.inService n = true → p.tamper = false → u.discLimit ≤ u.clock.edge - k + 1 → u.pairA n ≠ u.pairB n →
        (((u.setPair n { p with tamper := true }).count fLevel 7).setP n true) = t →
        exec (.discTamper dt pair) s = .next (s.left
          { t with levels.discLast := discWord n (u.setPair n { p with tamper := true }).discLimit true p.firstB })) ∧
      (u.inService n = true → p.tamper = false → u.discLimit ≤ u.clock.edge - k + 1 → u.pairA n = u.pairB n →
        u.discShort n (u.clock.edge - k) = t →
        exec (.discTamper dt pair) s = .next (s.left ((t.setPair n { p with since := none }).setP n (t.pairA n)))))

/-- R223, R268, R270: at an edge with P_n asserted for a pair in service the zeroize latch Z_n of both islands is set, and
three edges after such an edge the vault INTID is set; out of service before the edge, or where the edge's sets are made,
neither is. All that changes at the edge is computed first.
R196, R274: while a pair in service before the edge is asserted at it, the route-enable words are cleared and untenable
presentations withdrawn, and each new rise breaks every locked sequence; with none asserted nothing changes. All that changes at
the edge is computed first. -/
def Obligations.VaultAssertionsSetAndSweep : Prop :=
  (
    ∀ (s u t : State) (dt : Nat) (pair : BitVec 3) (n e : Nat) (p : Pair),
      (s.elapse dt).pairsNow = u → (s.elapse dt).startup.ready = true → pair.toNat = n → u.pair n = p → u.clock.edge = e →
      ((u.sampled.inService n = false ∨ p.setAt = some e) → exec (.vaultSet dt pair) s = .next (s.left u)) ∧
      (u.sampled.inService n = true → p.setAt ≠ some e →
        (if p.pAtEdge e then
            (u.setPair n { p with setAt := some e, seen := true }).latchZ (fun _ => BitVec.ofNat 8 (2 ^ n))
          else u.setPair n { p with setAt := some e }) = t →
        (3 ≤ e → p.pAtEdge (e - 3) = true →
          exec (.vaultSet dt pair) s = .next (s.left (t.pend (64 + n) (.level (lineStart p.pl (e - 3)))))) ∧
        ((e < 3 ∨ p.pAtEdge (e - 3) = false) → exec (.vaultSet dt pair) s = .next (s.left t)))) ∧
  (
    ∀ (s u t : State) (dt : Nat), (s.elapse dt).pairsNow = u → (s.elapse dt).startup.ready = true →
      (u.sweeping = false → exec (.vaultSweep dt) s = .next (s.left u)) ∧
      (u.sweeping = true → ((State.setReg { u with levels.sweepAt := some u.clock.edge } fRoute 0x40 0#32).setReg fRoute 0x44 0#32).recheck = t →
        (u.levels.sweepAt = none → (∃ n, n < 8 ∧ u.sampled.inService n = true ∧ (u.pair n).p = true) →
          exec (.vaultSweep dt) s = .next (s.left t.breakLocks)) ∧
        (∀ l, u.levels.sweepAt = some l → (∀ n, n < 8 → u.sampled.inService n = true → (u.pair n).p = true → (u.pair n).pAt ≤ l) →
          exec (.vaultSweep dt) s = .next (s.left t))))

/-- R24, R270, R273: the asynchronous zeroize path sets Z_n in each island whose ZEN_n is 1, in reset as well, and counts the
rise of ZEROIZE_REQ while clocked; a latch not yet seen, the synchroniser's depth having passed, acts as one edge with P_n
asserted: it is counted, the sweep is made, and the edge is kept from which the INTID's set follows.
R277, R286: in standby an island latches a zeroize or discrepancy input whose ZEN_n is 1, a level line that its copies
enable, and WAKE; a rise of ZEROIZE_REQ while clocked is counted. An island that is not in standby latches nothing.
How the depth of the synchroniser is given is a reading, log entry 68. -/
def Obligations.StandbyLatchesHoldTheirSources : Prop :=
  (
    ∀ (s u t : State) (dt : Nat) (pair : BitVec 3) (n : Nat),
      s.elapse dt = u → pair.toNat = n →
      ({ u with levels.islandA.z := u.levels.islandA.z ||| (u.levels.islandA.zen &&& BitVec.ofNat 8 (2 ^ n)),
                levels.islandB.z := u.levels.islandB.z ||| (u.levels.islandB.zen &&& BitVec.ofNat 8 (2 ^ n)) } = t →
        exec (.zeroizeLatchSet dt pair) s = .next (s.left
          (if u.zeroize = false ∧ t.zeroize = true ∧ u.startup.inReset = false then t.count fStandby 6 else t))) ∧
      (∀ ago, u.startup.ready = true → u.depth ≤ ago → u.inService n = true → (u.pair n).seen = false → u.zLatched n = true →
        ((u.pair n).p = true → exec (.zlatchSeen dt ⟨pair, ago⟩) s = .next (s.left
          (u.setPair n { u.pair n with seen := true, zAt := none }))) ∧
        ((u.pair n).p = false → exec (.zlatchSeen dt ⟨pair, ago⟩) s = .next (s.left
          ((u.setPair n { u.pair n with seen := true, zAt := some u.clock.edge }).count fLevel 5).clearHosts.breakLocks))) ∧
      (∀ ago, u.startup.ready = true → (ago < u.depth ∨ u.inService n = false ∨ (u.pair n).seen = true ∨ u.zLatched n = false) →
        exec (.zlatchSeen dt ⟨pair, ago⟩) s = .next (s.left u))) ∧
  (
    ∀ (s u t : State) (dt : Nat) (n : BitVec 3) (line : BitVec 6) (a b : Island),
      s.elapse dt = u → u.levels.islandA = a → u.levels.islandB = b →
      { u with levels.islandA.z := a.z ||| (a.zen &&& BitVec.ofNat 8 (2 ^ n.toNat)),
               levels.islandB.z := b.z ||| (b.zen &&& BitVec.ofNat 8 (2 ^ n.toNat)) } = t →
      (a.standby = true → b.standby = true →
        exec (.stbyLatchSet dt (.zeroize n)) s = .next (s.left
          (if u.zeroize = false ∧ t.zeroize = true ∧ u.clocked = true then t.count fStandby 6 else t)) ∧
        exec (.stbyLatchSet dt (.discrepancy n)) s = .next (s.left
          { u with levels.islandA.q := a.q ||| (a.zen &&& BitVec.ofNat 8 (2 ^ n.toNat)),
                   levels.islandB.q := b.q ||| (b.zen &&& BitVec.ofNat 8 (2 ^ n.toNat)) }) ∧
        exec (.stbyLatchSet dt (.level line)) s = .next (s.left
          { u with levels.islandA.levels := a.levels ||| (a.lvEn &&& a.wakeMask &&& BitVec.ofNat 56 (2 ^ line.toNat)),
                   levels.islandB.levels := b.levels ||| (b.lvEn &&& b.wakeMask &&& BitVec.ofNat 56 (2 ^ line.toNat)) }) ∧
        exec (.stbyLatchSet dt .wake) s = .next (s.left
          { u with levels.islandA.wake := true, levels.islandB.wake := true })) ∧
      (a.standby = false → b.standby = false → ∀ source,
        exec (.stbyLatchSet dt source) s = .next (s.left u)))

/-! ### Cisterns and the outbound port (R234 to R258, R438, R456, R457) -/

/-- R240: the three reads of a fetch. A level-1 entry that is not valid leaves the cistern not open, a valid one asks for
the descriptor; a descriptor that is not valid leaves it not open, a bad one or one outside permitted memory breaks
it, a good one asks for the control block; a control block of another BOOT_ID leaves it not open, one of this BOOT_ID
opens it with its producer word and consumed count. A descriptor that points outside permitted memory is counted (R264), and
each update of the entry asks for the descriptor cache's memory (R453).
R242: a fetch step or a head read that fails counts an outbound error and breaks the cistern with REGION_FAULT; the
line and producer writes that fail break it with WRITE_FAULT, and a failed line's records go to the spillway.
The step that WALK_LAST names for a bad descriptor is a reading, log entry 50. -/
def Obligations.FetchStepsOpenOrBreakTheCistern : Prop :=
  (
    ∀ (s u w : State) (dt : Nat) (tag : BitVec 9) (a : OutAccess) (c : Nat) (x : Cached),
      s.elapse dt = u → u.awaits tag.toNat a → u.freeTag tag.toNat = w → u.cached c = some x →
      (∀ entry, a.req.kind = .level1 c → x.st = .level1 →
        (level1Idle entry = true → exec (.level1Response dt tag true entry) s = .next (s.left
          (w.setCached c (some { x with st := .notOpen })))) ∧
        (level1Idle entry = false → exec (.level1Response dt tag true entry) s = .next (s.left
          (((w.setCached c (some { x with st := .descriptor })).updateCached c 0).request (unitRead (.descriptor c) (descriptorAddr entry c) 0))))) ∧
      (∀ w0 w1 w2 w3, a.req.kind = .descriptor c → x.st = .descriptor →
        (dscValid w0 = false → exec (.descriptorResponse dt tag true w0 w1 w2 w3) s = .next (s.left
          (w.setCached c (some { x with st := .notOpen })))) ∧
        (dscValid w0 = true → descriptorBad w0 w1 w2 w3 = true →
          exec (.descriptorResponse dt tag true w0 w1 w2 w3) s = .next (s.left (w.breakCistern c 0x12 4 2))) ∧
        (dscValid w0 = true → descriptorBad w0 w1 w2 w3 = false → u.descriptorPermitted w0 w1 w2 = false →
          exec (.descriptorResponse dt tag true w0 w1 w2 w3) s = .next (s.left ((w.count fOut 6).breakCistern c 0x11 1 3))) ∧
        (dscValid w0 = true → descriptorBad w0 w1 w2 w3 = false → u.descriptorPermitted w0 w1 w2 = true →
          exec (.descriptorResponse dt tag true w0 w1 w2 w3) s = .next (s.left
            (((w.setCached c (some { x with st := .control, w0 := w0, w1 := w1, w2 := w2 })).updateCached c 0).request
              (unitRead (.control c) (dscCb w1) (dscOwner w2)))))) ∧
      (∀ consumed producer, a.req.kind = .control c → x.st = .control →
        (bits producer 63 48 ≠ u.pump.bootId.toNat → exec (.controlBlockResponse dt tag true consumed producer) s =
          .next (s.left (w.setCached c (some { x with st := .notOpen })))) ∧
        (bits producer 63 48 = u.pump.bootId.toNat → exec (.controlBlockResponse dt tag true consumed producer) s =
          .next (s.left ((w.setCached c (some
            { x with st := .opened, cross := BitVec.ofNat 16 (bits producer 47 32), total := loWord producer,
                     consumed := loWord consumed, dirty := false,
                     pinned := dscPin x.w0 && decide (u.pinnedIn (sliceOf c) < 256) })).updateCached c 0))))) ∧
  (
    ∀ (s u w : State) (dt : Nat) (tag : BitVec 9) (a : OutAccess) (c : Nat) (x : Cached) (d w0 w1 w2 w3 : DWord),
      s.elapse dt = u → u.awaits tag.toNat a → (u.freeTag tag.toNat).count fOut 5 = w → u.cached c = some x →
      (a.req.kind = .level1 c → x.st = .level1 →
        exec (.level1Response dt tag false d) s = .next (s.left (w.breakCistern c 0x11 2 1))) ∧
      (a.req.kind = .descriptor c → x.st = .descriptor →
        exec (.descriptorResponse dt tag false w0 w1 w2 w3) s = .next (s.left (w.breakCistern c 0x11 2 2))) ∧
      (a.req.kind = .control c → x.st = .control →
        exec (.controlBlockResponse dt tag false w0 w1) s = .next (s.left (w.breakCistern c 0x11 2 3))) ∧
      (a.req.kind = .head c → exec (.headReadResponse dt tag false d) s = .next (s.left (w.breakCistern c 0x11 2 3))) ∧
      (∀ word, a.req.kind = .producer c word →
        exec (.producerWriteResponse dt tag false) s = .next (s.left (w.breakCistern c 0x14 5 5))) ∧
      (∀ items, a.req.kind = .line c items →
        exec (.lineWriteResponse dt tag false) s = .next (s.left (w.failLine c items 0x14 5))))

/-- R245, R246: a head read's answer becomes the known consumed count, a fill above 2^L being taken as 2^L and counted,
and ends the refresh; a further refresh asked for meanwhile is made at once where the ring is still full. An answer for an
entry that has asked for none only ends its access.
R245, R246, R250: the pump's timers. A cistern at its float mark reads its head at each multiple of 256 × POLL FCLK, one
that holds a record every 256 FCLK; a record held for 256 × HOLD_LIMIT FCLK at a port's head is diverted with
RING_FULL while its ring is still full, and stays where a refresh has shown space; a coalesced notify becomes due after its time. Before its time none of them changes anything.
The refresh of a full ring, one for each append, is a reading, log entry 47. What becomes of an answer whose entry was evicted is the model's choice, log entries 77 and 78. -/
def Obligations.HeadReadsAndPumpTimers : Prop :=
  (
    ∀ (s u w : State) (dt : Nat) (tag : BitVec 9) (a : OutAccess) (c : Nat) (x y : Cached) (consumed : DWord) (v : Word),
      s.elapse dt = u → u.awaits tag.toNat a → a.req.kind = .head c → u.cached c = some x → u.freeTag tag.toNat = w →
      (x.headOut = false → exec (.headReadResponse dt tag true consumed) s = .next (s.left w)) ∧ (x.headOut = true →
      (if x.size < (x.total - loWord consumed).toNat then x.total - BitVec.ofNat 32 x.size else loWord consumed) = v →
      { x with consumed := v, headOut := false, wanted := false, asked := false,
               fresh := if x.asked || x.held.isSome then some x.total else none } = y →
      ((x.wanted = false ∨ y.fill < y.size) →
        exec (.headReadResponse dt tag true consumed) s = .next (s.left
          ((if x.size < (x.total - loWord consumed).toNat then w.count fPump 12 else w).setCached c (some y)))) ∧
      (x.wanted = true → y.size ≤ y.fill →
        exec (.headReadResponse dt tag true consumed) s = .next (s.left
          (((if x.size < (x.total - loWord consumed).toNat then w.count fPump 12 else w).setCached c
            (some { y with asked := x.asked, fresh := none })).headRead c))))) ∧
  (
    ∀ (s u : State) (dt : Nat) (cistern : BitVec 15) (c : Nat) (x : Cached),
      s.elapse dt = u → u.running = true → cistern.toNat = c → u.cached c = some x →
      (x.floatUp = true → u.clock.edge % (256 * atLeast1 (bits (u.sampled.reg fPump 0x20) 15 8)) = 0 →
        exec (.floatPoll dt cistern) s = .next (s.left (u.headRead c))) ∧
      ((x.floatUp = false ∨ u.clock.edge % (256 * atLeast1 (bits (u.sampled.reg fPump 0x20) 15 8)) ≠ 0) →
        exec (.floatPoll dt cistern) s = .next (s.left u)) ∧
      (∀ r since, x.held = some (r, since) →
        (since < u.clock.dp → (u.clock.dp - since) % 256 = 0 →
          exec (.holdRefresh dt cistern) s = .next (s.left (u.headRead c))) ∧
        ((u.clock.dp - since) % 256 ≠ 0 → exec (.holdRefresh dt cistern) s = .next (s.left u)) ∧
        (u.clock.dp < since + 256 * atLeast1 (bits (u.sampled.reg fPump 0x20) 7 0) →
          exec (.holdLimitExpire dt cistern) s = .next (s.left u)) ∧
        (x.fill < x.size → exec (.holdLimitExpire dt cistern) s = .next (s.left u)) ∧
        (∀ p id, x.size ≤ x.fill → since + 256 * atLeast1 (bits (u.sampled.reg fPump 0x20) 7 0) ≤ u.clock.dp → r.source = some (p, id) →
          (u.port p).normal.any (fun d => decide (d.id = id)) = true →
          exec (.holdLimitExpire dt cistern) s = .next (s.left
            ((u.unhold c).divertHead p id 0x13)))) ∧
      (∀ t, x.coalAt = some t →
        (x.st = .opened → dscCoalTime x.w2 ≠ 0 → t + 64 * dscCoalTime x.w2 ≤ u.clock.dp →
          exec (.coalTimerExpire dt cistern) s = .next (s.left
            ((u.setCached c (some { x with coal := 0, coalAt := none, due := x.due ++ [(x.total - 1).toNat] })).fireDue c))) ∧
        (u.clock.dp < t + 64 * dscCoalTime x.w2 → exec (.coalTimerExpire dt cistern) s = .next (s.left u))))

/-- R236, R244, R253, R457: the record at the head of a slice's local queue, or the first of its miss queue whose cistern's
fetch has ended, is appended to its cistern, joins the miss queue, waits, or leaves for the spillway with the cistern's
reason: there it stays at its source until the spillway takes it.
R234, R253, R457: the spillway's append slot takes a port's fast fault record, or the oldest record made inside the
block: at its index with its time, counted by its reason, or dropped and counted where the spillway is full, disabled
or dead; a record that must wait stays.
Where a diverted record waits is a reading, log entry 76. What uses a cache entry is the model's choice, log entry 98. -/
def Obligations.RecordsAreAppendedInOrder : Prop :=
  (
    ∀ (s u : State) (dt : Nat) (slice : BitVec 2) (sl c : Nat) (r : Rec) (rest : List (Nat × Rec)),
      s.elapse dt = u → u.running = true → slice.toNat = sl → u.pagesSound →
      (u.localQ sl = (c, r) :: rest → look none u.pump.lastLocal sl ≠ some u.clock.dp →
        (r.leaves = true →
          (∀ t, u.spillTake r = some t → exec (.cisternAppend dt (.localQueue slice) cleanRead) s = .next (s.left
            { t.setLocalQ sl rest with pump.lastLocal := ins none t.pump.lastLocal sl (some t.clock.dp) })) ∧
          (u.spillTake r = none → exec (.cisternAppend dt (.localQueue slice) cleanRead) s = .next (s.left
            (u.setLocalQ sl ((c, r) :: rest))))) ∧
        (∀ t, r.leaves = false → u.append c r (!u.missBefore c) false = .taken t →
          exec (.cisternAppend dt (.localQueue slice) cleanRead) s = .next (s.left
            { t.setLocalQ sl rest with pump.lastLocal := ins none t.pump.lastLocal sl (some t.clock.dp) })) ∧
        (∀ t w, r.leaves = false → u.append c r (!u.missBefore c) false = .missed t → t.pushMiss c r = w →
          exec (.cisternAppend dt (.localQueue slice) cleanRead) s = .next (s.left
            { w.setLocalQ sl rest with pump.lastLocal := ins none w.pump.lastLocal sl (some w.clock.dp) })) ∧
        (∀ t reason, r.leaves = false → u.append c r (!u.missBefore c) false = .diverted t reason →
          (∀ w, (t.unhold c).spillTake (r.as reason) = some w →
            exec (.cisternAppend dt (.localQueue slice) cleanRead) s = .next (s.left
              { w.setLocalQ sl rest with pump.lastLocal := ins none w.pump.lastLocal sl (some w.clock.dp) })) ∧
          ((t.unhold c).spillTake (r.as reason) = none →
            exec (.cisternAppend dt (.localQueue slice) cleanRead) s = .next (s.left
              ((t.unhold c).setLocalQ sl ((c, r.as reason) :: rest))))) ∧
        (∀ t, r.leaves = false → u.append c r (!u.missBefore c) false = .waits t →
          exec (.cisternAppend dt (.localQueue slice) cleanRead) s = .next (s.left t))) ∧
      (u.missQ sl = (c, r) :: rest → u.missIdle c = true →
        (∀ t, r.leaves = true → u.spillTake r = some t → exec (.cisternAppend dt (.missQueue slice) cleanRead) s = .next (s.left
          (u.leaveMiss sl c r r))) ∧
        (∀ t, r.leaves = false → u.append c r true true = .taken t →
          exec (.cisternAppend dt (.missQueue slice) cleanRead) s = .next (s.left (t.setMissQ sl ((t.missQ sl).erase (c, r))))) ∧
        (∀ t reason, r.leaves = false → u.append c r true true = .diverted t reason →
          exec (.cisternAppend dt (.missQueue slice) cleanRead) s = .next (s.left
            ((t.unhold c).leaveMiss sl c r (r.as reason)))) ∧
        (∀ t, r.leaves = false → rest = [] → u.append c r true true = .waits t →
          exec (.cisternAppend dt (.missQueue slice) cleanRead) s = .next (s.left t)))) ∧
  (
    ∀ (s u : State) (dt : Nat) (port : BitVec 4) (r : Rec) (rest : List Rec), s.elapse dt = u → u.running = true →
      ((u.port port.toNat).faultQueue = r :: rest →
        (u.spillTake r = none → exec (.spillwayAppend dt (.fast port)) s = .next (s.left u)) ∧
        (∀ t, u.spillTake r = some t → exec (.spillwayAppend dt (.fast port)) s = .next (s.left
          (t.modPort port.toNat fun x => { x with faultQueue := rest })))) ∧
      (∀ w : State, u.pump.spill.inside = r :: rest → { u with pump.spill.inside := rest } = w →
        (w.spillDrops = true → exec (.spillwayAppend dt .inside) s = .next (s.left ((w.settleRec r).countDenied.spillDrop))) ∧
        (w.spillDrops = false → w.spillReady = false → exec (.spillwayAppend dt .inside) s = .next (s.left u)) ∧
        (w.spillDrops = false → w.spillReady = true → (r.reason.toNat < 0x10 ∨ 0x16 < r.reason.toNat) → ∀ b,
          { index := w.pump.spill.total.toNat, time := w.stamp, appended := w.clock.edge, item := r : Buffered } = b →
          ∃ offered, exec (.spillwayAppend dt .inside) s = .next (s.left (State.count
            { w with pump.spill.total := w.pump.spill.total + 1, pump.spill.buffer := w.pump.spill.buffer ++ [b],
                     pump.spill.offered := offered, pump.spill.lastAppend := some w.clock.dp } fPump 4)))))

/-- R248, R249, R251, R253, R256: a written line's acknowledgement settles the doorbells of its records and makes due
notifies; it and an acknowledged producer word are kept for two checkpoint intervals.
R248, R251, R256, R438: the acknowledgement of a cistern's line always completes: its tag is free, its bytes are kept for two
checkpoint intervals, its records are no longer unacknowledged in their cistern's entry, and every doorbell among them is
settled. The acknowledgement of a producer word frees its tag and is kept, and changes nothing else.
R417, R418, R419, R430: the answer to an image access frees its tag. The first header that a running command asked for is kept,
and the header of its second slot is asked for; the acknowledgement of a save's tag ends the save with OK, counted and recorded,
whatever has changed since the tag was granted; an access that failed is counted and ends the command ABORTED. With no image
command running the answer only ends the access.
That an image is read one line at a time is a reading, log entry 28. -/
def Obligations.AcknowledgedAccessesEnd : Prop :=
  (
    ∀ (s u w : State) (dt : Nat) (tag : BitVec 9) (a : OutAccess),
      s.elapse dt = u → u.awaits tag.toNat a → u.freeTag tag.toNat = w →
      ((∃ c items, a.req.kind = .line c items) ∨ (∃ items, a.req.kind = .spill items) →
        exec (.lineWriteResponse dt tag true) s = .next (s.left ((w.lineDone a.req.kind).keepLine a))) ∧
      (∀ c word, a.req.kind = .producer c word →
        exec (.producerWriteResponse dt tag true) s = .next (s.left (w.keepLine a)))) ∧
  (
    ∀ (s u : State) (dt : Nat) (tag : BitVec 9) (a : OutAccess) (c : Nat) (left : List OutAccess),
      s.elapse dt = u → u.awaits tag.toNat a → u.pump.issued.filter (fun b => decide (b.tag ≠ tag.toNat)) = left →
      (∀ items, a.req.kind = .line c items → rising 0 u.ports = true → rising 0 u.pump.cache = true →
        ∃ t : State, exec (.lineWriteResponse dt tag true) s = .next (s.left t) ∧
          t.pump.issued = left ∧ (u.clock.edge, a) ∈ t.twin.recent ∧
          (∀ x, u.cached c = some x → ∃ y, t.cached c = some y ∧
            y.unacked = x.unacked.filter fun n => !(items.any fun b => decide ((b.index, b.appended) = n))) ∧
          (∀ b ∈ items, ∀ p id, b.item.source = some (p, id) → ∀ n ∈ (t.port p).unsettled, n.id ≠ id)) ∧
      (∀ word, a.req.kind = .producer c word →
        exec (.producerWriteResponse dt tag true) s = .next (s.left
          { u with pump.issued := left,
                   twin.recent := (u.twin.recent.filter fun e => decide (u.clock.edge ≤ e.1 + 512)) ++ [(u.clock.edge, a)] }))) ∧
  (
    ∀ (s u w : State) (dt : Nat) (tag : BitVec 9) (a : OutAccess) (write : Bool) (offset : Nat) (data : List Byte),
      s.elapse dt = u → u.awaits tag.toNat a → a.req.kind = .image write offset → u.freeTag tag.toNat = w →
      (u.startup.image = none → ∀ ok, exec (.imageSlotResponse dt tag ok data) s =
        .next (s.left (if ok then w else w.count fOut 5))) ∧
      (∀ r i, w.imageRun = some (r, i) → i.asked = true →
        (i.step = .headers → i.heads = [] → w.imageOut = false → data.length = 64 →
          exec (.imageSlotResponse dt tag true data) s = .next (s.left (State.request
            { w with startup.image := some { i with heads := [data], asked := true } }
            { kind := .image false 0, addr := r.cmd.slotAddr 1, host := 0, line := true, bytes := [] }))) ∧
        (i.step = .seal → hdLen i.header ≤ i.offset + (w.sealPiece i).length →
          exec (.imageSlotResponse dt tag true data) s =
            .next (s.left (w.imageOk false i.slot (hdGen i.header) (hdLen i.header)))) ∧
        exec (.imageSlotResponse dt tag false data) s = .next (s.left ((w.count fOut 5).imageFail i.restore stAborted))))

/-- R254, R255, R256, R417, R438: the grant takes the oldest rewrite of a failover, else the oldest tier-1 request that the
request channel can carry: permitted, it is counted, where it is no access of an image or of a re-pair, and stands on the
channel under the lowest free tag; not permitted, it is counted and handled as failed. The beat taken starts its access's
timeout; one beat is taken an edge, and a line that is written has a second. While the channel is busy nothing is granted. A
save that may no longer write its tag has asked for nothing.
R438, R456: an access unanswered 65,536 FCLK after it was taken is counted and handled as failed, keeping its tag,
which its late answer frees; a beat that names no access is counted and changes nothing else.
Answers of a freeze are held for the resume edge, log entry 9. -/
def Obligations.OutboundAccessesAreGrantedAndTimed : Prop :=
  (
    ∀ (s v u w : State) (dt : Nat), s.elapse dt = v → v.running = true → v.noteChange = u →
      (∀ q rest, u.pump.rewrites = q :: rest → u.canIssue false = true →
        exec (.outboundGrant dt) s = .next (s.left (u.grantRewrite q rest))) ∧
      (∀ q : OutReq, (u.pump.rewrites = [] ∨ u.canIssue false = false) →
        u.pump.tier1.find? (fun q => u.canIssue q.kind.isRead) = some q → q.kind.items? = none →
        { u with pump.tier1 := u.pump.tier1.erase q } = w →
        (∀ t t', w.reqPermitted q = true →
          { w with pump.issued := w.pump.issued ++ [{ req := q, tag := w.nextTag, takenAt := none, timedOut := false }],
                   pump.beat := some w.nextTag } = t →
          (if q.kind.isImage || q.kind.isStaging then t else t.count fOut (if q.kind.isRead then 4 else 3)) = t' →
          exec (.outboundGrant dt) s = .next (s.left (if q.kind.isHead then t'.count fPump 8 else t'))) ∧
        (w.reqPermitted q = false → exec (.outboundGrant dt) s = .next (s.left ((w.count fOut 6).accessFailed q.kind 2)))) ∧
      (u.pump.beat.isSome = true → exec (.outboundGrant dt) s = .next (s.left u)) ∧
      (v.pump.beatAt = some v.clock.dp → exec (.omRequestTaken dt) s = .next (s.left v)) ∧
      (v.pump.beatAt ≠ some v.clock.dp →
        (∀ tag a, v.pump.beat = some tag → v.access tag = some a →
          exec (.omRequestTaken dt) s = .next (s.left
            { v with pump.issued := v.pump.issued.map fun b => if b.tag = tag then { b with takenAt := some v.clock.dp } else b,
                     pump.beat := none, pump.second := if a.req.line = true ∧ a.req.kind.isRead = false then some tag else none,
                     pump.beatAt := some v.clock.dp })) ∧
        (v.pump.beat = none → exec (.omRequestTaken dt) s = .next (s.left
          { v with pump.second := none, pump.beatAt := some v.clock.dp })))) ∧
  (
    ∀ (s u w : State) (dt : Nat) (tag : BitVec 9) (a : OutAccess),
      s.elapse dt = u →
      (∀ t, u.running = true → u.access tag.toNat = some a → a.takenAt = some t → a.timedOut = false →
        (u.clock.dp < t + 65536 → exec (.outboundTimeout dt tag) s = .next (s.left u)) ∧
        (t + 65536 ≤ u.clock.dp →
          { u with pump.issued := u.pump.issued.map fun b => if b.tag = tag.toNat then { b with timedOut := true } else b } = w →
          exec (.outboundTimeout dt tag) s = .next (s.left ((w.count fOut 5).accessFailed a.req.kind 1)))) ∧
      (u.startup.inReset = false → u.frozen = false →
        (u.access tag.toNat = some a → a.timedOut = true → exec (.outboundLateAnswer dt tag) s = .next (s.left
          { u with pump.issued := u.pump.issued.filter fun b => decide (b.tag ≠ tag.toNat) })) ∧
        (u.access tag.toNat = none → ∀ read failed,
          exec (.omStrayResponse dt tag read failed) s = .next (s.left (u.count fOut 5)))) ∧
      (u.startup.inReset = false → u.frozen = true →
        exec (.outboundLateAnswer dt tag) s = .next (s.left
          { u with twin.answers := u.twin.answers ++ [.outboundLateAnswer 0 tag] })))

/-! ### The keeper (R289 to R319) -/

/-- R289, R295, R297, R298: between commands, at a KCLK edge, the round's winner is taken: its mailbox is RUNNING and its command
runs, or is answered with the status of its first failing check, a refusal being counted. A command of no items is answered OK.
The mailbox's and the keeper's memories are asked for (R453). A round off a KCLK edge, with no queued mailbox, or while a command runs that is not resumable, or
while an ended engine operation waits for its completion step, takes nothing. -/
def Obligations.MailboxRoundTakesTheWinner : Prop :=
  ∀ (s u v w : State) (dt box : Nat) (q : List Nat) (c : Cmd),
    s.elapse dt = u → u.running = true → u.keeperGoes = true → u.queuedBoxes = q →
    (u.keeper.run = none → u.clock.edge % 2 = 0 → u.engineReady = none → u.arbWinner 51 q = some box → u.arbCharge 51 box q [box] = v →
      look none v.keeper.submitted box = some c → c.host = box →
      ((State.setBox { v with keeper.submitted := ins none v.keeper.submitted box none } box
        { v.box box with st := .running }).askUnit 6 1 0).askUnit 5 0 0 = w →
      (c.unreadable = true → exec (.mailboxRound dt) s = .next (s.left (w.done c stUncorr []))) ∧
      (c.unreadable = false → w.check c = .proceed → exec (.mailboxRound dt) s = .next (s.left (w.setRun (Run.start c)))) ∧
      (∀ st, c.unreadable = false → w.check c = .status st false →
        exec (.mailboxRound dt) s = .next (s.left (w.finish c st c.blank))) ∧
      (∀ st, c.unreadable = false → w.check c = .status st true →
        exec (.mailboxRound dt) s = .next (s.left ((w.count fKeeper 4).finish c st []))) ∧
      (∀ st, c.unreadable = false →
        ((4088 < c.len ∧ st = stLength) ∨ (c.len ≤ 4088 ∧ opInfo c.opcode.toNat = none ∧ st = stRange) ∨
          (∃ i, c.len ≤ 4088 ∧ opInfo c.opcode.toNat = some i ∧ (c.top ≠ 0#8 ∨ c.flags.toNat &&& (255 - i.flags) ≠ 0) ∧ st = stRange) ∨
          (∃ i, c.len ≤ 4088 ∧ opInfo c.opcode.toNat = some i ∧ c.top = 0#8 ∧ c.flags = 0#8 ∧ i.h0 = true ∧ c.host ≠ 0 ∧ st = stDenied)) →
        exec (.mailboxRound dt) s = .next (s.left ((w.count fKeeper 4).finish c st [])))) ∧
    (u.keeper.run = none → (u.clock.edge % 2 ≠ 0 ∨ u.engineReady ≠ none ∨ u.arbWinner 51 q = none) → exec (.mailboxRound dt) s = .next (s.left u)) ∧
    (∀ r, u.keeper.run = some r → opGroup r.cmd.opcode.toNat = none → exec (.mailboxRound dt) s = .next (s.left u))

/-- R303, R304, R307: a resume token that names the host's live token of the same opcode continues the preempted command
with the new sequence number and is consumed; TOKEN_DROP of a named token voids it; each answers STALE otherwise. A token
not resumed within 1,250 SCLK periods is voided.
That STEP is not compared is a reading, log entry 83; how an interval of SCLK periods is counted, log entry 89. -/
def Obligations.TokensResumeDropAndExpire : Prop :=
  ∀ (s u : State) (dt : Nat) (r : Run) (host : Nat), s.elapse dt = u → u.running = true → u.clock.edge % 2 = 0 → r.cmd.host = host →
    (u.keeperGoes = true → u.keeper.run = some r → r.phase = .fresh → r.cmd.resumes = true →
      (∀ t, u.tokenNamed host (r.cmd.slice 0 8) = some t → t.opcode = r.cmd.opcode →
        exec (.commandResume dt) s = .next (s.left
          ((u.setToken host none).setRun { t.run with cmd := { t.run.cmd with seq := r.cmd.seq } }))) ∧
      ((∀ t, u.tokenNamed host (r.cmd.slice 0 8) = some t → t.opcode ≠ r.cmd.opcode) →
        exec (.commandResume dt) s = .next (s.left (u.endZero stStale)))) ∧
    (u.runOf 0x02 .fresh = some r →
      ((u.tokenNamed host (r.cmd.slice 0 8)).isSome = true →
        exec (.tokenDrop dt) s = .next (s.left ((u.voidToken host).endRun stOk []))) ∧
      (u.tokenNamed host (r.cmd.slice 0 8) = none →
        exec (.tokenDrop dt) s = .next (s.left (u.endRun stStale [])))) ∧
    (∀ t, u.token host = some t →
      u.tokenNamed host (r.cmd.slice 0 8) = if ((r.cmd.slice 0 8).take 8).drop 4 =
        [BitVec.ofNat 8 host, t.opcode] ++ leBytes 2 t.tokenId.toNat then some t else none) ∧
    (∀ (mb : BitVec 6) t, u.token mb.toNat = some t →
      (u.slowRan t.issued 1250 = true → exec (.tokenExpire dt mb) s = .next (s.left (u.voidToken mb.toNat))) ∧
      (u.slowRan t.issued 1250 = false → exec (.tokenExpire dt mb) s = .next (s.left u)))

/-- R300, R301, R306, R318: a service point restarts the watchdog and takes and completes the INTIDs presented to T256, a
fast one preempting a resumable command between its steps. Without a service point for 65,536 KCLK the watchdog
cuts the running command short with ABORTED, and the keeper restarts; a third expiry within 1,250 SCLK holds it.
Random words not received within 625,000 KCLK end the command with ABORTED.
R319: a restarted keeper whose ROM check passes goes on at its next service point, and the engine's head starts; one
whose check fails, and a keeper that is not restarting, stay as they are.
That poisoned keeper RAM is met at a service point is a reading, log entry 36. -/
def Obligations.ServicePointsAndKeeperTimers : Prop :=
  (
    ∀ (s u : State) (dt : Nat), s.elapse dt = u → u.running = true → u.keeperAlive = true →
      (∀ w : State, u.clock.edge % 2 = 0 → u.ramPoisoned = false →
        ((((State.keeperTake { u with keeper.serviceAt := u.clock.dp } false).keeperTake true).keeperComplete true).keeperComplete
          false) = w →
        (u.seenF 256 = none → exec (.keeperServicePoint dt) s = .next (s.left w)) ∧
        (∀ r, u.seenF 256 ≠ none → w.keeper.run = some r → (opGroup r.cmd.opcode.toNat).isSome = true → r.cmd.resumes = false →
          r.phase ≠ .fresh → r.granted = none → exec (.keeperServicePoint dt) s = .next (s.left w.preempt))) ∧
      (u.clock.dp < u.keeper.serviceAt + 131072 → exec (.watchdogExpire dt) s = .next (s.left u)) ∧
      (∀ (r : Run) (v w : State) (recent : List Nat), u.keeper.serviceAt + 131072 ≤ u.clock.dp → u.startup.image = none →
        u.keeper.run = some r → u.keeper.engine = [] → u.keeper.tokens = [] → u.keeper.staged = none →
        (u.event fKeeper 6 144).abandon r.cmd.opcode.toNat = v →
        State.done { v with keeper.run := none, keeper.engine := [], keeper.fetch := none, keeper.words := [], keeper.wordsAt := none, keeper.digesting := false }
          r.cmd stAborted [] = w →
        (u.keeper.expiries.filter fun t => !u.slowRan t 1250) ++ [u.slowMark] = recent →
        exec (.watchdogExpire dt) s = .next (s.left
          { w with keeper.expiries := recent, keeper.restarting := true, keeper.restartAt := w.clock.dp,
                   keeper.held := w.keeper.held || decide (3 ≤ recent.length) })) ∧
      (∀ (r : Run), u.keeper.run = some r → r.cmd.opcode ≠ 0x13#8 → r.cmd.opcode ≠ 0x50#8 → u.keeper.engine = [] →
        u.twin.repair = none →
        (∀ t, r.phase = .random → r.askedAt = some t → t + 1250000 ≤ u.clock.dp →
          exec (.randomWaitTimeout dt) s = .next (s.left (u.endZero stAborted))) ∧
        ((r.phase ≠ .random ∨ ∃ t, r.askedAt = some t ∧ u.clock.dp < t + 1250000) →
          exec (.randomWaitTimeout dt) s = .next (s.left u)))) ∧
  (
    ∀ (s u : State) (dt : Nat), s.elapse dt = u → u.startup.ready = true →
      (u.keeper.restarting = true → exec (.keeperRestartDone dt true) s = .next (s.left
        (State.startHead { u with keeper.restarting := false, keeper.serviceAt := u.clock.dp }))) ∧
      exec (.keeperRestartDone dt false) s = .next (s.left u) ∧
      (u.keeper.restarting = false → exec (.keeperRestartDone dt true) s = .next (s.left u)))

/-- R292, R294, R323: a command that ends with OK has its result in its mailbox: DONE, the opcode and status in the first
bytes, the length, its sequence number, then the result's bytes, and the pages of the mailbox are clean; the keeper
is free for its next command. -/
def Obligations.CommandResultsAreWrittenToTheMailbox : Prop :=
  ∀ (s u : State) (dt : Nat) (r : Run), s.elapse dt = u → u.running = true → u.runOf 0x00 .fresh = some r → r.cmd.host < 64 →
    rising 0 u.keeper.boxes = true → bit (u.reg fKeeper (0x800 + 4 * r.cmd.host)) 31 = false →
    ∃ (t : State) (m : Mailbox), exec (.nop dt) s = .next t ∧ t.box r.cmd.host = m ∧ m.st = .done ∧ m.opcode = (u.box r.cmd.host).opcode ∧
      look 0#8 m.bytes 0 = r.cmd.opcode ∧ look 0#8 m.bytes 1 = 0#8 ∧ look 0#8 m.bytes 2 = 0#8 ∧ look 0#8 m.bytes 3 = 0#8 ∧
      look 0#8 m.bytes 4 = r.cmd.seq.setWidth 8 ∧ look 0#8 m.bytes 5 = (r.cmd.seq >>> 8).setWidth 8 ∧
      (∀ a, 8 ≤ a → look 0#8 m.bytes a = 0#8) ∧ t.keeper.run = none ∧
      (∀ n, n ≠ r.cmd.host → t.box n = u.box n)

/-- R293, R307, R311, R313 to R316, R345, R347: the commands that report return OK and their fields at their own edge.
A digest of the stores reads their pages first, a page a grant (R154), and answers once they are read; a poisoned page ends
it with UNCORRECTABLE.
The fuse contents behind the fields are those of log entry 8, the digests those of the standards, log entry 20. -/
def Obligations.ReportCommandsReturnTheirFields : Prop :=
  ∀ (s u : State) (dt : Nat) (r : Run), s.elapse dt = u → u.running = true →
    (u.runOf 0x00 .fresh = some r → exec (.nop dt) s = .next (s.left (u.endRun 0x00 []))) ∧
    (u.runOf 0x01 .fresh = some r → exec (.keeperInfo dt) s = .next (s.left (u.endRun 0x00
      (leBytes 4 keepVersion.toNat ++ leBytes 1 u.lifecycle ++
        leBytes 1 ((if u.anyMarg then 1 else 0) + (if u.levels.rndHealth then 0 else 2) + (if u.keeper.staged.isSome then 4 else 0)) ++
        leBytes 1 u.userEpoch ++ [0#8] ++ leBytes 4 u.sampled.clock.sclkCount.toNat ++ leBytes 2 u.pump.bootId.toNat ++ [0#8, 0#8])))) ∧
    (u.runOf 0x40 .fresh = some r → u.front.snapAt ≠ some u.clock.edge → exec (.snapshot dt) s = .next (s.left
      (u.takeSnapshot.endRun 0x00 (leBytes 4 (u.front.snapSeq + 1).toNat)))) ∧
    (u.runOf 0xA0 .fresh = some r → exec (.twinStatus dt) s = .next (s.left (u.endRun 0x00
      (leBytes 1 u.twin.pair.code ++ leBytes 1 (if u.twin.leadB then 1 else 0) ++ leBytes 1 (min u.twin.retries 3) ++ [0#8] ++
        leBytes 4 (u.countOf fTwin 3) ++ leBytes 1 (bits u.twin.lastEvent 30 28) ++ [0#8, 0#8, 0#8])))) ∧
    (u.runOf 0x62 .fresh = some r →
      (u.keeper.staged = none → exec (.stageStatus dt) s = .next (s.left (u.endRun 0x00 (List.replicate 76 0#8)))) ∧
      (∀ g, u.keeper.staged = some g → exec (.stageStatus dt) s = .next (s.left (u.endRun 0x00
        (leBytes 4 g.stageId.toNat ++ [g.kind, BitVec.ofNat 8 g.approvals.length] ++ [0#8, 0#8] ++
          leBytes 4 g.windowEnd.toNat ++ g.nonce ++ g.digest))))) ∧
    (u.runOf 0x71 .fresh = some r → exec (.officerList dt) s = .next (s.left (u.endRun 0x00
      (leBytes 1 u.occupied ++ [0#8, 0#8, 0#8] ++ u.slotDigest ++ ((List.range 8).map u.slotBytes).flatten)))) ∧
    (u.runOf 0x81 .fresh = some r →
      (u.anyMarg = true → exec (.certRead dt) s = .next (s.left (u.endZero 0x0C))) ∧
      (u.anyMarg = false → exec (.certRead dt) s = .next (s.left (u.endRun 0x00
        (leBytes 2 u.certificate.length ++ [0#8, 0#8] ++ u.certificate))))) ∧
    (u.runOf 0x90 .fresh = some r → exec (.sha256 dt) s = .next (s.left (u.endRun 0x00 (Sys2Proof.Machine.sha256 r.cmd.payload)))) ∧
    (u.runOf 0x91 .fresh = some r → ∀ scope found, ofLe (r.cmd.payload.take 1) = scope →
      (scope = 8 → exec (.configDigest dt found) s = .next (s.left (u.endRun 0x00 u.slotDigest))) ∧
      (scope = 4 → exec (.configDigest dt found) s = .next (s.left (u.endRun 0x00 u.vaultDigest))) ∧
      (scope = 12 → exec (.configDigest dt found) s = .next (s.left (u.endRun 0x00 (u.vaultDigest ++ u.slotDigest)))) ∧
      ((scope.testBit 0 = true ∨ scope.testBit 1 = true) → exec (.configDigest dt found) s = .next (s.left
        (State.setRun { u with keeper.digesting := true } { r with phase := .items, step := 0 })))) ∧
    (u.runOf 0x91 .items = some r → ∀ scope, ofLe (r.cmd.payload.take 1) = scope →
      (u.digestNext.isSome = true → ∀ found, exec (.configDigest dt found) s = .next (s.left u)) ∧
      (u.digestAt = none →
        (scope = 1 → exec (.configDigest dt []) s = .next (s.left (u.endRun 0x00 u.routeDigest))) ∧
        (scope = 2 → exec (.configDigest dt []) s = .next (s.left (u.endRun 0x00 u.rightsDigest))) ∧
        (scope = 15 → exec (.configDigest dt []) s = .next (s.left (u.endRun 0x00
          (u.routeDigest ++ (u.rightsDigest ++ (u.vaultDigest ++ u.slotDigest))))))) ∧
      (u.digestAt.isSome = true → u.digestNext = none → ∀ found, exec (.configDigest dt found) s = .next (s.left
        ((u.count fIntegrity 8).endRun 0x08 (zeros ((u.count fIntegrity 8).digestsOf scope).length)))))

/-! ### Keeper commands (R134 to R161, R258, R272 to R276, R311 to R350, R417 to R425) -/

/-- R134, R157, R194, R205, R214: a table command whose checks fail ends with the status of the first failing check and no item
written; H0's, its checks passed, writes: a route or rights command reserves its first commit-shadow entry, or counts
a wait for one; a fast-table command writes its first item at this edge, and ends with its last; a group command takes up
its items, each written at its write edge under a locked sequence.
The order of the checks over the items is a reading, log entry 21; one row for the items of FAST_WRITE and GROUP_WRITE is the model's choice, log entry 37. -/
def Obligations.TableCommandsCheckThenWriteTheirItems : Prop :=
  ∀ (s u : State) (dt : Nat) (r : Run), s.elapse dt = u → u.running = true →
    (∀ w : State, u.runOf 0x10 .fresh = some r →
      (if routeShapes r.cmd = stOk then u.ftReads (((r.cmd.itemList 12).filter fun i => rtClass (riEntry i)).map riIntid) else u) = w →
      (∀ st, u.routeChecks r.cmd = st → st ≠ stOk → exec (.routeWrite dt) s = .next (s.left (w.endCount st 0))) ∧
      (u.routeChecks r.cmd = stOk → r.cmd.items = 1 → r.step = 0 → r.cmd.host = 0 →
        (w.gate.shadow.length < 16 → exec (.routeWrite dt) s = .next (s.left (State.setRun
          { w with gate.shadow := w.gate.shadow ++ [{ rights := decide (r.cmd.opcode = 0x20#8), idx := 0, old := 0#128, edge := none }] }
          { r with step := 1, phase := .items, todo := r.cmd.itemList 12, written := 0, granted := none, marked := true }))) ∧
        (16 ≤ w.gate.shadow.length → exec (.routeWrite dt) s = .next (s.left (State.count (w.setRun
          { r with step := 1, phase := .items, todo := r.cmd.itemList 12, written := 0, granted := none, marked := false }) fGate 7))))) ∧
    (u.runOf 0x20 .fresh = some r →
      (∀ st, u.rightsChecks r.cmd = st → st ≠ stOk → exec (.rightsWrite dt) s = .next (s.left (u.endCount st 0))) ∧
      (u.rightsChecks r.cmd = stOk → u.gate.shadow.length < 16 → exec (.rightsWrite dt) s = .next (s.left (State.setRun
          { u with gate.shadow := u.gate.shadow ++ [{ rights := decide (r.cmd.opcode = 0x20#8), idx := 0, old := 0#128, edge := none }] }
          { r with phase := .items, todo := r.cmd.itemList 20, written := 0, granted := none, marked := true })))) ∧
    (u.runOf 0x11 .fresh = some r → ∀ v w : State,
      (if fastShapes r.cmd = stOk then u.ftReads (((r.cmd.itemList 4).filter fun i => !fiEn i).map fiIntid) else u) = v →
      (∀ st, u.fastChecks r.cmd = st → st ≠ stOk → exec (.fastWrite dt) s = .next (s.left (v.endCount st 0))) ∧
      (∀ i rest, u.fastChecks r.cmd = stOk → r.cmd.itemList 4 = i :: rest →
        (v.setFastEn (ofLe i % 2 ^ 17) (decide (2 ^ 31 ≤ ofLe i))).count fFast 8 = w →
        exec (.fastWrite dt) s = .next (s.left
          (let v := w.setRun { r with phase := .items, todo := rest, written := 1, granted := some w.clock.edge, marked := false }
           if rest = [] then v.endCount stOk 1 else v)))) ∧
    (u.runOf 0x12 .fresh = some r → ∀ pages,
      (∀ st, u.groupChecks r.cmd = st → st ≠ stOk → exec (.groupWrite dt pages) s = .next (s.left (u.endCount st 0))) ∧
      (u.groupChecks r.cmd = stOk → exec (.groupWrite dt pages) s = .next (s.left (u.setRun
        { r with phase := .items, todo := r.cmd.itemList 8, written := 0, granted := none, marked := false })))) ∧
    (u.runOf 0x12 .items = some r → ∀ (w : State) i rest g, r.todo = i :: rest → u.pagesSound →
      (r.granted = none → exec (.groupWrite dt [cleanRead]) s = .next (s.left u)) ∧
      (r.granted = some g → u.clock.dp < g + 3 → exec (.groupWrite dt [cleanRead]) s = .next (s.left u)) ∧
      (r.granted = some g → g + 3 ≤ u.clock.dp → ((u.groupItem i).wroteWhole 3 (giGroup i / 4)).unlock 3 0 = w →
        exec (.groupWrite dt [cleanRead]) s = .next (s.left
          (let v := w.setRun { r with todo := rest, written := r.written + 1, granted := none }
           if rest = [] then v.endCount stOk (r.written + 1) else v))))

/-- R161, R394, R398, R304: ROUTE_REKEY asks for the rekeys it names and waits for their random words; SCRUB starts its
pass over the stores it names; STRENGTH_SET checks its target and its stores, and re-encodes those not yet at it.
Each is BUSY while another mailbox holds a token of its group.
One re-encode journal is a reading, log entry 23. -/
def Obligations.RekeyScrubAndStrengthStart : Prop :=
  ∀ (s u : State) (dt : Nat) (r : Run), s.elapse dt = u → u.running = true →
    (u.runOf 0x13 .fresh = some r →
      ((∃ h ∈ u.tokensOf 0, h ≠ r.cmd.host) → exec (.routeRekey dt) s = .next (s.left (u.endZero stBusy))) ∧
      (u.tokensOf 0 = [] → r.cmd.field 0 1 = 1 →
        (u.routes.rt.migActive = true ∨ u.spaced u.routes.rt = false →
          exec (.routeRekey dt) s = .next (s.left (u.endZero stBusy))) ∧
        (u.routes.rt.migActive = false → u.spaced u.routes.rt = true →
          exec (.routeRekey dt) s = .next (s.left
            { u with routes.rt.asked := true,
                     keeper.run := some { r with phase := .random, step := max r.step 1, askedAt := some u.clock.dp }, keeper.words := [], keeper.wordsAt := some u.clock.dp })))) ∧
    (u.runOf 0x41 .fresh = some r →
      ((∃ h ∈ u.tokensOf 1, h ≠ r.cmd.host) ∨ u.twin.repair.isSome = true → exec (.scrub dt) s = .next (s.left (u.endZero stBusy))) ∧
      (u.tokensOf 1 = [] → u.reencodeHolds = false → u.twin.repair = none → r.cmd.field 0 2 ≠ 0 →
        exec (.scrub dt) s = .next (s.left
          { u with integrity.pass := some (ScrubPass.start ((List.range 7).filter fun i => (r.cmd.field 0 2).testBit i)),
                   keeper.run := some { r with phase := .waiting } }))) ∧
    (u.runOf 0x41 .waiting = some r → ∀ p, u.integrity.pass = some p → u.passDone p = true →
      exec (.scrub dt) s = .next (s.left
        (let v : State := { u.setRun { r with step := p.pages } with integrity.pass := none }
         v.endRun stOk (v.scrubSummary (r.cmd.field 0 2) p)))) ∧
    (u.runOf 0x42 .fresh = some r → ∀ mask t, r.cmd.field 0 2 = mask → r.cmd.field 2 1 = t →
      (t ≠ 2 → t ≠ 4 → t ≠ 6 → t ≠ 8 → exec (.strengthSet dt) s = .next (s.left (u.endZero stRange))) ∧
      (t = 2 ∨ t = 4 ∨ t = 6 ∨ t = 8 →
        (mask.testBit 5 = true ∨ mask.testBit 6 = true → exec (.strengthSet dt) s = .next (s.left (u.endZero stDenied))) ∧
        (mask.testBit 5 = false → mask.testBit 6 = false → u.twin.repair.isSome = true →
          exec (.strengthSet dt) s = .next (s.left (u.endZero stBusy))) ∧
        (∀ store rest, mask.testBit 5 = false → mask.testBit 6 = false → u.twin.repair = none → u.tokensOf 1 = [] →
          u.integrity.journal = none → ((List.range 7).filter fun i => mask.testBit i && decide (u.strengthOf i ≠ t)) = store :: rest →
          exec (.strengthSet dt) s = .next (s.left
            { u with keeper.run := some { r with phase := .items, acc := [0] },
                     integrity.strength := ins 4 u.integrity.strength store t,
                     integrity.journal := some { store := store, oldT := u.strengthOf store, newT := t, next := 0, target := t, rest := rest, olds := [], running := true } }))))

/-- R258: a cistern command's numbers are checked, RANGE for 0, a number above 32,767 or a number named twice. H0's
CISTERN_OPEN then fetches its first descriptor afresh; CISTERN_CLOSE of an open cistern offers its buffered records
and stops its appends; CISTERN_SYNC of a cached one offers them; CISTERN_FLUSH makes due the notify of an open cistern
that counts one; an item that needs nothing is counted and the command ends after its last.
That items go one after another, and that OPEN ends as its write is issued, are readings, log entries 22 and 48. Records buffered across an OPEN, and a CLOSE with no free entry, are the model's choices, log entries 100 and 101. -/
def Obligations.CisternCommandsFollowTheirItems : Prop :=
  ∀ (s u : State) (dt : Nat) (r : Run) (c : Nat), s.elapse dt = u → u.running = true →
    (∀ i, r.cmd.itemList 4 = [i] → ofLe (i.take 4) = c → (c = 0 ∨ 32767 < c) →
      (u.runOf 0x30 .fresh = some r → exec (.cisternOpen dt) s = .next (s.left (u.endCount stRange 0))) ∧
      (u.runOf 0x31 .items = none → u.runOf 0x31 .fresh = some r → exec (.cisternClose dt) s = .next (s.left (u.endCount stRange 0))) ∧
      (u.runOf 0x32 .items = none → u.runOf 0x32 .fresh = some r → exec (.cisternSync dt) s = .next (s.left (u.endCount stRange 0))) ∧
      (u.runOf 0x33 .items = none → u.runOf 0x33 .fresh = some r → exec (.cisternFlush dt) s = .next (s.left (u.endCount stRange 0)))) ∧
    (∀ i x, r.cmd.itemList 4 = [i] → ofLe (i.take 4) = c → c ≠ 0 → c ≤ 32767 → r.cmd.host = 0 → u.cached c = some x → x.st = .opened →
      (u.runOf 0x30 .fresh = some r → exec (.cisternOpen dt) s = .next (s.left (State.setRun
        (({ u with keeper.fetch := some { cistern := c, w0 := 0#64, w1 := 0#64, w2 := 0#64, consumed := 0#64, producer := 0#64, ended := none } : State }.count
          fPump 9).request (unitRead (.cmdLevel1 c) (u.level1Addr c) 0))
        { r with step := 0, phase := .engine, marked := true, acc := [] }))) ∧
      (u.runOf 0x31 .fresh = some r → x.coal = 0 → exec (.cisternClose dt) s = .next (s.left (State.setRun
        ((u.setCached c (some { x with offered := !x.buffer.isEmpty, closing := true })).fireDue c)
        { r.beginItems 4 with step := 1 }))) ∧
      (u.runOf 0x32 .fresh = some r → exec (.cisternSync dt) s = .next (s.left (State.setRun
        (u.setCached c (some { x with offered := !x.buffer.isEmpty, syncing := true }))
        { r.beginItems 4 with step := 1 }))) ∧
      (u.runOf 0x33 .fresh = some r → x.coal = 0 → exec (.cisternFlush dt) s = .next (s.left (State.endCount (u.setRun
        { r.beginItems 4 with todo := [], written := 1, granted := some u.clock.edge }) stOk 1))) ∧
      (∀ w, u.runOf 0x33 .fresh = some r → x.coal ≠ 0 →
        (u.setCached c (some { x with coal := 0, coalAt := none, due := x.due ++ [(x.total - 1).toNat] })).fireDue c = w →
        exec (.cisternFlush dt) s = .next (s.left (State.endCount (w.setRun
          { r.beginItems 4 with todo := [], written := 1, granted := some w.clock.edge }) stOk 1)))) ∧
    (∀ i, u.runOf 0x32 .items = some r → r.todo = [i] → ofLe (i.take 4) = c → u.cached c = none →
      exec (.cisternSync dt) s = .next (s.left (State.endCount
        (u.setRun { r with todo := [], written := r.written + 1, step := 0, marked := false }) stOk (r.written + 1))))

/-- R417, R418: an image command is refused RANGE for slots that are misaligned, overlapping, too small or outside permitted
memory, and BUSY during a re-pair attempt, each recorded in IMAGE_LAST; one that passes its checks waits and reads the
header of its first slot, a save of an image that fits its slots.
That an image is read one line at a time is a reading, log entry 28. When a change of a value ends a save is a reading, log entry 113. -/
def Obligations.ImageCommandsCheckTheirSlots : Prop :=
  ∀ (s u : State) (dt : Nat) (r : Run) (restore : Bool) (x : Instr), s.elapse dt = u → u.running = true →
    x = (if restore then .imageRestore dt else .imageSave dt) → u.runOf (if restore then 0x51 else 0x50) .fresh = some r →
    ((r.cmd.badSlots = true ∨ u.slotsOutside r.cmd = true) → exec x s = .next (s.left (State.endZero
      { u with startup.imageLast := imageWord restore 0 stRange 0 } stRange))) ∧
    (r.cmd.badSlots = false → u.slotsOutside r.cmd = false →
      (u.twin.repair.isSome = true → exec x s = .next (s.left (State.endZero
        { u with startup.imageLast := imageWord restore 0 stBusy 0 } stBusy))) ∧
      (u.twin.repair = none → u.tokensOf 2 = [] → u.startup.image = none → u.imageOut = false →
        (restore = false → r.cmd.slotSize < saveLen → exec x s = .next (s.left (State.endZero
          { u with startup.imageLast := imageWord restore 0 stLength 0 } stLength))) ∧
        ((restore = true ∨ saveLen ≤ r.cmd.slotSize) → exec x s = .next (s.left (State.request
          { u with keeper.run := some { r with phase := .waiting }, startup.image := some { Image.start restore with asked := true } }
          { kind := .image false 0, addr := r.cmd.slotAddr 0, host := 0, line := true, bytes := [] })))))

/-- R330, R332, R338: STAGE checks its change and waits for four random words, then records it with its nonce, the window's
end, the slots' and the message's digest; STAGE_CANCEL of the staged change's identifier ends it, of another is
answered STALE; the window's end expires it.
The byte order of the nonce is the model's choice, log entry 26. -/
def Obligations.StagedChangesAreRecordedCancelledAndExpired : Prop :=
  ∀ (s u : State) (dt : Nat) (r : Run) (g : Staged), s.elapse dt = u → u.running = true →
    (u.runOf 0x60 .fresh = some r →
      (∀ st, u.stageChecks r.cmd = st → st ≠ stOk → exec (.stage dt) s = .next (s.left (u.endZero st))) ∧
      (u.keeper.staged = some g → exec (.stage dt) s = .next (s.left (u.endZero stBusy))) ∧
      (u.keeper.staged = none → (bodyLen (r.cmd.field 0 1)).isSome = true → u.anyMarg = false → u.officers < 2 →
        exec (.stage dt) s = .next (s.left (u.endZero stDenied))) ∧
      (u.keeper.staged = none → r.cmd.field 0 1 = 4 → u.anyMarg = false → 2 ≤ u.officers → u.userEpoch < 64 →
        exec (.stage dt) s = .next (s.left
          { u with keeper.run := some { r with phase := .random, step := max r.step 1, askedAt := some u.clock.dp }, keeper.words := [],
                   keeper.wordsAt := some u.clock.dp }))) ∧
    (u.runOf 0x60 .random = some r → ∀ w0 w1 w2 w3, u.keeper.words.take 4 = [w0, w1, w2, w3] → r.cmd.field 0 1 ≠ 2 →
      u.stageRecord r.cmd [w0, w1, w2, w3] = g →
      g.nonce = leBytes 8 w0.toNat ++ (leBytes 8 w1.toNat ++ (leBytes 8 w2.toNat ++ leBytes 8 w3.toNat)) ∧
      g.windowEnd = u.sampled.clock.sclkCount + BitVec.ofNat 32 u.window ∧ g.slotDigest = u.slotDigest ∧ g.approvals = [] ∧
      exec (.stage dt) s = .next (s.left (State.endRun
        { u with keeper.staged := some g, keeper.nextStage := if u.keeper.nextStage = 0xFFFFFFFF#32 then 1#32 else u.keeper.nextStage + 1 }
        stOk g.result))) ∧
    (u.runOf 0x63 .fresh = some r → u.keeper.staged = some g →
      (r.cmd.field 0 4 = g.stageId.toNat → exec (.stageCancel dt) s = .next (s.left
        ((State.count { u with keeper.staged := none, keeper.endedStages := g.stageId :: u.keeper.endedStages } fLife 6).endRun stOk []))) ∧
      (r.cmd.field 0 4 ≠ g.stageId.toNat → exec (.stageCancel dt) s = .next (s.left (u.endRun stStale [])))) ∧
    (u.runOf 0x63 .fresh = some r → u.keeper.staged = none → exec (.stageCancel dt) s = .next (s.left (u.endRun stStale []))) ∧
    (u.keeper.staged = some g →
      ((u.sclkNow - g.windowEnd).toNat < 2147483648 → exec (.stageExpire dt) s = .next (s.left
        (State.count { u with keeper.staged := none, keeper.endedStages := g.stageId :: u.keeper.endedStages } fLife 5))) ∧
      (2147483648 ≤ (u.sclkNow - g.windowEnd).toNat → exec (.stageExpire dt) s = .next (s.left u)))

/-- R336, R337, R339: an approval at the head of the engine queue is checked and its verification starts; verified, the first
valid one is recorded, an invalid one voids the change, and a second one of another officer commits a change, counted
and raised: a vault route is written, an officer enrolled or removed.
P-256 is taken from its standard, log entry 20. -/
def Obligations.ApprovalsVerifyThenCommit : Prop :=
  ∀ (s u : State) (dt : Nat) (e : EngineEntry) (rest : List EngineEntry) (c : Cmd), s.elapse dt = u → u.running = true →
    u.keeperGoes = true → u.clock.edge % 2 = 0 → u.keeper.engine = e :: rest → e.run.cmd = c → c.opcode = 0x61#8 →
    (∀ v : State, e.started = none → c.unreadable = false → u.setBox c.host { u.box c.host with st := .running } = v →
      v.check c = .proceed →
      (∀ st, v.approveChecks c = st → st ≠ stOk →
        exec (.approve dt) s = .next (s.left (v.endEngine e st [0#8, 0#8, 0#8, 0#8]))) ∧
      (v.approveChecks c = stOk → exec (.approve dt) s = .next (s.left
        { v with keeper.engine := { e with started := some v.clock.dp, lasts := Config.verifyK } :: rest }))) ∧
    (∀ t g k, e.started = some t → e.ended = false → u.atBoundary = true → t + 2 * e.lasts ≤ u.clock.dp →
      u.keeper.staged = some g → 2147483648 ≤ (u.sclkNow - g.windowEnd).toNat → g.stageId.toNat = c.field 0 4 →
      u.officer (c.field 4 1) = some k →
      (verifySig k g.digest (ofBe (c.slice 8 32)) (ofBe (c.slice 40 32)) = false →
        exec (.approvalVerified dt) s = .next (s.left (u.voidStaged.endEngine e stBadSig [0#8, 0#8, 0#8, 0#8]))) ∧
      (verifySig k g.digest (ofBe (c.slice 8 32)) (ofBe (c.slice 40 32)) = true → g.approvals = [] →
        exec (.approvalVerified dt) s = .next (s.left (State.endEngine
          { u with keeper.staged := some { g with approvals := [c.field 4 1] } } e stOk [1#8, 0#8, 0#8, 0#8]))) ∧
      (∀ w, verifySig k g.digest (ofBe (c.slice 8 32)) (ofBe (c.slice 40 32)) = true → g.approvals ≠ [] →
        State.event { u with keeper.staged := none } fLife 3 146 = w →
        (g.kind = 1#8 → exec (.approvalVerified dt) s = .next (s.left (State.endEngine
          (w.setVaultRoute (bodyField g.body 0 1) (vaultEntry g.body)) e stOk [2#8, 1#8, 0#8, 0#8]))) ∧
        (g.kind = 2#8 → exec (.approvalVerified dt) s = .next (s.left (State.endEngine
          { w with keeper.officers := ins none w.keeper.officers (bodyField g.body 0 1) (some (keyOf (g.body.drop 4))) } e stOk
          [2#8, 1#8, 0#8, 0#8]))) ∧
        (g.kind = 3#8 → exec (.approvalVerified dt) s = .next (s.left (State.endEngine
          { w with keeper.officers := ins none w.keeper.officers (bodyField g.body 0 1) none } e stOk [2#8, 1#8, 0#8, 0#8])))))

/-- R297, R317, R328, R346: COMMISSION checks its slots and keys and queues two validations on the engine, at whose end the
two keys are enrolled; ATTEST reads the stores' pages, a page a grant, builds its report and waits for a nonce, then queues
the signing, and a poisoned page ends it with ABORTED; SELF_TEST queues its tests, and one that does not pass fails the
fabric. A marginal fuse array refuses ATTEST.
P-256 is taken from its standard, log entry 20; the failure of a self-test is a reading, log entry 30, and what makes one BUSY the model's choice, log entry 31. How the pages of a digest are read is a reading, log entry 67. -/
def Obligations.EngineCommandsQueueAndReturn : Prop :=
  ∀ (s u : State) (dt : Nat), s.elapse dt = u → u.running = true →
    (∀ (r : Run), u.runOf 0x70 .fresh = some r →
      ((7 < r.cmd.field 0 1 ∨ 7 < r.cmd.field 1 1 ∨ r.cmd.field 0 1 = r.cmd.field 1 1) →
        exec (.commission dt) s = .next (s.left (u.endZero stRange))) ∧
      (r.cmd.field 0 1 ≤ 7 → r.cmd.field 1 1 ≤ 7 → r.cmd.field 0 1 ≠ r.cmd.field 1 1 →
        (r.cmd.keyA = r.cmd.keyB → exec (.commission dt) s = .next (s.left (u.endZero stDenied))) ∧
        (r.cmd.keyA ≠ r.cmd.keyB → exec (.commission dt) s = .next (s.left
          (u.toEngine { r with phase := .engine } (2 * Config.validateK)))))) ∧
    (∀ (r : Run), u.runOf 0x80 .fresh = some r →
      ∀ found, (u.anyMarg = true → exec (.attest dt found) s = .next (s.left (u.endZero stMarginal))) ∧
      (u.anyMarg = false → exec (.attest dt found) s = .next (s.left
        (State.setRun { u with keeper.digesting := true } { r with phase := .items, step := 0 })))) ∧
    (∀ (r : Run), u.runOf 0x80 .items = some r →
      (u.digestNext.isSome = true → ∀ found, exec (.attest dt found) s = .next (s.left u)) ∧
      (u.digestAt.isSome = true → u.digestNext = none → ∀ found, exec (.attest dt found) s = .next (s.left
        ((u.count fIntegrity 8).endZero stAborted))) ∧
      (u.digestAt = none → exec (.attest dt []) s = .next (s.left
        { u with keeper.digesting := false,
                 keeper.run := some { r with todo := [u.report (r.cmd.slice 0 32)], phase := .random, step := max r.step 1,
                                             askedAt := some u.clock.dp },
                 keeper.words := [], keeper.wordsAt := some u.clock.dp }))) ∧
    (∀ (r : Run) ws found, u.runOf 0x80 .random = some r → u.keeper.words.take 4 = ws → ws.length = 4 →
      (∀ k, nonceOf ws = some k →
        exec (.attest dt found) s = .next (s.left (u.toEngine { r with phase := .engine, acc := [k] } Config.signK))) ∧
      (nonceOf ws = none → exec (.attest dt found) s = .next (s.left { u with keeper.words := u.keeper.words.drop 4 }))) ∧
    (∀ (r : Run) passed v, u.runOf 0xF0 .fresh = some r →
      ((r.cmd.field 0 1).testBit 3 = true → { u with startup.rndTest := some u.clock.edge, startup.katWords := [] } = v) →
      ((r.cmd.field 0 1).testBit 3 = false → u = v) →
      (u.testBusy (r.cmd.field 0 1) = true → exec (.selfTest dt passed) s = .next (s.left (u.endZero stBusy))) ∧
      (u.testBusy (r.cmd.field 0 1) = false →
        exec (.selfTest dt passed) s = .next (s.left (v.toEngine { r with phase := .engine, acc := [passed.toNat] }
          (if (r.cmd.field 0 1).testBit 2 then Config.signK + Config.verifyK else 0))))) ∧
    (∀ (e : EngineEntry) rest t c pin, u.keeperGoes = true → u.clock.edge % 2 = 0 → u.atBoundary = true → u.keeper.engine = e :: rest → e.started = some t →
      e.ended = false → e.run.cmd = c →
      (u.clock.dp < t + 2 * e.lasts → exec (.engineOpDone dt pin) s = .next (s.left u)) ∧
      (t + 2 * e.lasts ≤ u.clock.dp →
        (∀ v : State, c.opcode = 0x70#8 → u.presenceSeen pin.level (u.clock.edge - pin.ago) = true → { u with levels.presence := true } = v → validKey c.keyA.x c.keyA.y = true →
          validKey c.keyB.x c.keyB.y = true → v.factoryClean = true → exec (.engineOpDone dt pin) s = .next (s.left
            ((State.count { v with keeper.officers := ins none (ins none v.keeper.officers (c.field 0 1) (some c.keyA)) (c.field 1 1) (some c.keyB) }
              fLife 7).endEngine e stOk []))) ∧
        (c.opcode = 0x80#8 → ∀ q w, signWith ((u.fuse fwScalar).getD 0) (e.run.acc.headD 0) (Sys2Proof.Machine.sha256 (e.run.todo.headD [])) = some (q, w) →
          exec (.engineOpDone dt pin) s = .next (s.left (u.endEngine e stOk
            (leBytes 2 (e.run.todo.headD []).length ++ zeros 2 ++ e.run.todo.headD [] ++ beBytes 32 q ++ beBytes 32 w)))) ∧
        (c.opcode = 0xF0#8 → ∀ results got, e.run.acc = [results] →
          ((c.field 0 1).testBit 3 = true → u.startup.rndTest = none) →
          (List.range 5).foldl (fun m i => if (c.field 0 1).testBit i && (if i = 3 then u.katOk else results.testBit i) then m + 2 ^ i else m) 0 = got →
          ∀ v, u.endEngine e stOk (leBytes 1 got ++ zeros 3) = v →
          (got = c.field 0 1 → exec (.engineOpDone dt pin) s = .next (s.left v)) ∧
          (got ≠ c.field 0 1 →
            exec (.engineOpDone dt pin) s = .next (s.left { v with twin.fabricFault := true, startup.ready := false })))))

/-- R272, R276: VAULT_REARM clears the named latches of both wells and counts, or is BUSY while a named pair is asserted.
STANDBY_ENTER is BUSY in standby, during a re-pair attempt or with a live token; else it masks every port and waits for the drain,
which enters standby, or ends it with ABORTED and the ports unmasked after 65,536 FCLK.
When REARMS counts and what is BUSY are readings, log entries 49 and 56. -/
def Obligations.RearmAndStandbyFollowThePairsAndTheDrain : Prop :=
  ∀ (s u : State) (dt : Nat) (r : Run), s.elapse dt = u → u.running = true →
    (∀ pins, u.runOf 0x04 .fresh = some r →
      ((∃ n, n < 8 ∧ (r.cmd.field 0 1).testBit n = true ∧ u.pairBusy n pins = true) →
        exec (.vaultRearm dt pins) s = .next (s.left (u.endRun stBusy []))) ∧
      (∀ n, n < 8 → r.cmd.field 0 1 = 2 ^ n → u.pairBusy n pins = false → ∀ v,
        u.modIslands (fun i => { i with z := i.z &&& ~~~(BitVec.ofNat 8 (2 ^ n)) }) = v →
        exec (.vaultRearm dt pins) s = .next (s.left
          (((v.setPair n { v.pair n with seen := false }).count fStandby 5).endRun stOk []))) ∧
      (∀ named, r.cmd.field 0 1 = named → (∃ n, n < 8 ∧ named.testBit n = true) →
        (∀ n, n < 8 → named.testBit n = true → u.pairBusy n pins = false) → rising 0 u.levels.pairs = true →
        ∃ w : State, exec (.vaultRearm dt pins) s = .next (s.left (w.endRun stOk [])) ∧
          w.levels.islandA = { u.levels.islandA with z := u.levels.islandA.z &&& ~~~(BitVec.ofNat 8 named) } ∧
          w.levels.islandB = { u.levels.islandB with z := u.levels.islandB.z &&& ~~~(BitVec.ofNat 8 named) } ∧
          (∀ n, n < 8 → w.pair n = if named.testBit n then { u.pair n with seen := false } else u.pair n) ∧
          w.front.counters = (u.count fStandby 5).front.counters ∧ w.keeper = u.keeper ∧ w.cores = u.cores ∧ w.ports = u.ports)) ∧
    (u.runOf 0x03 .fresh = some r →
      ((u.levels.stbyOk = true ∨ u.twin.repair.isSome = true ∨ u.keeper.tokens ≠ []) → exec (.standbyEnter dt) s = .next (s.left (u.endRun stBusy []))) ∧
      (u.levels.stbyOk = false → u.twin.repair = none → u.keeper.tokens = [] → exec (.standbyEnter dt) s = .next (s.left
        ((u.maskPorts true).setRun { r with phase := .waiting, acc := [u.clock.dp] })))) ∧
    (u.runOf 0x03 .waiting = some r →
      (u.drained = true → exec (.standbyDrainDone dt) s = .next (s.left ((u.voidStaged.standbyNow).endRun stOk []))) ∧
      (u.drained = false → exec (.standbyDrainDone dt) s = .next (s.left u)) ∧
      (∀ t, r.acc = [t] →
        (t + 65536 ≤ u.clock.dp → u.drained = false →
          exec (.standbyDrainTimeout dt) s = .next (s.left ((u.maskPorts false).endRun stAborted []))) ∧
        (u.clock.dp < t + 65536 → exec (.standbyDrainTimeout dt) s = .next (s.left u))))

/-- R350, R423, R425: LIFECYCLE_ADVANCE with PRESENCE at its submission and now, to a later state, programs the three copies
of the fuse bit, or of both bits from the first state to the last; without PRESENCE it is DENIED, to no later state RANGE. Each copy's programming sets it; the last puts
the state in force and returns it. A re-sense starts on
command or every 524,288 SCLK periods, and at a ZCLK edge ends and counts the words that no longer vote or have drifted.
The numbering of the fuse words is presumed, log entry 8; that a re-sense takes two rows is a reading, log entry 19. -/
def Obligations.FuseCommandsProgramAndResense : Prop :=
  ∀ (s u : State) (dt : Nat) (r : Run), s.elapse dt = u → u.running = true →
    (∀ pin presence (t : Nat) (v : State), u.presenceSeen pin.level (u.clock.edge - pin.ago) = presence → u.runOf 0xF1 .fresh = some r → r.cmd.field 0 1 = t → { u with levels.presence := presence } = v →
      ((t ≠ 2 ∧ t ≠ 3 ∨ t ≤ v.lifecycle) → exec (.lifecycleAdvance dt pin) s = .next (s.left (v.endZero stRange))) ∧
      (t = 2 ∨ t = 3 → v.lifecycle < t → v.stateMarg = true → exec (.lifecycleAdvance dt pin) s = .next (s.left (v.endZero stMarginal))) ∧
      (t = 2 ∨ t = 3 → v.lifecycle < t → v.stateMarg = false → (r.cmd.presence = false ∨ presence = false ∨ v.keeper.staged.isSome = true) →
        exec (.lifecycleAdvance dt pin) s = .next (s.left (v.endZero stDenied))) ∧
      (t = 2 ∨ t = 3 → v.lifecycle < t → v.stateMarg = false → r.cmd.presence = true → presence = true → v.keeper.staged = none →
        ∀ plan, (if t = 3 ∧ v.lifecycle = 1 then [(fwLife, 0), (fwLife, 1), (fwLife, 2), (fwLife, 0), (fwLife, 1), (fwLife, 2)]
          else [(fwLife, 0), (fwLife, 1), (fwLife, 2)]) = plan →
        exec (.lifecycleAdvance dt pin) s = .next (s.left (State.setRun
          { v with fuses.programming := plan, fuses.afterTarget := lifeTarget t, fuses.programmedAt := v.clock.edge }
          { r with phase := .waiting })))) ∧
    (∀ clean w copy n rest, u.clock.edge % 64 = 0 → u.fuses.programming = (w, copy) :: n :: rest → exec (.fuseProgramDone dt clean) s = .next (s.left
      { u.burnCopy w copy (u.burnValue w) clean with fuses.programming := n :: rest, fuses.programmedAt := (u.burnCopy w copy (u.burnValue w) clean).clock.edge })) ∧
    (∀ clean copy, u.clock.edge % 64 = 0 → u.fuses.programming = [(fwLife, copy)] → ∀ v,
      { u.burnCopy fwLife copy (u.burnValue fwLife) clean with fuses.programming := [], fuses.programmedAt := (u.burnCopy fwLife copy (u.burnValue fwLife) clean).clock.edge } = v →
      exec (.fuseProgramDone dt clean) s = .next (s.left v.lifeBurned)) ∧
    (∀ drift a b (v : State), (u.drift drift).resense = (a, b, v) →
      (u.runOf 0xF2 .fresh = some r → exec (.fuseResense dt drift) s = .next (s.left (u.setRun { r with phase := .waiting }))) ∧
      (u.runOf 0xF2 .waiting = some r → u.clock.edge % 64 = 0 → exec (.fuseResense dt drift) s = .next (s.left
        (State.endRun { v with fuses.sensedAt := u.slowMark } stOk (leBytes 2 a ++ leBytes 2 b)))) ∧
      (u.fuses.resensing = false → u.slowRan u.fuses.resenseTick 524288 = true → exec (.fuseResenseTick dt drift) s = .next (s.left
        { u with fuses.resensing := true, fuses.resenseTick := u.fuses.resenseTick + 524288 })) ∧
      (u.fuses.resensing = true → u.clock.edge % 64 = 0 → exec (.fuseResenseTick dt drift) s = .next (s.left
        { v with fuses.sensedAt := u.slowMark, fuses.resensing := false })) ∧
      (u.fuses.resensing = true → u.clock.edge % 64 ≠ 0 → exec (.fuseResenseTick dt drift) s = .next (s.left u)) ∧
      (u.fuses.resensing = false → u.slowRan u.fuses.resenseTick 524288 = false →
        exec (.fuseResenseTick dt drift) s = .next (s.left u)))

/-! ### Twin wells (R352 to R382) -/

/-- R355, R356, R357, R359: at a checkpoint edge each running well closes its signature over its update vector. A frame
is 15 bytes with a CRC-32; without noise it is valid and brings the signature closed. A valid frame that is due is in, one that
fails is asked for again, and a second one that fails, or one resent more than 16 edges late, is a link fault. Once both frames
are in, 16 edges after the checkpoint, or up to 48 where one was resent, the signatures are compared: a difference while
paired is a trigger. No valid frame for 1,024 edges is one loss of heartbeat.
The update vectors are operands, log entry 66; the layout of a frame is the model's choice, log entry 111. -/
def Obligations.CheckpointsAreClosedSentAndCompared : Prop :=
  ∀ (s u : State) (dt : Nat) (vecA vecB : List Byte) (b : Bool), s.elapse dt = u → u.running = true → u.paired = true →
    (∀ l v, u.clock.edge % 256 = 0 → u.lead.sigK ≠ u.clock.edge / 256 → u.twin.leadB = l →
      u.modWell l (fun w => w.close (u.clock.edge / 256) (if l then vecB else vecA)) = v → v.paired = true →
      exec (.checkpoint dt vecA vecB) s = .next (s.left
        (v.modWell (!l) fun w => w.close (u.clock.edge / 256) (if l then vecA else vecB)))) ∧
    (u.clock.edge % 256 ≠ 0 → exec (.checkpoint dt vecA vecB) s = .next (s.left u)) ∧
    (∀ w : Well, w.invertNext = false → (w.close (u.clock.edge / 256) vecA).sig = crc64 w.sig vecA) ∧
    (frameValid [] = true ∧ ∀ sig, frameSig sig [] = sig) ∧
    (∀ noise w, u.frameDue (!b) = true → u.well (!b) = w →
      (w.resend = false ∨ u.clock.edge ≤ w.resendAt + 16 →
        (frameValid noise = true → exec (.twinFrameArrive dt b noise) s = .next (s.left
          (u.modWell (!b) fun w => { w with frameIn := true, frameSig := frameSig w.sig noise, frameAt := u.clock.edge,
                                            validAt := some u.clock.edge, hbLost := false }))) ∧
        (frameValid noise = false → w.resend = false → exec (.twinFrameArrive dt b noise) s = .next (s.left
          ((u.modWell (!b) fun w => { w with resend := true, resendAt := u.clock.edge }).count fTwin 7))) ∧
        (frameValid noise = false → w.resend = true → exec (.twinFrameArrive dt b noise) s = .next (s.left (u.trigger 2)))) ∧
      (w.resend = true → w.resendAt + 16 < u.clock.edge → exec (.twinFrameArrive dt b noise) s = .next (s.left (u.trigger 2)))) ∧
    (∀ noise, u.frameDue (!b) = false → exec (.twinFrameArrive dt b noise) s = .next (s.left u)) ∧
    (∀ v, u.lead.frameIn = true → u.mirror.frameIn = true → u.lead.sigK = u.mirror.sigK → u.twin.comparedK ≠ u.lead.sigK →
      (u.clock.edge = 256 * u.lead.sigK + 16 ∨ (u.lead.resend = true ∨ u.mirror.resend = true) ∧
        256 * u.lead.sigK + 16 ≤ u.clock.edge ∧ u.clock.edge ≤ 256 * u.lead.sigK + 48) →
      State.count { u with twin.lastCompare := u.lead.frameSig, twin.comparedK := u.lead.sigK } fTwin 6 = v →
      (u.lead.frameSig = u.mirror.frameSig → u.twin.repair = none → u.twin.swapPend = none →
        exec (.sigCompare dt) s = .next (s.left v)) ∧
      (u.lead.frameSig ≠ u.mirror.frameSig → exec (.sigCompare dt) s = .next (s.left (v.trigger 1).swapLost))) ∧
    ((u.clock.edge < 256 * u.lead.sigK + 16 ∨ 256 * u.lead.sigK + 48 < u.clock.edge) → exec (.sigCompare dt) s = .next (s.left u)) ∧
    ((u.well (!b)).hbLost = false → (u.well (!b)).frameAt + 1024 ≤ u.clock.edge → exec (.hbLoss dt b) s = .next (s.left
      (((u.modWell (!b) fun w => { w with hbLost := true }).count fTwin 8).trigger 2))) ∧
    (((u.well (!b)).hbLost = true ∨ u.clock.edge < (u.well (!b)).frameAt + 1024) → exec (.hbLoss dt b) s = .next (s.left u))

/-- R358, R359, R360, R361, R364: a lead or mirror whose ALIVE has not toggled at 8 edges is a trigger, the lower cause winning
at one edge. A trigger of causes 1 to 4 while paired freezes the data plane at a later edge, holds every core-edge line low and
asks both wells for a self-check, a lead that fell silent or raised UNCORR_LEAD, and a mirror that fell silent, being unhealthy
without one. A well is healthy where its page-write journal reads sound, its votes are within TMR_LIMIT and its ROM checks.
Both reports, or edge f + 15,000, fix the decision.
R362, R363: the freeze ends at the resume edge, two edges after the decision without a promotion and 258 with one. A
promoted well, its acknowledge journal offered again by then, prepares its rewrites; then the lines of the slots are driven again, a
pending swap is lost, and the answers held during the freeze are applied in their order. Before that edge nothing
changes.
The phases act at their rows' edges, a reading, log entry 12; that an entry is replayed an edge is the model's choice, log entry 112. -/
def Obligations.TriggersFreezeDecideAndResume : Prop :=
  (
    ∀ (s u : State) (dt : Nat), s.elapse dt = u →
      (∀ quiet, u.startup.ready = true → u.twin.failover = none → u.twin.fabricFault = false →
        (8 ≤ quiet →
          (u.twin.trigger = none → exec (.leadSilent ⟨dt, quiet⟩) s = .next (s.left
            { u with twin.trigger := some { cause := 3, edge := u.clock.edge, leadBad := true, mirrorBad := false } })) ∧
          (∀ t, u.twin.trigger = some t → t.edge = u.clock.edge → exec (.leadSilent ⟨dt, quiet⟩) s = .next (s.left
            { u with twin.trigger := some { t with cause := min 3 t.cause, leadBad := true } })) ∧
          (∀ t, u.twin.trigger = some t → t.edge ≠ u.clock.edge → exec (.leadSilent ⟨dt, quiet⟩) s = .next (s.left u)) ∧
          (u.paired = true → u.twin.trigger = none → exec (.mirrorSilent ⟨dt, quiet⟩) s = .next (s.left
            { u with twin.trigger := some { cause := 5, edge := u.clock.edge, leadBad := false, mirrorBad := true } })) ∧
          (u.paired = false → u.twin.repair = none → exec (.mirrorSilent ⟨dt, quiet⟩) s = .next (s.left u))) ∧
        (quiet < 8 → exec (.leadSilent ⟨dt, quiet⟩) s = .next (s.left u) ∧ exec (.mirrorSilent ⟨dt, quiet⟩) s = .next (s.left u))) ∧
      (∀ t, u.running = true → u.twin.trigger = some t →
        (u.paired = true → t.cause ≤ 4 → t.edge < u.clock.edge → rising 0 u.cores = true →
          ∃ v : State, exec (.failoverFreeze dt) s = .next (s.left v) ∧
            v.twin.failover = some { trigger := t, freeze := u.clock.edge,
                                     decided := if t.leadBad ∧ t.mirrorBad then some (u.clock.edge + 2) else none, promoted := false,
                                     stage := 0, replays := [], replayed := 0, keeperOn := u.midStep } ∧
            v.twin.trigger = none ∧
            (∀ b, (v.well b).report = if (if b = u.twin.leadB then t.leadBad else t.mirrorBad) then some false else none) ∧
            (∀ b, { v.well b with report := (u.well b).report } = u.well b) ∧
            (∀ n, v.core n = { u.core n with lineN := [], lineF := [], lineW := [] }) ∧
            { v.twin with wellA := u.twin.wellA, wellB := u.twin.wellB, failover := u.twin.failover, trigger := u.twin.trigger } = u.twin ∧
            { v with twin := u.twin, cores := u.cores } = u) ∧
        ((u.paired = false ∨ 4 < t.cause ∨ u.clock.edge ≤ t.edge) → exec (.failoverFreeze dt) s = .next (s.left u))) ∧
      (∀ f b found healthy v, u.startup.ready = true → u.twin.failover = some f → f.decided = none →
        (u.journalSound b found.pages && u.votesFew f.freeze found.votes && found.romOk) = healthy →
        ((u.well b).report = none → f.freeze < u.clock.edge → u.clock.edge ≤ f.freeze + 15000 →
          u.modWell b (fun w => { w with report := some healthy }) = v →
          ((u.well (!b)).report = none → exec (.selfCheckReport dt b found) s = .next (s.left v)) ∧
          ((u.well (!b)).report ≠ none → exec (.selfCheckReport dt b found) s = .next (s.left
            { v with twin.failover := some { f with decided := some (u.clock.edge + 1) } }))) ∧
        (((u.well b).report ≠ none ∨ f.freeze + 15000 < u.clock.edge) →
          exec (.selfCheckReport dt b found) s = .next (s.left u)) ∧
        (f.freeze + 15000 ≤ u.clock.edge → exec (.selfCheckDeadline dt) s = .next (s.left
          { u with twin.failover := some { f with decided := some (f.freeze + 15001) } })) ∧
        (u.clock.edge < f.freeze + 15000 → exec (.selfCheckDeadline dt) s = .next (s.left u)))) ∧
  (
    ∀ (s u : State) (dt : Nat) (f : Failover) (t : Nat), s.elapse dt = u → u.startup.ready = true → u.twin.failover = some f →
      f.decided = some t →
      ((f.stage < 2 ∨ u.clock.edge < t + if f.promoted then 258 else 2) → exec (.failoverResume dt) s = .next (s.left u)) ∧
      (f.stage = 2 → (t + if f.promoted then 258 else 2) ≤ u.clock.edge → ∀ p v : State,
        (f.promoted = false → { u with twin.failover := none, twin.trigger := none } = p) →
        (f.promoted = true →
          State.prepareRewrites (State.replay { u with twin.failover := none, twin.trigger := none }) f.freeze = p) →
        State.swapLost p.redrive = v → v.frozen = false →
        exec (.failoverResume dt) s = .next (s.left
          (v.twin.answers.foldl (fun (w : State) i => w.applyAnswer i) { v with twin.answers := [] }))))

/-- R370, R378: REPAIR checks its staging range, answers OK while paired, and starts an attempt where the joining well's power is
good: that well begins its start-up, the pair is repairing, the attempt is counted. TWIN_SWAP answers NOT_LEAD while not paired, BUSY during a
failover, trigger, attempt or swap, and is else pending. -/
def Obligations.RepairAndSwapStart : Prop :=
  ∀ (s u : State) (dt : Nat) (r : Run), s.elapse dt = u → u.running = true →
    (u.runOf 0xA1 .fresh = some r → ∀ base size, r.cmd.field 0 8 = base → r.cmd.field 8 4 = size → ∀ good : Bool,
      ((2 ^ 48 ≤ base ∨ base % 64 ≠ 0 ∨ size < 16640) → exec (.repair ⟨dt, good⟩) s = .next (s.left (u.endZero stRange))) ∧
      (base < 2 ^ 48 → base % 64 = 0 → 16640 ≤ size → u.permitted 0 base size false = true →
        (u.paired = true → exec (.repair ⟨dt, good⟩) s = .next (s.left (u.endZero stOk))) ∧
        (u.paired = false → (u.twin.failover.isSome = true ∨ u.twin.swapPend.isSome = true) →
          exec (.repair ⟨dt, good⟩) s = .next (s.left (u.endZero stBusy))) ∧
        (∀ v, u.paired = false → u.twin.failover = none → u.twin.swapPend = none → u.scrubGroupTaken = false → u.twin.repair = none →
          u.tokensOf 3 = [] →
          (good = false → u.modWell (!u.twin.leadB) (fun w => { w with power := false }) = v →
            exec (.repair ⟨dt, good⟩) s = .next (s.left (v.endZero stAborted))) ∧
          (good = true →
            u.modWell (!u.twin.leadB) (fun w => { w with power := true, held := false, step := 1, stepAt := u.clock.edge, failed := 0 }) = v →
            exec (.repair ⟨dt, good⟩) s = .next (s.left (State.setRun
              (State.startAttempt { v with twin.pair := .repairing, twin.retries := 0 } 1 (size / 4160) base)
              { r with phase := .waiting })))))) ∧
    (u.runOf 0xA2 .fresh = some r →
      (u.paired = false → exec (.twinSwap dt) s = .next (s.left (u.endZero stNotLead))) ∧
      (u.paired = true →
        ((u.twin.failover.isSome = true ∨ u.twin.trigger.isSome = true ∨ u.twin.repair.isSome = true ∨ u.twin.swapPend.isSome = true) →
          exec (.twinSwap dt) s = .next (s.left (u.endZero stBusy))) ∧
        (u.twin.failover = none → u.twin.trigger = none → u.twin.repair = none → u.twin.swapPend = none →
          exec (.twinSwap dt) s = .next (s.left { u with twin.swapPend := some r.cmd.host, keeper.run := some { r with phase := .waiting } }))))

/-- R371 to R377: the phases of a re-pair attempt. Matching digests begin the wait for the key's words, the joining well
being untrusted; the chunk whose bank the keeper holds in a locked sequence is sealed, its 65 writes are handed over and
the bank is freed; a chunk read back gives its pages' poison bits, and is counted where its header is the one expected and its
tag verifies, the lead itself opening none; a bad one starts the attempt again after a refill while fewer than three have; the stream ends with the last chunk
and the last forwarded write; a page write of the lead lands 4 edges after it was made with the page's poison bit; at a
checkpoint edge the joining well takes the lead's poison bits and both chains restart; the loss of its power ends the attempt.
A page's bytes in the stream, and the code of an end by a trigger, are free values, log entries 34 and 35. -/
def Obligations.RepairAttemptsFollowTheirPhases : Prop :=
  ∀ (s u : State) (dt : Nat) (r : Repair), s.elapse dt = u → u.running = true → u.twin.repair = some r →
    (r.phase = 1 → 10 ≤ u.mirror.step → ∀ v,
      (u.modWell false fun w => { w with frameAt := u.clock.edge, hbLost := false, sigK := u.lead.sigK, frameIn := true }).modWell true
        (fun w => { w with frameAt := u.clock.edge, hbLost := false, sigK := u.lead.sigK, frameIn := true }) = v →
      exec (.repairDigestMatch dt true) s = .next (s.left
        { v with twin.pair := .untrusted, twin.untrusted := true, twin.repair := some { r with phase := 2, started := u.clock.edge } }) ∧
      exec (.repairDigestMatch dt false) s = .next (s.left (u.failRepair 3 stAborted))) ∧
    (∀ l v, u.markedLock = some l → u.stageBank = some (l.memory, l.bank) → u.unlock l.memory l.bank = v →
      (l.grant < u.clock.dp → u.clock.dp < l.grant + 64 → exec (.repairChunkStage dt) s = .next (s.left
        { v with pump.staging := v.pump.staging ++ (List.range 65).map fun i => stagingReq r r.staged i true (v.chunkSlot r.key r.repairId.toNat r.staged),
                 twin.repair := some { r with staged := r.staged + 1 } })) ∧
      ((u.clock.dp ≤ l.grant ∨ l.grant + 64 ≤ u.clock.dp) → exec (.repairChunkStage dt) s = .next (s.left u))) ∧
    ((u.markedLock = none ∨ u.stageBank = none) → exec (.repairChunkStage dt) s = .next (s.left u)) ∧
    (∀ slot, r.phase = 3 → r.opened < r.staged → u.stagingBusy r.opened = false → r.slot r.opened = some slot → ∀ w, u.chunkPoison r slot = w →
      (u.slotOpens r r.opened slot = true → exec (.repairChunkOpen dt (!u.twin.leadB)) s = .next (s.left
        { w with twin.repair := some { r with opened := r.opened + 1, back := r.back.filter fun e => decide (e.1 ≠ r.opened),
                                              phase := if r.opened + 1 = 670 ∧ r.flying = [] then 4 else 3 } })) ∧
      (u.slotOpens r r.opened slot = false → 3 ≤ u.twin.retries → ∀ v, { w.count fTwin 12 with twin.failCause := 1 } = v →
        exec (.repairChunkOpen dt (!u.twin.leadB)) s = .next (s.left (v.failRepair 1 stAuthFail))) ∧
      (u.slotOpens r r.opened slot = false → u.twin.retries < 3 → ∀ v, State.dropStaging { w.count fTwin 12 with twin.failCause := 1 } = v →
        exec (.repairChunkOpen dt (!u.twin.leadB)) s = .next (s.left
          { v with twin.retries := v.twin.retries + 1,
                   twin.repair := some { r with phase := 2, key := [], staged := 0, opened := 0, fwd := [], flying := [], back := [],
                                                refillAt := some (v.clock.edge + 12288) } }))) ∧
    ((r.slot r.opened = none ∨ r.phase ≠ 3) → exec (.repairChunkOpen dt (!u.twin.leadB)) s = .next (s.left u)) ∧
    exec (.repairChunkOpen dt u.twin.leadB) s = .next (s.left u) ∧
    (∀ t, r.refillAt = some t →
      (t ≤ u.clock.edge → exec (.repairRefillDone dt) s = .next (s.left (u.startAttempt 2 r.slots r.base))) ∧
      (u.clock.edge < t → exec (.repairRefillDone dt) s = .next (s.left u))) ∧
    (∀ (store : BitVec 3) (index : BitVec 16) k, pageKey store.toNat index.toNat = k →
      (∀ e v, (r.phase = 3 ∨ r.phase = 4) → (r.flying.find? fun e => decide (e.1 = k) && decide (e.2.1 ≤ u.clock.edge)) = some e →
        u.modWell (!u.twin.leadB) (fun w => { w with poison := ins false w.poison k e.2.2 }) = v →
        exec (.forwardedWrite dt store index) s = .next (s.left
          { v.count fTwin 15 with twin.repair := some ({ r with fwd := ins false r.fwd k true, flying := r.flying.erase e } : Repair).streamed })) ∧
      ((∀ e ∈ r.flying, e.1 ≠ k ∨ u.clock.edge < e.2.1) → exec (.forwardedWrite dt store index) s = .next (s.left u))) ∧
    (r.phase = 4 → u.clock.edge % 256 = 0 →
      ∃ t : State, exec (.repairJoin dt) s = .next (s.left t) ∧ t.twin.repair = some { r with phase := 5, fwd := [], flying := [], back := [] } ∧
        (∀ b, (t.well b).sig = 0xFFFFFFFFFFFFFFFF#64 ∧ (t.well b).sigK = u.clock.edge / 256 ∧ (t.well b).poison = u.lead.poison) ∧
        t.levels.islandA.z = (u.levels.islandA.z ||| u.levels.islandB.z) ∧ t.levels.islandB.z = (u.levels.islandA.z ||| u.levels.islandB.z) ∧
        t.twin.comparedK = u.clock.edge / 256) ∧
    ((r.phase ≠ 4 ∨ u.clock.edge % 256 ≠ 0) → exec (.repairJoin dt) s = .next (s.left u)) ∧
    (∀ b, u.startup.inReset = false → (u.well (!b)).power = true →
      (b = !u.twin.leadB → exec (.pwrGoodFall dt b) s = .next (s.left
        ((u.modWell b fun w => { w with power := false }).failRepair 9 stAborted))) ∧
      (b = u.twin.leadB → exec (.pwrGoodFall dt b) s = .next (s.left (u.modWell b fun w => { w with power := false }))))

/-! ### Stored-state integrity (R216, R391 to R398) -/

/-- R216, R391, R392, R393, R398: a walker asks for its page when its interval has passed; the scrub access granted the bank
holds it for nine edges, has its page's verdict at g + 2 and is written back at g + 8, the walker going on to its next page; a page with a copy in flops is rebuilt and no longer poisoned; the re-encode writes
its page at the write edge of its locked sequence, not before, and goes on to the next; the sweep records, counts and
gives back to be corrected the fast-table entry it reads, and goes on, wrapping after 4,095.
One fast-table entry for each row is the model's choice, log entry 59; the walker's next tick a reading, log entry 55. What is recorded of several odd copies is the model's choice, log entry 81. Which bits of the flops an upset's mask strikes is the model's choice, log entry 108. -/
def Obligations.IntegrityWorkGoesPageByPage : Prop :=
  ∀ (s u : State) (dt : Nat), s.elapse dt = u → u.running = true →
    (∀ (store : BitVec 3), store.toNat < 7 → u.walkerRuns store.toNat = true → ∀ w, u.walker store.toNat = w →
      (w.tickedAt + 64 * 2 ^ bits (u.sampled.reg fIntegrity 0x20) 3 0 ≤ u.clock.dp → exec (.scrubWalkerTick dt store) s = .next (s.left
        (u.setWalker store.toNat { w with wants := true, tickedAt := u.clock.dp }))) ∧
      (u.clock.dp < w.tickedAt + 64 * 2 ^ bits (u.sampled.reg fIntegrity 0x20) 3 0 → exec (.scrubWalkerTick dt store) s = .next (s.left u))) ∧
    (∀ (store : BitVec 3), u.walkerRuns store.toNat = false → exec (.scrubWalkerTick dt store) s = .next (s.left u)) ∧
    (∀ (store : BitVec 3) (bank : BitVec 4) (page : PageRead) (v : State) (owned : Bool) (p : ScrubPass) (a : Nat),
      u.scrubBanks.contains (store.toNat, bank.toNat) = true → u.maintWins 1 store.toNat bank.toNat = true →
      u.chargeMaint 1 store.toNat bank.toNat = v → u.passBanks.contains (store.toNat, bank.toNat) = owned →
      (owned = true → u.integrity.pass = some p) →
      (if owned then look 0 p.next (16 * store.toNat + bank.toNat) * banksOf store.toNat + bank.toNat else (u.walker store.toNat).next) = a →
      ∀ w, State.count { v with sluice.locks := v.sluice.locks ++
          [{ memory := store.toNat, bank := bank.toNat, owner := 3, grant := v.clock.dp, lasts := v.clock.dp + 8, unit := none, ended := false,
             scrub := some { page := a, read := page, owned := owned, found := none } }] } fIntegrity 10 = w →
        exec (.scrubAccess dt store bank page) s = .next (s.left
          (if owned then w else w.setWalker store.toNat { w.walker store.toNat with wants := false }))) ∧
    (∀ (l : Lock) (n : ScrubNow), u.sluice.locks = [l] → l.scrub = some n → l.ended = false →
      (n.found = none → u.clock.dp < l.grant + 2 → u.scrubEdges = u) ∧
      (∀ v, n.found = none → l.grant + 2 ≤ u.clock.dp → u.readPage l.memory n.page 0 true n.read = (⟨true, false, 0⟩, v) →
        v.countOf fIntegrity 4 = u.countOf fIntegrity 4 → v.sluice = u.sluice →
        u.scrubEdges = { v with sluice.locks := [{ l with scrub := some { n with found := some (false, false) } }] }) ∧
      (∀ c h v, n.found = some (c, h) →
        (u.clock.dp < l.grant + 8 → u.scrubEdges = u) ∧
        (l.grant + 8 ≤ u.clock.dp → n.owned = false →
          State.rewriteEpoch { u with sluice.locks := [{ l with ended := true }] } l.memory n.page = v →
          u.scrubEdges = v.walkerStep l.memory))) ∧
    (∀ (store : BitVec 3) (bank : BitVec 4) (page : PageRead),
      (u.scrubBanks.contains (store.toNat, bank.toNat) = false ∨ u.maintWins 1 store.toNat bank.toNat = false) →
      exec (.scrubAccess dt store bank page) s = .next (s.left u)) ∧
    (∀ (store : BitVec 3) (index : BitVec 16), u.integrity.rebuilds.contains (store.toNat, index.toNat) = true →
      u.maintFree store.toNat 0 = true → exec (.pageRebuild dt store index) s = .next (s.left (State.count (State.unpoison
        { u with integrity.rebuilds := u.integrity.rebuilds.filter fun e => decide (e ≠ (store.toNat, index.toNat)) }
        store.toNat index.toNat) fIntegrity 9))) ∧
    (∀ j l page r v, u.integrity.journal = some j → u.markedLock = some l → u.keeperAlive = true → j.running = true →
      l.memory = j.store → u.clock.dp < l.grant + 64 → u.readPage j.store j.next 6 false page = r →
      (u.clock.dp < writeEdge l.grant r.1.correction → exec (.reencodePage dt page) s = .next (s.left u)) ∧
      (writeEdge l.grant r.1.correction ≤ u.clock.dp → (j.store ≠ 4 ∨ r.1.usable = true) →
        ((r.2.rewriteEpoch j.store j.next).unlock l.memory l.bank).count fIntegrity 12 = v →
        j.next + 1 ≠ Config.storePages j.store → v.strengthRuns = false →
        exec (.reencodePage dt page) s = .next (s.left { v with integrity.journal := some { j with next := j.next + 1 } }))) ∧
    (∀ (upsets : List Upset) (w : State),
      (cellsOf upsets).foldl (fun (v : State) c => v.voteFlops upsets c) (upsets.foldl State.upset u) = w →
      (bit (w.reg fFast 0x20) 0 = false → exec (.fastTableSweep ⟨dt, upsets⟩) s = .next (s.left w)) ∧
      (∀ i, bit (w.reg fFast 0x20) 0 = true → w.routes.sweepAt = i →
        ((w.ft i).odd = none → exec (.fastTableSweep ⟨dt, upsets⟩) s = .next (s.left
          { w with routes.sweepAt := if 4095 ≤ i then 64 else i + 1 })) ∧
        (∀ copy v, w.routes.ftBack.contains i = false → (w.ft i).odd = some copy → w.event fFast 7 139 = v →
          exec (.fastTableSweep ⟨dt, upsets⟩) s = .next (s.left
            { v with routes.sweepAt := if 4095 ≤ i then 64 else i + 1, routes.ftBack := v.routes.ftBack ++ [i],
                     twin.votes := (w.clock.edge :: w.twin.votes).filter fun e => decide (w.clock.edge ≤ e + 1024),
                     routes.ftVoteLast := 0x80000000#32 ||| flag32 30 true ||| at32 28 copy ||| at32 26 0 ||| at32 12 0 ||| at32 0 i }))))

/-! ### Resets, start-up, the random wire, the slow plane and the test port -/

/-- R21, R272, R286, R403, R404: power-on reset leaves everything but the standby islands, the fuse array, the test port,
the lead selection and the inputs as reset leaves it, the islands of a clocked block holding its last HEALTH and FAULT
word; its release with a well powered is edge 0, the unpowered well held; a warm reset of fewer than 8 FCLK, in reset, in
standby or after both wells failed before READY is ignored, else the keys and the journals of a migration, the stores,
the registers it keeps and the fuses stay; the loss of the always-on supply resets the islands.
Details of warm reset are readings, log entry 11. WALK_LAST over a warm reset, and what is per part before the sense, are the model's choices, log entries 99 and 104; that accesses under way get no response is a reading, log entry 110. -/
def Obligations.ResetsLeaveWhatTheyKeep : Prop :=
  ∀ (s u : State) (dt : Nat), s.elapse dt = u →
    (∃ t : State, exec (.powerOnReset dt) s = .next t ∧ t.startup = State.reset.startup ∧ t.clock = State.reset.clock ∧
      t.front = State.reset.front ∧ t.ints = [] ∧ t.cores = [] ∧ t.ports = [] ∧ t.gate = State.reset.gate ∧ t.routes = State.reset.routes ∧
      t.sluice = State.reset.sluice ∧ t.pump = State.reset.pump ∧ t.keeper = State.reset.keeper ∧ t.integrity = State.reset.integrity ∧
      t.fuses.array = u.fuses.array ∧ t.fuses.shadow = u.fuses.array ∧ t.fuses.sensed = false ∧ t.twin.leadB = u.twin.leadB ∧ t.levels.wakeCause = u.levels.wakeCause ∧
      (u.startup.inReset = true → t.levels.islandA = u.levels.islandA ∧ t.levels.islandB = u.levels.islandB) ∧
      (u.startup.inReset = false → t.levels.islandA = { u.levels.islandA with health := u.health, fault := u.faultOut } ∧
        t.levels.islandB = { u.levels.islandB with health := u.health, fault := u.faultOut }) ∧
      t.tap = u.tap ∧ t.pending = s.pending) ∧
    (∀ goodA goodB,
      (u.startup.inReset = true → (goodA || goodB) = true → ∃ t : State, exec (.porstRelease dt goodA goodB) s = .next (s.left t) ∧
        t.startup.inReset = false ∧
        t.clock = Clock.reset ∧ t.startup.kind = (if u.wakePend then .wakeUp else .powerOn) ∧
        (∀ b, (t.well b).power = (if b then goodB else goodA) ∧ (t.well b).held = !(if b then goodB else goodA) ∧
          (t.well b).step = if (if b then goodB else goodA) then 1 else 0) ∧
        t.fuses = u.fuses ∧ t.levels = u.levels ∧ t.front = u.front) ∧
      ((u.startup.inReset = false ∨ (goodA || goodB) = false) → exec (.porstRelease dt goodA goodB) s = .next (s.left u))) ∧
    (∀ lowFor, (lowFor < 8 ∨ u.startup.inReset = true ∨ u.levels.stbyOk = true ∨ (u.twin.fabricFault = true ∧ u.startup.ready = false)) →
      exec (.warmReset dt lowFor) s = .next (s.left u)) ∧
    (∀ lowFor, 8 ≤ lowFor → u.startup.inReset = false → u.levels.stbyOk = false → (u.twin.fabricFault = false ∨ u.startup.ready = true) →
      ∃ t : State, exec (.warmReset dt lowFor) s = .next t ∧ t.startup.ready = false ∧ t.startup.inReset = false ∧ t.startup.kind = .warm ∧
        t.clock.edge = 0 ∧ t.gate.rights = u.gate.rights ∧ t.gate.setB = u.gate.setB ∧ t.integrity.strength = u.integrity.strength ∧
        t.routes.entries = u.routes.entries ∧ t.routes.vault = u.routes.vault ∧ t.routes.fast = u.routes.fast ∧
        t.routes.rt = u.routes.rt.afterWarm ∧ t.routes.rg = u.routes.rg.afterWarm ∧ t.ints = intsAfterWarm u.ints ∧
        t.integrity.journal = u.integrity.journal ∧ t.keeper.officers = u.keeper.officers ∧ t.pump.bootId = u.pump.bootId ∧
        t.levels.islandA = u.levels.islandA ∧ t.levels.islandB = u.levels.islandB ∧ t.fuses.array = u.fuses.array ∧
        t.front.regs = u.front.regs.filter (fun e => keptRegister e.1) ∧ t.cores = [] ∧ t.ports = [] ∧ t.pending = s.pending) ∧
    exec (.aonSupplyLoss dt) s = .next (s.left { u with levels.islandA := Island.reset, levels.islandB := Island.reset, levels.wakeCause := 0#32 })

/-- R407, R408, R409: a well's start-up step that ends well brings the next: step 1 senses the fuses, the first sweep of a warm
reset marks what it found, steps 2 and 3 last to their
limit, step 4 waits for the random words, step 9 for the known answers. A step that fails, or is not over by its limit, stops the
well, and the fabric has failed once neither well can go on; a joining well's failure ends
its attempt. READY follows once every well has passed or cannot: the block is ready, the standby state ends, and the well
that leads is as the start-up gives it; both wells are paired if they agree, else divergent.
A failure at the handshake is a reading, log entry 40. Which user of a random word has it first is the model's choice, log entry 103. -/
def Obligations.StartUpStepsLeadToReady : Prop :=
  ∀ (s u : State) (dt : Nat) (b : Bool) (step last : Nat), s.elapse dt = u → u.startup.inReset = false → (u.well b).step = step →
    (u.well b).stepAt + stepLimit (decide (u.startup.kind = .warm) && !u.startup.ready) step = last →
    (∀ (found : List SweptPage) (v w : State), u.startsUp b = true → u.startup.ready = false →
      (u.clock.edge = last ∨ step ≠ 2 ∧ step ≠ 3 ∧ u.clock.edge ≤ last) →
      (step = 4 → u.wordsNeeded ≤ u.startup.drawn.length) →
      (step = 9 → u.startup.katWords = (List.range 4).map Config.rndKat ∧ u.startup.rndTest = none) →
      (step = 10 → u.sweepDiffers b = false) →
      (step = 1 → u.senseFuses = v) →
      (step = 3 → u.startup.kind = .warm → u.firstSwept b = true → u.warmSweep found = v) →
      (step ≠ 1 → (step ≠ 3 ∨ u.startup.kind ≠ .warm ∨ u.firstSwept b = false) → u = v) →
      v.modWell b (fun x => { x with step := step + 1, stepAt := if 6 ≤ step ∧ step < 9 then x.stepAt else v.clock.edge }) = w →
      (step ≠ 8 → exec (.startupStepDone dt b (.passed found)) s = .next (s.left w)) ∧
      (step = 8 → exec (.startupStepDone dt b (.passed found)) s = .next (s.left w.beginKat))) ∧
    (∀ found, u.startsUp b = true → u.startup.ready = false →
      (((step = 2 ∨ step = 3) ∧ u.clock.edge < last) ∨ (step = 4 ∧ u.startup.drawn.length < u.wordsNeeded ∧ u.clock.edge ≤ last) ∨
        (step = 9 ∧ u.clock.edge ≤ last ∧ (u.startup.katWords.length ≠ 4 ∨ u.startup.rndTest.isSome = true))) →
      exec (.startupStepDone dt b (.passed found)) s = .next (s.left u)) ∧
    (∀ v w found, u.startsUp b = true → u.startup.ready = false → u.modWell b (fun x => { x with failed := x.step }) = v →
      (v.bothFailed = true → { v with twin.fabricFault := true } = w) → (v.bothFailed = false → v = w) →
      exec (.startupStepDone dt b .failed) s = .next (s.left w) ∧
      ((step = 9 → u.startup.katWords.length = 4 ∧ u.startup.rndTest = none ∧ u.startup.katWords ≠ (List.range 4).map Config.rndKat) →
        (step = 10 → u.sweepDiffers b = true) → (step = 9 ∨ step = 10) →
        exec (.startupStepDone dt b (.passed found)) s = .next (s.left w)) ∧
      (last < u.clock.edge → exec (.startupStepDone dt b (.passed found)) s = .next (s.left w)) ∧
      (last ≤ u.clock.edge → exec (.startupStepTimeout dt b) s = .next (s.left w))) ∧
    (∀ found, u.startsUp b = true → u.startup.ready = true →
      ((u.clock.edge = last ∨ step ≠ 2 ∧ step ≠ 3 ∧ u.clock.edge ≤ last) → exec (.startupStepDone dt b (.passed found)) s = .next (s.left (u.modWell b fun x =>
        { x with step := if step = 3 then 5 else step + 1, stepAt := if 6 ≤ step ∧ step < 9 then x.stepAt else u.clock.edge }))) ∧
      exec (.startupStepDone dt b .failed) s = .next (s.left (u.failRepair 3 stAborted)) ∧
      (last < u.clock.edge → exec (.startupStepDone dt b (.passed found)) s = .next (s.left (u.failRepair 3 stAborted))) ∧
      (last ≤ u.clock.edge → exec (.startupStepTimeout dt b) s = .next (s.left (u.failRepair 3 stAborted)))) ∧
    ((u.startsUp b = false ∨ u.clock.edge < last) → exec (.startupStepTimeout dt b) s = .next (s.left u)) ∧
    (∀ agree, u.readyDue = false → exec (.ready ⟨dt, agree⟩) s = .next (s.left u)) ∧
    (∀ agree, u.readyDue = true →
      ∃ t : State, exec (.ready ⟨dt, agree⟩) s = .next (s.left t) ∧ t.startup.ready = true ∧ t.clock.readyEdge = u.clock.edge ∧
        t.twin.leadB = u.leadAtReady ∧
        (u.twin.wellA.passed = true → u.twin.wellB.passed = true → t.twin.pair = if agree then .paired else .divergent) ∧
        t.levels.islandA.standby = false ∧ t.levels.islandB.standby = false)

/-- R21, R47, R306, R426, R443, R444: a random word offered while RND_HEALTH is low is never taken; during the known-answer
exchange four words are kept, and it is over an edge after the fourth; an exchange without its words ends at its limit, and before READY fails
the wells at it; a word taken goes to a start-up that draws, as KEY0 of
each store, the seed S and BOOT_ID, else to a table that waits for its key, else to the command
that runs. An SCLK edge, at a multiple of its period, counts, brings the staged slow value into force and ends its
pending. A TCK edge moves the test port's controller, TRST_N resets it, and an instruction comes into force in
Update-IR.
The controller of the test port is presumed from IEEE 1149.1, log entry 6. When SCLK edges come of themselves is a reading, log entry 89. What Shift-IR shifts out is presumed, log entry 107. -/
def Obligations.RandomSlowAndTestPortEdges : Prop :=
  ∀ (s u : State) (dt : Nat), s.elapse dt = u →
    (u.startup.inReset = false →
      (∀ w, exec (.rndWord dt w false) s = .next (s.left { u with levels.rndHealth := false })) ∧
      (∀ w e, u.startup.rndTest = some e → u.startup.katWords.length < 4 → exec (.rndWord dt w true) s = .next (s.left
        { u with levels.rndHealth := true, startup.katWords := u.startup.katWords ++ [w] })) ∧
      (∀ w e, u.startup.rndTest = some e → u.startup.katWords.length = 4 → exec (.rndWord dt w true) s = .next (s.left
        { u with levels.rndHealth := true })) ∧
      ((u.startup.rndTest.isSome = true → u.startup.katWords.length = 4 →
          u.katFalls = { u with startup.rndTest := none, startup.rndQuiet := u.clock.edge + 17 }) ∧
        (u.startup.katWords.length ≠ 4 → u.katFalls = u)) ∧
      (u.startup.rndTest = none → u.startup.rndQuiet ≤ u.clock.edge →
        (∀ w v, u.drawWants = true → { u with levels.rndHealth := true, startup.drawn := u.startup.drawn ++ [w] } = v →
          ((u.startup.kind = .warm ∨ u.startup.drawn.length = 2) → exec (.rndWord dt w true) s = .next (s.left { v with sluice.seed := w })) ∧
          (u.startup.kind ≠ .warm → u.startup.drawn.length = 0 → exec (.rndWord dt w true) s = .next (s.left { v with routes.rt.key0 := w })) ∧
          (u.startup.kind ≠ .warm → u.startup.drawn.length = 1 → exec (.rndWord dt w true) s = .next (s.left { v with routes.rg.key0 := w })) ∧
          (u.startup.kind ≠ .warm → u.startup.drawn.length = 3 →
            exec (.rndWord dt w true) s = .next (s.left { v with pump.bootId := bootOf w }))) ∧
        (∀ w, u.running = true → u.keeperAlive = true → u.startup.factoryStep = 0 → u.routes.rt.wantsKey = true →
          exec (.rndWord dt w true) s = .next (s.left { u with levels.rndHealth := true, routes.rt := u.routes.rt.loadKey w })) ∧
        (∀ w, u.running = true → u.keeperAlive = true → u.startup.factoryStep = 0 → u.routes.rt.wantsKey = false →
          u.routes.rg.wantsKey = true →
          exec (.rndWord dt w true) s = .next (s.left { u with levels.rndHealth := true, routes.rg := u.routes.rg.loadKey w })) ∧
        (∀ w r, u.running = true → u.keeperGoes = true → u.routes.rt.wantsKey = false → u.routes.rg.wantsKey = false →
          u.repairWants = none → u.retryWants = none → u.keeper.run = some r → r.phase = .random →
          exec (.rndWord dt w true) s = .next (s.left { u with levels.rndHealth := true, keeper.words := u.keeper.words ++ [w] }))) ∧
      (u.startup.rndTest = none → exec (.rndKatTimeout dt) s = .next (s.left u)) ∧
      (∀ e, u.startup.rndTest = some e → u.startup.katWords.length ≠ 4 →
        (u.clock.edge < e + 1250000 → exec (.rndKatTimeout dt) s = .next (s.left u)) ∧
        (e + 1250000 ≤ u.clock.edge → u.startup.ready = true → exec (.rndKatTimeout dt) s = .next (s.left
          { u with startup.rndTest := none, startup.rndQuiet := u.clock.edge + 16 })) ∧
        (e + 1250000 ≤ u.clock.edge → u.startup.ready = false → ∃ t : State, exec (.rndKatTimeout dt) s = .next (s.left t) ∧
          t.startup.rndTest = none ∧ t.startup.rndQuiet = u.clock.edge + 16 ∧
          ∀ b, (u.well b).starting = true → (u.well b).step = 9 → (t.well b).failed = 9)) ∧
      ((u.clock.edge % Config.sclk ≠ 0 ∨ u.clock.edge < u.clock.nextSclk) → exec (.sclkEdge dt) s = .next (s.left u)) ∧
      (∀ n, u.clock.edge % Config.sclk = 0 → u.clock.nextSclk ≤ u.clock.edge → (u.clock.edge - u.clock.nextSclk) / Config.sclk + 1 = n →
        ∃ t : State, exec (.sclkEdge dt) s = .next (s.left t) ∧ t.clock.ticks = u.clock.ticks + n ∧
        t.clock.sclkCount = u.clock.sclkCount + BitVec.ofNat 32 n ∧ t.clock.dcWindow = u.sampled.clock.dcStaged ∧
        t.clock.slowPend = (u.clock.slowPend && decide (u.clock.dcAt = some u.clock.edge)) ∧
        t.clock.nextSclk = u.clock.edge + Config.sclk ∧ { t with clock := u.clock } = u)) ∧
    (∀ tms tdi code, exec (.tapTckEdge dt tms tdi false code) s = .next (s.left
      { u with tap.state := 0, tap.inForce := .idcode, tap.tdo := none })) ∧
    (∀ tms tdi code, ∃ t : State, exec (.tapTckEdge dt tms tdi true code) s = .next (s.left t) ∧
      t.tap.state = tapNext u.tap.state tms ∧ { t with tap := u.tap } = u ∧
      (tapNext u.tap.state tms ≠ 0 → tapNext u.tap.state tms ≠ 15 → t.tap.inForce = u.tap.inForce) ∧
      (tapNext u.tap.state tms = 15 → t.tap.inForce = code) ∧ (tapNext u.tap.state tms = 0 → t.tap.inForce = .idcode) ∧
      (u.tap.state = 11 → u.tap.irShift = 0 → t.tap.tdo = some true) ∧ (u.tap.state ≠ 4 → u.tap.state ≠ 11 → t.tap.tdo = none) ∧
      (u.tap.state = 3 → u.tapActs = .idcode → t.tap.shift = BitVec.ofNat 32 ((u.fuse fwIdcode).getD 0)))
end

