-- ==== Sys2Proof/Laws/Settle.lean ====
section
/-! SUPPORT. What settling the fabric events of an edge leaves (R44, R85). -/

namespace Sys2Proof.Machine

@[simp] theorem State.settle_raised (n : Nat) (s : State) : (s.settle n).raised = [] := by
  induction n generalizing s with
  | zero => rfl
  | succ n ih =>
    unfold State.settle
    split
    · next h => exact List.isEmpty_iff.mp h
    · exact ih _

/-- A state with no event raised is settled already. -/
theorem State.settle_of_raised_nil (n : Nat) {s : State} (h : s.raised = []) : s.settle n = s := by
  cases n with
  | zero => cases s; cases h; rfl
  | succ n => simp [State.settle, h]

@[simp] theorem State.settle_settle (m n : Nat) (s : State) : (s.settle m).settle n = s.settle m :=
  State.settle_of_raised_nil n (s.settle_raised m)

@[simp] theorem State.left_raised (s t : State) : (s.left t).raised = [] := by
  simp [State.left]

@[simp] theorem State.left_pending (s t : State) : (s.left t).pending = s.pending := rfl

/-- Settling first changes nothing of what a command leaves. -/
@[simp] theorem State.left_settle (s t : State) : s.left (t.settle settleFuel) = s.left t := by
  simp [State.left]

/-- What a command leaves where it raises no event: the state it made, with the queue as it found it. -/
theorem State.left_of_raised_nil (s : State) {t : State} (h : t.raised = []) :
    s.left t = { t with pending := s.pending } := by
  simp [State.left, State.settle_of_raised_nil settleFuel h]

/-- No event waits at the edge of a command. -/
@[simp] theorem State.elapse_raised (s : State) (dt : Nat) : (s.elapse dt).raised = [] := by
  simp [State.elapse]

theorem State.elapse_calm (s : State) (dt : Nat) : (s.elapse dt).calm := s.elapse_raised dt

theorem State.portEdge_raised (s : State) (dt : Nat) : (s.portEdge dt).raised = [] := by
  simp [State.portEdge]

end Sys2Proof.Machine
end

