-- ==== Sys2Proof/Laws/Exec.lean ====
section
/-! SUPPORT. The forms of a command: what each answers, once for all commands of the form (R66, R67, R360, R409, R435). -/

namespace Sys2Proof.Machine

theorem State.answers_eq (s t : State) : s.answers t = .next (s.left t) := rfl

theorem State.always_eq (s : State) (dt : Nat) (f : State → State) :
    s.always dt f = .next (s.left (f (s.elapse dt))) := rfl

/-- A command of the data plane has its effect where the plane runs. -/
theorem State.plane_on {s : State} {dt : Nat} {f : State → State} (h : (s.elapse dt).running = true) :
    s.plane dt f = .next (s.left (f (s.elapse dt))) := by
  simp [State.plane, State.always_eq, h]

/-- A command of the data plane only lets its edges pass before READY and in a freeze. -/
theorem State.plane_off {s : State} {dt : Nat} {f : State → State} (h : (s.elapse dt).running = false) :
    s.plane dt f = .next (s.left (s.elapse dt)) := by
  simp [State.plane, State.always_eq, h]

theorem State.readyBy_on {s : State} {dt : Nat} {f : State → State} (h : (s.elapse dt).startup.ready = true) :
    s.readyBy dt f = .next (s.left (f (s.elapse dt))) := by
  simp [State.readyBy, State.always_eq, h]

theorem State.readyBy_off {s : State} {dt : Nat} {f : State → State} (h : (s.elapse dt).startup.ready = false) :
    s.readyBy dt f = .next (s.left (s.elapse dt)) := by
  simp [State.readyBy, State.always_eq, h]

/-- A command of the keeper has its effect where the plane runs. -/
theorem State.keeperBy_on {s : State} {dt : Nat} {f : State → State} (h : (s.elapse dt).running = true) :
    s.keeperBy dt f = .next (s.left (f (s.elapse dt))) := by
  simp [State.keeperBy, State.always_eq, h]

/-- A command of the keeper only lets its edges pass before READY. -/
theorem State.keeperBy_off {s : State} {dt : Nat} {f : State → State} (h : (s.elapse dt).startup.ready = false) :
    s.keeperBy dt f = .next (s.left (s.elapse dt)) := by
  have : (s.elapse dt).running = false := by simp [State.running, h]
  simp [State.keeperBy, State.always_eq, h, this]

theorem State.serviceBy_on {s : State} {dt : Nat} {f : State → State}
    (hr : (s.elapse dt).startup.inReset = false) (hf : (s.elapse dt).frozen = false) :
    s.serviceBy dt f = .next (s.left (f (s.elapse dt))) := by
  simp [State.serviceBy, State.always_eq, hr, hf]

theorem State.clockedBy_on {s : State} {dt : Nat} {f : State → State}
    (h : (s.elapse dt).startup.inReset = false) :
    s.clockedBy dt f = .next (s.left (f (s.elapse dt))) := by
  simp [State.clockedBy, State.always_eq, h]

theorem State.clockedBy_off {s : State} {dt : Nat} {f : State → State}
    (h : (s.elapse dt).startup.inReset = true) :
    s.clockedBy dt f = .next (s.left (s.elapse dt)) := by
  simp [State.clockedBy, State.always_eq, h]

/-- A running plane is not frozen. -/
theorem State.not_frozen_of_running {s : State} (h : s.running = true) : s.frozen = false := by
  simp only [State.running, Bool.and_eq_true, Bool.not_eq_true'] at h
  exact h.2

theorem State.ready_of_running {s : State} (h : s.running = true) : s.startup.ready = true := by
  simp only [State.running, Bool.and_eq_true, Bool.not_eq_true'] at h
  exact h.1

/-- The run of an opcode and phase is the keeper's run, at a KCLK edge of a keeper that goes (R23, R301). -/
theorem State.runOf_fields {u : State} {op : Nat} {ph : Phase} {r : Run} (h : u.runOf op ph = some r) :
    u.atKclk = true ∧ u.keeperGoes = true ∧ u.keeper.run = some r ∧ r.cmd.opcode = BitVec.ofNat 8 op ∧ r.phase = ph ∧
      (ph ≠ .fresh ∨ r.cmd.resumes = false) := by
  simp only [State.runOf, State.phaseOf] at h
  split at h
  · next hk =>
    split at h
    · cases h
    · next hg =>
      split at h
      · next r' hr =>
        split at h
        · next hc =>
          cases h
          exact ⟨hk, by simpa using hg, hr, hc.1, hc.2.1, by simpa using hc.2.2⟩
        · cases h
      · cases h
  · cases h

theorem State.runOf_unique {u : State} {op op' : Nat} {ph ph' : Phase} {r r' : Run} (h : u.runOf op ph = some r)
    (h' : u.runOf op' ph' = some r') : r = r' ∧ BitVec.ofNat 8 op = BitVec.ofNat 8 op' ∧ ph = ph' := by
  obtain ⟨_, _, h1, h2, h3, _⟩ := State.runOf_fields h
  obtain ⟨_, _, h1', h2', h3', _⟩ := State.runOf_fields h'
  have : r = r' := Option.some.inj (h1.symm.trans h1')
  subst this
  exact ⟨rfl, h2.symm.trans h2', h3.symm.trans h3'⟩

/-- The run is in one phase. -/
theorem State.runOf_other {u : State} {op : Nat} {ph ph' : Phase} {r : Run} (h : u.runOf op ph = some r)
    (hne : ph ≠ ph') : u.runOf op ph' = none := by
  rcases h' : u.runOf op ph' with _ | r'
  · rfl
  · exact absurd (State.runOf_unique h h').2.2 hne

/-- An access that finds the port open is performed at the edge at which it passes. -/
theorem State.portAccess_open {s : State} {dt : Nat} (a : Access) (h : s.portOpen dt) :
    s.portAccess dt a = .next (s.left ((s.portEdge dt).perform a)) := by
  obtain ⟨h1, h2, h3, h4, h5, _⟩ := h
  have h6 : ((s.elapse dt).elapse ((s.elapse dt).nextPass - (s.elapse dt).clock.edge)).frozen = false := by
    have := State.not_frozen_of_running h5
    simpa [State.portEdge, State.frozen] using this
  have h7 : (s.elapse dt).offer a = ((s.portEdge dt).perform a).settle settleFuel := by
    simp [State.offer, h1, h2, h3, h4, h6, State.pass, State.portEdge]
  rw [State.portAccess, State.always_eq, h7, State.left_settle]

/-- An access while the port accepts none is not taken. -/
theorem State.portAccess_closed {s : State} {dt : Nat} (a : Access) (h : (s.elapse dt).dead = false)
    (h' : (s.elapse dt).accepts = false) :
    s.portAccess dt a = .next (s.left (s.elapse dt)) := by
  simp [State.portAccess, State.always_eq, State.offer, h, h']

end Sys2Proof.Machine
end

