-- ==== Sys2Proof/Laws/Pages.lean ====
section
/-! SUPPORT. Page reads: what a read that both wells call clean gives (R386, R389). -/

namespace Sys2Proof.Machine

theorem State.not_poisoned {s : State} (h : s.pagesSound) (store page : Nat) : s.poisoned store page = false := by
  simp [State.poisoned, h.1, look]

theorem State.no_stored {s : State} (h : s.pagesSound) (b : Bool) (store page : Nat) : s.storedErrs b store page = 0 := by
  cases b <;> simp [State.storedErrs, h.2, look]

/-- Only the two stores' pages carry an EPOCH. -/
theorem State.epochBad_other {s : State} {store page : Nat} (h : 2 ≤ store) : s.epochBad store page = false := by
  simp [State.epochBad]; omega

/-- A clean read of a sound page gives its data and changes nothing. -/
theorem State.readPage_clean {s : State} {store page req : Nat} {scrub : Bool} (h : s.pagesSound)
    (h2 : s.epochBad store page = false) : s.readPage store page req scrub cleanRead = (⟨true, false, 0⟩, s) := by
  have v : s.pageVerdicts store page cleanRead = (.clean, .clean) := by
    simp [State.pageVerdicts, State.no_stored h, h2, cleanRead, withStored, asRead]
  simp [State.readPage, State.not_poisoned h, v, errOf, uncorrOf, isErr, isUncorr, State.tallyErr, State.keepErrs]

/-- A clean read of a cistern's cache entry changes nothing, and one that is not cached reads no page. -/
theorem State.readEntry_clean {s : State} {c : Nat} {page : PageRead}
    (h : s.cached c = none ∨ s.pagesSound ∧ page = cleanRead) : s.readEntry c page = s := by
  unfold State.readEntry
  rcases h with h | ⟨h, rfl⟩
  · simp [h]
  · split
    · rw [State.readPage_clean h (State.epochBad_other (by omega))]; rfl
    · rfl

end Sys2Proof.Machine
end

