-- ==== Sys2Proof/Laws/Place.lean ====
section
/-! SUPPORT. Where a register's block offset lies: the address map takes each frame, view and offset apart as it was put together (R70, R73). -/

namespace Sys2Proof.Machine

/-- The offset of a register of a global, host or core frame is decoded to that frame, view and offset. -/
theorem placeOf_byteAt {f view o : Nat} (hf : f < 0x28 ∨ 0x40 ≤ f ∧ f < 0x180) (hv : view < 4) (ho : o < 0x1000) :
    placeOf (byteAt f view o) = .frame f view o := by
  have h1 : byteAt f view o / 4096 % 4 = view := by simp only [byteAt]; omega
  have h2 : byteAt f view o % 4096 = o := by simp only [byteAt]; omega
  have h3 : byteAt f view o / 0x4000 = f := by simp only [byteAt]; omega
  unfold placeOf
  simp only [h1, h2, h3]
  rcases hf with hf | ⟨hl, hh⟩
  · have : byteAt f view o < 0x100000 := by simp only [byteAt]; omega
    simp [this, hf]
  · have h4 : ¬ byteAt f view o < 0x100000 := by simp only [byteAt]; omega
    simp only [h4, if_false]
    by_cases hc : f < 0x80
    · have h5 : byteAt f view o < 0x200000 := by simp only [byteAt]; omega
      have h6 : 0x40 + (byteAt f view o - 0x100000) / 0x4000 = f := by simp only [byteAt]; omega
      simp [h5, h6]
    · have h5 : ¬ byteAt f view o < 0x200000 := by simp only [byteAt]; omega
      have h6 : byteAt f view o < 0x600000 := by simp only [byteAt]; omega
      have h7 : 0x80 + (byteAt f view o - 0x200000) / 0x4000 = f := by simp only [byteAt]; omega
      simp [h5, h6, h7]

/-- A word of a mailbox window is decoded to that mailbox and offset. -/
theorem placeOf_boxByte {mb word : Nat} (hm : mb < 64) (hw : word < 4096) :
    placeOf (boxByte mb word) = .mailbox mb (4 * word) := by
  have h1 : ¬ boxByte mb word < 0x100000 := by simp only [boxByte]; omega
  have h2 : ¬ boxByte mb word < 0x200000 := by simp only [boxByte]; omega
  have h3 : ¬ boxByte mb word < 0x600000 := by simp only [boxByte]; omega
  have h4 : boxByte mb word < 0x700000 := by simp only [boxByte]; omega
  have h5 : (boxByte mb word - 0x600000) / 0x4000 = mb := by simp only [boxByte]; omega
  have h6 : boxByte mb word % 0x4000 = 4 * word := by simp only [boxByte]; omega
  simp [placeOf, h1, h2, h3, h4, h5, h6]

/-- A word of a store window is decoded to that window and offset. -/
theorem placeOf_windowByte {word : Nat} (rights : Bool) (hw : word < 262144) :
    placeOf (windowByte rights word) = .window rights (4 * word) := by
  cases rights
  · have h1 : windowByte false word = 0x800000 + 4 * word := rfl
    have h2 : ¬ 0x800000 + 4 * word < 0x100000 := by omega
    have h3 : ¬ 0x800000 + 4 * word < 0x200000 := by omega
    have h4 : ¬ 0x800000 + 4 * word < 0x600000 := by omega
    have h5 : ¬ 0x800000 + 4 * word < 0x700000 := by omega
    have h6 : ¬ 0x800000 + 4 * word < 0x800000 := by omega
    have h7 : 0x800000 + 4 * word < 0x900000 := by omega
    have h8 : 0x800000 + 4 * word - 0x800000 = 4 * word := by omega
    simp only [placeOf, h1, h2, h3, h4, h5, h6, h7, h8, if_true, if_false]
  · have h1 : windowByte true word = 0x900000 + 4 * word := rfl
    have h2 : ¬ 0x900000 + 4 * word < 0x100000 := by omega
    have h3 : ¬ 0x900000 + 4 * word < 0x200000 := by omega
    have h4 : ¬ 0x900000 + 4 * word < 0x600000 := by omega
    have h5 : ¬ 0x900000 + 4 * word < 0x700000 := by omega
    have h6 : ¬ 0x900000 + 4 * word < 0x800000 := by omega
    have h7 : ¬ 0x900000 + 4 * word < 0x900000 := by omega
    have h8 : 0x900000 + 4 * word < 0xA00000 := by omega
    have h9 : 0x900000 + 4 * word - 0x900000 = 4 * word := by omega
    simp only [placeOf, h1, h2, h3, h4, h5, h6, h7, h8, h9, if_true, if_false]

end Sys2Proof.Machine
end

