-- ==== Sys2Proof/Laws/Port.lean ====
section
/-! SUPPORT. Register accesses: what an admitted access performs, and what a refusal leaves (R36 to R39, R63). -/

namespace Sys2Proof.Machine

/-- The gate of an access to a frame. -/
theorem State.admits_of_frame {v : State} {a : Access} {f view o : Nat} (h : placeOf a.byte = .frame f view o) :
    v.sampled.admits a = v.frameAdmits f a.host a.write := by
  simp [State.admits, h, State.frameAdmits]

theorem State.setReg_hold (v : State) (f o : Nat) (w : Word) : (v.setReg f o w).front.hold = v.front.hold := rfl

theorem State.portOpen_hold {s : State} {dt : Nat} (h : s.portOpen dt) : (s.portEdge dt).front.hold = none := h.2.2.2.2.2

/-- With no hold begun, an access is answered at once. -/
theorem State.answerUnlessHeld_none {v : State} (h : v.front.hold = none) (c : Code) (d : DWord) :
  v.answerUnlessHeld c d = v.answer c d := by
  simp [State.answerUnlessHeld, h]

theorem State.countBy_hold (s : State) (f i k : Nat) : (s.countBy f i k).front.hold = s.front.hold := by
  unfold State.countBy; dsimp only; split <;> rfl

theorem State.recordPage_hold (s : State) (f r : Nat) (w : Word) : (s.recordPage f r w).front.hold = s.front.hold := by
  unfold State.recordPage; dsimp only; split
  · rfl
  · simp [State.count, State.raise, State.countBy_hold, State.setFault]

theorem tableReg_facts {f o : Nat} (h : tableReg f o = true) : f < 0x28 ∧ 0x20 ≤ o ∧ ¬ (0x400 ≤ o ∧ o < 0x800) ∧ o < 0x1000
   ∧ ¬ (0x17 ≤ f ∧ f < 0x1F) ∧ ¬ (f = 0x23 ∧ o = 0x20) ∧ ¬ (f = 0x25 ∧ o = 0x30) ∧ f ≠ 0 ∧ ¬ (f = 0x23 ∧ o = 0x38) := by
  simp only [tableReg, isGlobal, Bool.and_eq_true, Bool.or_eq_true, Bool.not_eq_true', decide_eq_true_eq, decide_eq_false_iff_not, Bool.and_eq_false_iff, fGroup, fTwin, fFuse, fPump] at h
  obtain ⟨⟨⟨⟨⟨⟨⟨h1, h2⟩, h3⟩, h4⟩, h5⟩, h6⟩, h7⟩, h8⟩ := h
  refine ⟨h1, h2, by omega, h4, by omega, by omega, by omega, ?_, ?_⟩
  · rintro rfl; simp [regInfo, isCoreFrame, isHostFrame] at h5
  · rintro ⟨rfl, rfl⟩; revert h5; decide

/-- No register of a global page is guarded. -/
theorem isGuarded_global {f o : Nat} (h : f < 0x28) : isGuarded f o = false := by
  have : isHostFrame f = false := by simp [isHostFrame]; omega
  have h2 : isCoreFrame f = false := by simp [isCoreFrame]; omega
  simp [isGuarded, rwgMask, this, h2]

/-- A write to a table register goes to the register table. -/
theorem State.writeFrame_table {v : State} {a : Access} {byte f view o : Nat} {w : Word} (h : tableReg f o = true) :
   v.writeFrame a byte f view o w = v.writeReg a byte f view o w := by
  obtain ⟨h1, h2, h3, h4, h5, h6, h7, h8, h9⟩ := tableReg_facts h
  have c : isCoreFrame f = false := by simp [isCoreFrame]; omega
  have e1 : o ≠ 0x10 := by omega
  have e2 : ¬ o < 0x20 := by omega
  have e3 : ¬ (1024 ≤ o ∧ o < 1536) := by omega
  have e4 : ¬ (1536 ≤ o ∧ o < 2048) := by omega
  have e5 : (decide (fGroup 0 ≤ f) && decide (f < fPump)) = false := by
    simp [fGroup, fPump]; omega
  simp [State.writeFrame, isGuarded_global h1, e1, e2, e3, e4, c, h8, h9, e5]

theorem State.storeReg_quiet {v : State} {f o : Nat} {w : Word} (h : quietReg f o = true) : v.storeReg f o w = v.setReg f o w := by
  simp only [quietReg, Bool.and_eq_true, Bool.not_eq_true', Bool.and_eq_false_iff, Bool.or_eq_false_iff, decide_eq_false_iff_not] at h
  obtain ⟨⟨⟨⟨⟨h0, h1⟩, h2⟩, h3⟩, h4⟩, h5⟩ := h
  have e4 : ¬ (f = fFast ∧ o = 0x34) := by omega
  have e1 : ¬ (f = fRoute ∧ (o = 0x40 ∨ o = 0x44)) := by omega
  have e2 : ¬ (f = fPump ∧ o = 0x34) := by omega
  have e3 : ¬ (f = fPump ∧ o = 0x38) := by omega
  unfold State.storeReg
  rw [if_neg e1, if_neg e4, if_neg e2, if_neg e3, if_neg h3, if_neg h4]

/-- A 32-bit write that the gate admits is performed on its frame. -/
theorem State.perform_write {v : State} {a : Access} {f view o : Nat} (hr : v.startup.ready = true) (hp : placeOf a.byte = .frame f view o)
  (hw : a.write = true) (hk : a.keeper = false) (hn : a.wide = false) (ha : a.byte % 4 = 0) (had : v.frameAdmits f a.host true = true) :
  v.perform a = (v.writeFrame a a.byte f view o (loWord a.data)).answer := by
  have := State.admits_of_frame (v := v) hp
  rw [hw, had] at this
  simp [State.perform, hp, hw, hk, hn, hr, ha, this, State.half]

/-! ### What leaves the ordering point's hold alone -/

theorem State.event_hold (s : State) (f i fev : Nat) : (s.event f i fev).front.hold = s.front.hold :=
  State.countBy_hold s f i 1

theorem State.count_hold (s : State) (f i : Nat) : (s.count f i).front.hold = s.front.hold :=
  State.countBy_hold s f i 1

theorem State.withdrawN_hold (s : State) (n : Nat) : (s.withdrawN n).front.hold = s.front.hold := by
  unfold State.withdrawN
  split
  · rfl
  · split
    · rfl
    · exact State.count_hold _ _ _

theorem State.withdrawF_hold (s : State) (n : Nat) : (s.withdrawF n).front.hold = s.front.hold := by
  unfold State.withdrawF
  split
  · rfl
  · split
    · rfl
    · exact State.count_hold _ _ _

theorem foldl_hold {α : Type} (f : State → α → State) (h : ∀ s x, (f s x).front.hold = s.front.hold) (l : List α)
    (s : State) : (l.foldl f s).front.hold = s.front.hold := by
  induction l generalizing s with
  | nil => rfl
  | cons x l ih => rw [List.foldl_cons, ih, h]

theorem State.recheck_hold (s : State) : s.recheck.front.hold = s.front.hold := by
  refine foldl_hold _ (fun s n => ?_) _ _
  dsimp only
  split <;> split <;> simp [State.withdrawN_hold, State.withdrawF_hold]

theorem State.modWell_hold (s : State) (b : Bool) (f : Well → Well) : (s.modWell b f).front.hold = s.front.hold := by
  unfold State.modWell State.setWell; split <;> rfl

theorem State.trigger_hold (s : State) (c : Nat) : (s.trigger c).front.hold = s.front.hold := by
  unfold State.trigger
  repeat' split
  all_goals rfl

theorem State.countErr_hold (s : State) (m p : Nat) (a b c : Bool) : (s.countErr m p a b c).front.hold = s.front.hold := by
  unfold State.countErr
  cases b <;> cases c <;> simp [State.count_hold, State.event_hold]

theorem State.countPoison_hold (s : State) (b : Bool) : (s.countPoison b).front.hold = s.front.hold := by
  unfold State.countPoison
  rw [State.count_hold, State.event_hold]

theorem State.keepErrs_hold (s : State) (b : Bool) (m p : Nat) (v : Verdict) :
    (s.keepErrs b m p v).front.hold = s.front.hold := by
  unfold State.keepErrs
  split
  · exact State.modWell_hold _ _ _
  · rfl

theorem State.poisonIn_hold (s : State) (b : Bool) (m p r : Nat) : (s.poisonIn b m p r).front.hold = s.front.hold :=
  State.modWell_hold _ _ _

theorem State.tallyErr_hold (s : State) (m p : Nat) (b : Bool) (v : Verdict × Verdict) :
    (s.tallyErr m p b v).front.hold = s.front.hold := by
  unfold State.tallyErr
  dsimp only
  rw [State.keepErrs_hold, State.keepErrs_hold]
  split
  · exact State.countErr_hold ..
  · rfl

theorem State.poisonWells_hold (s : State) (m p r : Nat) (v : Verdict × Verdict) :
    (s.poisonWells m p r v).front.hold = s.front.hold := by
  unfold State.poisonWells
  dsimp only
  split <;> split <;> simp [State.poisonIn_hold]

theorem State.uncorrTrigger_hold (s : State) (v : Verdict × Verdict) : (s.uncorrTrigger v).front.hold = s.front.hold := by
  unfold State.uncorrTrigger
  split
  · exact State.trigger_hold ..
  · split
    · exact State.trigger_hold ..
    · rfl

theorem State.askRebuild_hold (s : State) (m p : Nat) (b : Bool) : (s.askRebuild m p b).front.hold = s.front.hold := by
  unfold State.askRebuild; split <;> rfl

theorem State.takeUncorr_hold (s : State) (m p r : Nat) (b : Bool) (v : Verdict × Verdict) :
    (s.takeUncorr m p r b v).front.hold = s.front.hold := by
  unfold State.takeUncorr
  dsimp only
  rw [State.askRebuild_hold, State.uncorrTrigger_hold]
  split
  · rw [State.countPoison_hold, State.poisonWells_hold]
  · exact State.poisonWells_hold ..

/-- A page read leaves the ordering point alone. -/
theorem State.readPage_hold (s : State) (m p r : Nat) (b : Bool) (v : PageRead) :
    (s.readPage m p r b v).2.front.hold = s.front.hold := by
  unfold State.readPage
  split
  · exact State.count_hold _ _ _
  · dsimp only
    split
    · exact State.tallyErr_hold ..
    · exact (State.takeUncorr_hold ..).trans (State.tallyErr_hold ..)

theorem State.readInt_hold (s : State) (k r : Nat) : (s.readInt k r).2.front.hold = s.front.hold := by
  unfold State.readInt
  split
  · exact State.readPage_hold ..
  · rfl

theorem State.wroteWhole_hold (s : State) (m p : Nat) : (s.wroteWhole m p).front.hold = s.front.hold := by
  unfold State.wroteWhole State.pageWritten
  dsimp only
  repeat' split
  all_goals exact (State.modWell_hold _ _ _).trans (State.modWell_hold _ _ _)

theorem State.updatePage_hold (s : State) (m u p r : Nat) : (s.updatePage m u p r).front.hold = s.front.hold := by
  unfold State.updatePage
  split
  · rfl
  · rw [State.wroteWhole_hold]
    exact State.readPage_hold ..

theorem State.updateInt_hold (s : State) (k u : Nat) : (s.updateInt k u).front.hold = s.front.hold := by
  unfold State.updateInt State.rewritePage
  dsimp only
  split
  · split
    · rfl
    · rw [State.wroteWhole_hold]; rfl
  · exact State.updatePage_hold ..

/-- A vote of the fast table leaves the ordering point and the clock alone. -/
theorem State.ftFix_front_clock (s : State) (b : Bool) (i : Nat) :
    (s.ftFix b i).front.hold = s.front.hold ∧ (s.ftFix b i).clock = s.clock := by
  unfold State.ftFix
  repeat' split
  · exact ⟨rfl, rfl⟩
  · exact ⟨rfl, rfl⟩
  · refine ⟨State.event_hold s fFast 7 139, ?_⟩
    show (s.event fFast 7 139).clock = s.clock
    simp only [State.event, State.count, State.raise, State.countBy]
    split <;> rfl

theorem State.ftRead_hold (s : State) (k : Nat) : (s.ftRead k).front.hold = s.front.hold := by
  unfold State.ftRead
  split
  · exact (State.ftFix_front_clock ..).1
  · rfl

theorem State.ftRead_clock (s : State) (k : Nat) : (s.ftRead k).clock = s.clock := by
  unfold State.ftRead
  split
  · exact (State.ftFix_front_clock ..).2
  · rfl

theorem State.pend_hold (s : State) (k : Nat) (o : Origin) : (s.pend k o).front.hold = s.front.hold := by
  have h : ∀ (c : Prop) [Decidable c] (t : State) (a b : Nat), (if c then t.count a b else t).front.hold = t.front.hold := by
    intro c _ t a b
    split
    · exact State.count_hold _ _ _
    · rfl
  unfold State.pend
  dsimp only
  split
  · rw [State.count_hold]
    exact (h ..).trans (State.ftRead_hold ..)
  · rw [State.updateInt_hold]
    exact (h ..).trans (State.ftRead_hold ..)

theorem State.release_hold (s : State) (n : Nat) (b : Bool) (a : ActSlot) (u : Bool) :
    (s.release n b a u).front.hold = s.front.hold := by
  unfold State.release
  dsimp only
  split
  · exact State.updateInt_hold ..
  · rfl

theorem State.drop_hold (s : State) (n : Nat) (b : Bool) : (s.drop n b).front.hold = s.front.hold := by
  unfold State.drop
  split
  · rfl
  · rw [State.count_hold, State.event_hold, State.release_hold, State.readInt_hold]

theorem State.emptyCaches_hold (s : State) : s.emptyCaches.front.hold = s.front.hold := by
  unfold State.emptyCaches
  exact foldl_hold (fun (s : State) p => s.modPort p fun x => { x with cache := [] }) (fun _ _ => rfl) _ s

theorem State.markOld_hold (s : State) (h : Nat) : (s.markOld h).front.hold = s.front.hold := by
  unfold State.markOld
  generalize (fun (u : Unsettled) => if s.sampled.hostOf u.rid = h then { u with olds := u.olds ++ [h] } else u) = old
  exact foldl_hold (fun (t : State) p => t.modPort p fun x => { x with unsettled := x.unsettled.map old }) (fun _ _ => rfl) _ s

/-- A 32-bit read of a register that holds nothing at the ordering point is performed on its frame. -/
theorem State.perform_read {v : State} {a : Access} {f view o : Nat} (hp : placeOf a.byte = .frame f view o)
    (hw : a.write = false) (hk : a.keeper = false) (hn : a.wide = false) (ha : a.byte % 4 = 0) (had : v.frameAdmits f a.host false = true)
    (hh : v.holdRead a = none) :
    v.perform a = (v.readFrame a a.byte f view o).answer := by
  have := State.admits_of_frame (v := v) hp
  rw [hw, had] at this
  simp [State.perform, hp, hw, hk, hn, ha, this, State.half, hh]

/-! ### A 32-bit write at the port -/

/-- A 32-bit write that finds the port open and that the gate admits. -/
theorem State.port_write {s : State} {dt : Nat} {host : HostId} {f view o : Nat} {data : DWord} (ho : s.portOpen dt)
   (hf : f < 0x28 ∨ 0x40 ≤ f ∧ f < 0x180) (hv : view < 4) (h1 : o < 0x1000) (h2 : o % 4 = 0)
   (had : (s.portEdge dt).frameAdmits f host true = true) :
   s.portAccess dt (writeTo host (byteAt f view o) false data) =
    .next (s.left ((s.portEdge dt).writeFrame (writeTo host (byteAt f view o) false data) (byteAt f view o) f view o (loWord data)).answer) := by
  have hp := placeOf_byteAt hf hv h1
  rw [State.portAccess_open _ ho, State.perform_write (State.ready_of_running ho.2.2.2.2.1) hp rfl rfl rfl (by simp [writeTo, byteAt]; omega) had]
  rfl

@[simp] theorem loWord_narrow (w : Word) : loWord (narrow w) = w := by
  simp [loWord, narrow]

/-- A refused half records itself on the page of its register. -/
theorem State.refuse_at {s : State} {a : Access} {f view o reason : Nat} (hf : f < 0x28 ∨ 0x40 ≤ f ∧ f < 0x180) (hv : view < 4) (h1 : o < 0x1000) (hh : s.front.hold = none) :
   (s.refuse a (byteAt f view o) reason).answer = s.refusedAt f reason view o (!a.write) a.host := by
  simp only [State.refuse, placeOf_byteAt hf hv h1, HalfResult.answer, State.refusedAt, Place.page, Place.view, Place.offset]
  rw [State.answerUnlessHeld_none (by simp [State.recordPage_hold, hh])]
  simp

theorem State.ok_answer {s : State} {w : Word} (hh : s.front.hold = none) : (ok s w).answer = s.answer .ok (w.setWidth 64) := by
  simp [ok, HalfResult.answer, State.answerUnlessHeld_none hh]

end Sys2Proof.Machine
end

