-- ==== Sys2Proof/Laws/State.lean ====
section
/-! SUPPORT. What each structure update leaves of the state, one lemma for each field. -/

namespace Sys2Proof.Machine

/-! ### State.setCore -/

@[simp] theorem State.setCore_clock (s : State) (n : Nat) (c : Core) : (s.setCore n c).clock = s.clock := rfl
@[simp] theorem State.setCore_front (s : State) (n : Nat) (c : Core) : (s.setCore n c).front = s.front := rfl
@[simp] theorem State.setCore_ints (s : State) (n : Nat) (c : Core) : (s.setCore n c).ints = s.ints := rfl
@[simp] theorem State.setCore_ports (s : State) (n : Nat) (c : Core) : (s.setCore n c).ports = s.ports := rfl
@[simp] theorem State.setCore_gate (s : State) (n : Nat) (c : Core) : (s.setCore n c).gate = s.gate := rfl
@[simp] theorem State.setCore_routes (s : State) (n : Nat) (c : Core) : (s.setCore n c).routes = s.routes := rfl
@[simp] theorem State.setCore_sluice (s : State) (n : Nat) (c : Core) : (s.setCore n c).sluice = s.sluice := rfl
@[simp] theorem State.setCore_pump (s : State) (n : Nat) (c : Core) : (s.setCore n c).pump = s.pump := rfl
@[simp] theorem State.setCore_levels (s : State) (n : Nat) (c : Core) : (s.setCore n c).levels = s.levels := rfl
@[simp] theorem State.setCore_keeper (s : State) (n : Nat) (c : Core) : (s.setCore n c).keeper = s.keeper := rfl
@[simp] theorem State.setCore_twin (s : State) (n : Nat) (c : Core) : (s.setCore n c).twin = s.twin := rfl
@[simp] theorem State.setCore_integrity (s : State) (n : Nat) (c : Core) : (s.setCore n c).integrity = s.integrity := rfl
@[simp] theorem State.setCore_fuses (s : State) (n : Nat) (c : Core) : (s.setCore n c).fuses = s.fuses := rfl
@[simp] theorem State.setCore_startup (s : State) (n : Nat) (c : Core) : (s.setCore n c).startup = s.startup := rfl
@[simp] theorem State.setCore_tap (s : State) (n : Nat) (c : Core) : (s.setCore n c).tap = s.tap := rfl
@[simp] theorem State.setCore_raised (s : State) (n : Nat) (c : Core) : (s.setCore n c).raised = s.raised := rfl
@[simp] theorem State.setCore_before (s : State) (n : Nat) (c : Core) : (s.setCore n c).before = s.before := rfl
@[simp] theorem State.setCore_pending (s : State) (n : Nat) (c : Core) : (s.setCore n c).pending = s.pending := rfl

/-! ### State.modCore -/

@[simp] theorem State.modCore_clock (s : State) (n : Nat) (f : Core → Core) : (s.modCore n f).clock = s.clock := rfl
@[simp] theorem State.modCore_front (s : State) (n : Nat) (f : Core → Core) : (s.modCore n f).front = s.front := rfl
@[simp] theorem State.modCore_ints (s : State) (n : Nat) (f : Core → Core) : (s.modCore n f).ints = s.ints := rfl
@[simp] theorem State.modCore_ports (s : State) (n : Nat) (f : Core → Core) : (s.modCore n f).ports = s.ports := rfl
@[simp] theorem State.modCore_gate (s : State) (n : Nat) (f : Core → Core) : (s.modCore n f).gate = s.gate := rfl
@[simp] theorem State.modCore_routes (s : State) (n : Nat) (f : Core → Core) : (s.modCore n f).routes = s.routes := rfl
@[simp] theorem State.modCore_sluice (s : State) (n : Nat) (f : Core → Core) : (s.modCore n f).sluice = s.sluice := rfl
@[simp] theorem State.modCore_pump (s : State) (n : Nat) (f : Core → Core) : (s.modCore n f).pump = s.pump := rfl
@[simp] theorem State.modCore_levels (s : State) (n : Nat) (f : Core → Core) : (s.modCore n f).levels = s.levels := rfl
@[simp] theorem State.modCore_keeper (s : State) (n : Nat) (f : Core → Core) : (s.modCore n f).keeper = s.keeper := rfl
@[simp] theorem State.modCore_twin (s : State) (n : Nat) (f : Core → Core) : (s.modCore n f).twin = s.twin := rfl
@[simp] theorem State.modCore_integrity (s : State) (n : Nat) (f : Core → Core) : (s.modCore n f).integrity = s.integrity := rfl
@[simp] theorem State.modCore_fuses (s : State) (n : Nat) (f : Core → Core) : (s.modCore n f).fuses = s.fuses := rfl
@[simp] theorem State.modCore_startup (s : State) (n : Nat) (f : Core → Core) : (s.modCore n f).startup = s.startup := rfl
@[simp] theorem State.modCore_tap (s : State) (n : Nat) (f : Core → Core) : (s.modCore n f).tap = s.tap := rfl
@[simp] theorem State.modCore_raised (s : State) (n : Nat) (f : Core → Core) : (s.modCore n f).raised = s.raised := rfl
@[simp] theorem State.modCore_before (s : State) (n : Nat) (f : Core → Core) : (s.modCore n f).before = s.before := rfl
@[simp] theorem State.modCore_pending (s : State) (n : Nat) (f : Core → Core) : (s.modCore n f).pending = s.pending := rfl

/-! ### State.setPort -/

@[simp] theorem State.setPort_clock (s : State) (p : Nat) (x : Port) : (s.setPort p x).clock = s.clock := rfl
@[simp] theorem State.setPort_front (s : State) (p : Nat) (x : Port) : (s.setPort p x).front = s.front := rfl
@[simp] theorem State.setPort_ints (s : State) (p : Nat) (x : Port) : (s.setPort p x).ints = s.ints := rfl
@[simp] theorem State.setPort_cores (s : State) (p : Nat) (x : Port) : (s.setPort p x).cores = s.cores := rfl
@[simp] theorem State.setPort_gate (s : State) (p : Nat) (x : Port) : (s.setPort p x).gate = s.gate := rfl
@[simp] theorem State.setPort_routes (s : State) (p : Nat) (x : Port) : (s.setPort p x).routes = s.routes := rfl
@[simp] theorem State.setPort_sluice (s : State) (p : Nat) (x : Port) : (s.setPort p x).sluice = s.sluice := rfl
@[simp] theorem State.setPort_pump (s : State) (p : Nat) (x : Port) : (s.setPort p x).pump = s.pump := rfl
@[simp] theorem State.setPort_levels (s : State) (p : Nat) (x : Port) : (s.setPort p x).levels = s.levels := rfl
@[simp] theorem State.setPort_keeper (s : State) (p : Nat) (x : Port) : (s.setPort p x).keeper = s.keeper := rfl
@[simp] theorem State.setPort_twin (s : State) (p : Nat) (x : Port) : (s.setPort p x).twin = s.twin := rfl
@[simp] theorem State.setPort_integrity (s : State) (p : Nat) (x : Port) : (s.setPort p x).integrity = s.integrity := rfl
@[simp] theorem State.setPort_fuses (s : State) (p : Nat) (x : Port) : (s.setPort p x).fuses = s.fuses := rfl
@[simp] theorem State.setPort_startup (s : State) (p : Nat) (x : Port) : (s.setPort p x).startup = s.startup := rfl
@[simp] theorem State.setPort_tap (s : State) (p : Nat) (x : Port) : (s.setPort p x).tap = s.tap := rfl
@[simp] theorem State.setPort_raised (s : State) (p : Nat) (x : Port) : (s.setPort p x).raised = s.raised := rfl
@[simp] theorem State.setPort_before (s : State) (p : Nat) (x : Port) : (s.setPort p x).before = s.before := rfl
@[simp] theorem State.setPort_pending (s : State) (p : Nat) (x : Port) : (s.setPort p x).pending = s.pending := rfl

/-! ### State.modPort -/

@[simp] theorem State.modPort_clock (s : State) (p : Nat) (f : Port → Port) : (s.modPort p f).clock = s.clock := rfl
@[simp] theorem State.modPort_front (s : State) (p : Nat) (f : Port → Port) : (s.modPort p f).front = s.front := rfl
@[simp] theorem State.modPort_ints (s : State) (p : Nat) (f : Port → Port) : (s.modPort p f).ints = s.ints := rfl
@[simp] theorem State.modPort_cores (s : State) (p : Nat) (f : Port → Port) : (s.modPort p f).cores = s.cores := rfl
@[simp] theorem State.modPort_gate (s : State) (p : Nat) (f : Port → Port) : (s.modPort p f).gate = s.gate := rfl
@[simp] theorem State.modPort_routes (s : State) (p : Nat) (f : Port → Port) : (s.modPort p f).routes = s.routes := rfl
@[simp] theorem State.modPort_sluice (s : State) (p : Nat) (f : Port → Port) : (s.modPort p f).sluice = s.sluice := rfl
@[simp] theorem State.modPort_pump (s : State) (p : Nat) (f : Port → Port) : (s.modPort p f).pump = s.pump := rfl
@[simp] theorem State.modPort_levels (s : State) (p : Nat) (f : Port → Port) : (s.modPort p f).levels = s.levels := rfl
@[simp] theorem State.modPort_keeper (s : State) (p : Nat) (f : Port → Port) : (s.modPort p f).keeper = s.keeper := rfl
@[simp] theorem State.modPort_twin (s : State) (p : Nat) (f : Port → Port) : (s.modPort p f).twin = s.twin := rfl
@[simp] theorem State.modPort_integrity (s : State) (p : Nat) (f : Port → Port) : (s.modPort p f).integrity = s.integrity := rfl
@[simp] theorem State.modPort_fuses (s : State) (p : Nat) (f : Port → Port) : (s.modPort p f).fuses = s.fuses := rfl
@[simp] theorem State.modPort_startup (s : State) (p : Nat) (f : Port → Port) : (s.modPort p f).startup = s.startup := rfl
@[simp] theorem State.modPort_tap (s : State) (p : Nat) (f : Port → Port) : (s.modPort p f).tap = s.tap := rfl
@[simp] theorem State.modPort_raised (s : State) (p : Nat) (f : Port → Port) : (s.modPort p f).raised = s.raised := rfl
@[simp] theorem State.modPort_before (s : State) (p : Nat) (f : Port → Port) : (s.modPort p f).before = s.before := rfl
@[simp] theorem State.modPort_pending (s : State) (p : Nat) (f : Port → Port) : (s.modPort p f).pending = s.pending := rfl

/-! ### State.setInt -/

@[simp] theorem State.setInt_clock (s : State) (k : Nat) (x : IntState) : (s.setInt k x).clock = s.clock := rfl
@[simp] theorem State.setInt_front (s : State) (k : Nat) (x : IntState) : (s.setInt k x).front = s.front := rfl
@[simp] theorem State.setInt_cores (s : State) (k : Nat) (x : IntState) : (s.setInt k x).cores = s.cores := rfl
@[simp] theorem State.setInt_ports (s : State) (k : Nat) (x : IntState) : (s.setInt k x).ports = s.ports := rfl
@[simp] theorem State.setInt_gate (s : State) (k : Nat) (x : IntState) : (s.setInt k x).gate = s.gate := rfl
@[simp] theorem State.setInt_routes (s : State) (k : Nat) (x : IntState) : (s.setInt k x).routes = s.routes := rfl
@[simp] theorem State.setInt_sluice (s : State) (k : Nat) (x : IntState) : (s.setInt k x).sluice = s.sluice := rfl
@[simp] theorem State.setInt_pump (s : State) (k : Nat) (x : IntState) : (s.setInt k x).pump = s.pump := rfl
@[simp] theorem State.setInt_levels (s : State) (k : Nat) (x : IntState) : (s.setInt k x).levels = s.levels := rfl
@[simp] theorem State.setInt_keeper (s : State) (k : Nat) (x : IntState) : (s.setInt k x).keeper = s.keeper := rfl
@[simp] theorem State.setInt_twin (s : State) (k : Nat) (x : IntState) : (s.setInt k x).twin = s.twin := rfl
@[simp] theorem State.setInt_integrity (s : State) (k : Nat) (x : IntState) : (s.setInt k x).integrity = s.integrity := rfl
@[simp] theorem State.setInt_fuses (s : State) (k : Nat) (x : IntState) : (s.setInt k x).fuses = s.fuses := rfl
@[simp] theorem State.setInt_startup (s : State) (k : Nat) (x : IntState) : (s.setInt k x).startup = s.startup := rfl
@[simp] theorem State.setInt_tap (s : State) (k : Nat) (x : IntState) : (s.setInt k x).tap = s.tap := rfl
@[simp] theorem State.setInt_raised (s : State) (k : Nat) (x : IntState) : (s.setInt k x).raised = s.raised := rfl
@[simp] theorem State.setInt_before (s : State) (k : Nat) (x : IntState) : (s.setInt k x).before = s.before := rfl
@[simp] theorem State.setInt_pending (s : State) (k : Nat) (x : IntState) : (s.setInt k x).pending = s.pending := rfl

/-! ### State.modInt -/

@[simp] theorem State.modInt_clock (s : State) (k : Nat) (f : IntState → IntState) : (s.modInt k f).clock = s.clock := rfl
@[simp] theorem State.modInt_front (s : State) (k : Nat) (f : IntState → IntState) : (s.modInt k f).front = s.front := rfl
@[simp] theorem State.modInt_cores (s : State) (k : Nat) (f : IntState → IntState) : (s.modInt k f).cores = s.cores := rfl
@[simp] theorem State.modInt_ports (s : State) (k : Nat) (f : IntState → IntState) : (s.modInt k f).ports = s.ports := rfl
@[simp] theorem State.modInt_gate (s : State) (k : Nat) (f : IntState → IntState) : (s.modInt k f).gate = s.gate := rfl
@[simp] theorem State.modInt_routes (s : State) (k : Nat) (f : IntState → IntState) : (s.modInt k f).routes = s.routes := rfl
@[simp] theorem State.modInt_sluice (s : State) (k : Nat) (f : IntState → IntState) : (s.modInt k f).sluice = s.sluice := rfl
@[simp] theorem State.modInt_pump (s : State) (k : Nat) (f : IntState → IntState) : (s.modInt k f).pump = s.pump := rfl
@[simp] theorem State.modInt_levels (s : State) (k : Nat) (f : IntState → IntState) : (s.modInt k f).levels = s.levels := rfl
@[simp] theorem State.modInt_keeper (s : State) (k : Nat) (f : IntState → IntState) : (s.modInt k f).keeper = s.keeper := rfl
@[simp] theorem State.modInt_twin (s : State) (k : Nat) (f : IntState → IntState) : (s.modInt k f).twin = s.twin := rfl
@[simp] theorem State.modInt_integrity (s : State) (k : Nat) (f : IntState → IntState) : (s.modInt k f).integrity = s.integrity := rfl
@[simp] theorem State.modInt_fuses (s : State) (k : Nat) (f : IntState → IntState) : (s.modInt k f).fuses = s.fuses := rfl
@[simp] theorem State.modInt_startup (s : State) (k : Nat) (f : IntState → IntState) : (s.modInt k f).startup = s.startup := rfl
@[simp] theorem State.modInt_tap (s : State) (k : Nat) (f : IntState → IntState) : (s.modInt k f).tap = s.tap := rfl
@[simp] theorem State.modInt_raised (s : State) (k : Nat) (f : IntState → IntState) : (s.modInt k f).raised = s.raised := rfl
@[simp] theorem State.modInt_before (s : State) (k : Nat) (f : IntState → IntState) : (s.modInt k f).before = s.before := rfl
@[simp] theorem State.modInt_pending (s : State) (k : Nat) (f : IntState → IntState) : (s.modInt k f).pending = s.pending := rfl

/-! ### State.setGroup -/

@[simp] theorem State.setGroup_clock (s : State) (g : Nat) (x : Group) : (s.setGroup g x).clock = s.clock := rfl
@[simp] theorem State.setGroup_front (s : State) (g : Nat) (x : Group) : (s.setGroup g x).front = s.front := rfl
@[simp] theorem State.setGroup_ints (s : State) (g : Nat) (x : Group) : (s.setGroup g x).ints = s.ints := rfl
@[simp] theorem State.setGroup_cores (s : State) (g : Nat) (x : Group) : (s.setGroup g x).cores = s.cores := rfl
@[simp] theorem State.setGroup_ports (s : State) (g : Nat) (x : Group) : (s.setGroup g x).ports = s.ports := rfl
@[simp] theorem State.setGroup_gate (s : State) (g : Nat) (x : Group) : (s.setGroup g x).gate = s.gate := rfl
@[simp] theorem State.setGroup_routes (s : State) (g : Nat) (x : Group) : (s.setGroup g x).routes = s.routes := rfl
@[simp] theorem State.setGroup_pump (s : State) (g : Nat) (x : Group) : (s.setGroup g x).pump = s.pump := rfl
@[simp] theorem State.setGroup_levels (s : State) (g : Nat) (x : Group) : (s.setGroup g x).levels = s.levels := rfl
@[simp] theorem State.setGroup_keeper (s : State) (g : Nat) (x : Group) : (s.setGroup g x).keeper = s.keeper := rfl
@[simp] theorem State.setGroup_twin (s : State) (g : Nat) (x : Group) : (s.setGroup g x).twin = s.twin := rfl
@[simp] theorem State.setGroup_integrity (s : State) (g : Nat) (x : Group) : (s.setGroup g x).integrity = s.integrity := rfl
@[simp] theorem State.setGroup_fuses (s : State) (g : Nat) (x : Group) : (s.setGroup g x).fuses = s.fuses := rfl
@[simp] theorem State.setGroup_startup (s : State) (g : Nat) (x : Group) : (s.setGroup g x).startup = s.startup := rfl
@[simp] theorem State.setGroup_tap (s : State) (g : Nat) (x : Group) : (s.setGroup g x).tap = s.tap := rfl
@[simp] theorem State.setGroup_raised (s : State) (g : Nat) (x : Group) : (s.setGroup g x).raised = s.raised := rfl
@[simp] theorem State.setGroup_before (s : State) (g : Nat) (x : Group) : (s.setGroup g x).before = s.before := rfl
@[simp] theorem State.setGroup_pending (s : State) (g : Nat) (x : Group) : (s.setGroup g x).pending = s.pending := rfl

/-! ### State.modGroup -/

@[simp] theorem State.modGroup_clock (s : State) (g : Nat) (f : Group → Group) : (s.modGroup g f).clock = s.clock := rfl
@[simp] theorem State.modGroup_front (s : State) (g : Nat) (f : Group → Group) : (s.modGroup g f).front = s.front := rfl
@[simp] theorem State.modGroup_ints (s : State) (g : Nat) (f : Group → Group) : (s.modGroup g f).ints = s.ints := rfl
@[simp] theorem State.modGroup_cores (s : State) (g : Nat) (f : Group → Group) : (s.modGroup g f).cores = s.cores := rfl
@[simp] theorem State.modGroup_ports (s : State) (g : Nat) (f : Group → Group) : (s.modGroup g f).ports = s.ports := rfl
@[simp] theorem State.modGroup_gate (s : State) (g : Nat) (f : Group → Group) : (s.modGroup g f).gate = s.gate := rfl
@[simp] theorem State.modGroup_routes (s : State) (g : Nat) (f : Group → Group) : (s.modGroup g f).routes = s.routes := rfl
@[simp] theorem State.modGroup_pump (s : State) (g : Nat) (f : Group → Group) : (s.modGroup g f).pump = s.pump := rfl
@[simp] theorem State.modGroup_levels (s : State) (g : Nat) (f : Group → Group) : (s.modGroup g f).levels = s.levels := rfl
@[simp] theorem State.modGroup_keeper (s : State) (g : Nat) (f : Group → Group) : (s.modGroup g f).keeper = s.keeper := rfl
@[simp] theorem State.modGroup_twin (s : State) (g : Nat) (f : Group → Group) : (s.modGroup g f).twin = s.twin := rfl
@[simp] theorem State.modGroup_integrity (s : State) (g : Nat) (f : Group → Group) : (s.modGroup g f).integrity = s.integrity := rfl
@[simp] theorem State.modGroup_fuses (s : State) (g : Nat) (f : Group → Group) : (s.modGroup g f).fuses = s.fuses := rfl
@[simp] theorem State.modGroup_startup (s : State) (g : Nat) (f : Group → Group) : (s.modGroup g f).startup = s.startup := rfl
@[simp] theorem State.modGroup_tap (s : State) (g : Nat) (f : Group → Group) : (s.modGroup g f).tap = s.tap := rfl
@[simp] theorem State.modGroup_raised (s : State) (g : Nat) (f : Group → Group) : (s.modGroup g f).raised = s.raised := rfl
@[simp] theorem State.modGroup_before (s : State) (g : Nat) (f : Group → Group) : (s.modGroup g f).before = s.before := rfl
@[simp] theorem State.modGroup_pending (s : State) (g : Nat) (f : Group → Group) : (s.modGroup g f).pending = s.pending := rfl

/-! ### State.setCounter -/

@[simp] theorem State.setCounter_clock (s : State) (k : Nat) (c : Counter) : (s.setCounter k c).clock = s.clock := rfl
@[simp] theorem State.setCounter_ints (s : State) (k : Nat) (c : Counter) : (s.setCounter k c).ints = s.ints := rfl
@[simp] theorem State.setCounter_cores (s : State) (k : Nat) (c : Counter) : (s.setCounter k c).cores = s.cores := rfl
@[simp] theorem State.setCounter_ports (s : State) (k : Nat) (c : Counter) : (s.setCounter k c).ports = s.ports := rfl
@[simp] theorem State.setCounter_gate (s : State) (k : Nat) (c : Counter) : (s.setCounter k c).gate = s.gate := rfl
@[simp] theorem State.setCounter_routes (s : State) (k : Nat) (c : Counter) : (s.setCounter k c).routes = s.routes := rfl
@[simp] theorem State.setCounter_sluice (s : State) (k : Nat) (c : Counter) : (s.setCounter k c).sluice = s.sluice := rfl
@[simp] theorem State.setCounter_pump (s : State) (k : Nat) (c : Counter) : (s.setCounter k c).pump = s.pump := rfl
@[simp] theorem State.setCounter_levels (s : State) (k : Nat) (c : Counter) : (s.setCounter k c).levels = s.levels := rfl
@[simp] theorem State.setCounter_keeper (s : State) (k : Nat) (c : Counter) : (s.setCounter k c).keeper = s.keeper := rfl
@[simp] theorem State.setCounter_twin (s : State) (k : Nat) (c : Counter) : (s.setCounter k c).twin = s.twin := rfl
@[simp] theorem State.setCounter_integrity (s : State) (k : Nat) (c : Counter) : (s.setCounter k c).integrity = s.integrity := rfl
@[simp] theorem State.setCounter_fuses (s : State) (k : Nat) (c : Counter) : (s.setCounter k c).fuses = s.fuses := rfl
@[simp] theorem State.setCounter_startup (s : State) (k : Nat) (c : Counter) : (s.setCounter k c).startup = s.startup := rfl
@[simp] theorem State.setCounter_tap (s : State) (k : Nat) (c : Counter) : (s.setCounter k c).tap = s.tap := rfl
@[simp] theorem State.setCounter_raised (s : State) (k : Nat) (c : Counter) : (s.setCounter k c).raised = s.raised := rfl
@[simp] theorem State.setCounter_before (s : State) (k : Nat) (c : Counter) : (s.setCounter k c).before = s.before := rfl
@[simp] theorem State.setCounter_pending (s : State) (k : Nat) (c : Counter) : (s.setCounter k c).pending = s.pending := rfl

/-! ### State.setFault -/

@[simp] theorem State.setFault_clock (s : State) (f : Nat) (w : Word) : (s.setFault f w).clock = s.clock := rfl
@[simp] theorem State.setFault_ints (s : State) (f : Nat) (w : Word) : (s.setFault f w).ints = s.ints := rfl
@[simp] theorem State.setFault_cores (s : State) (f : Nat) (w : Word) : (s.setFault f w).cores = s.cores := rfl
@[simp] theorem State.setFault_ports (s : State) (f : Nat) (w : Word) : (s.setFault f w).ports = s.ports := rfl
@[simp] theorem State.setFault_gate (s : State) (f : Nat) (w : Word) : (s.setFault f w).gate = s.gate := rfl
@[simp] theorem State.setFault_routes (s : State) (f : Nat) (w : Word) : (s.setFault f w).routes = s.routes := rfl
@[simp] theorem State.setFault_sluice (s : State) (f : Nat) (w : Word) : (s.setFault f w).sluice = s.sluice := rfl
@[simp] theorem State.setFault_pump (s : State) (f : Nat) (w : Word) : (s.setFault f w).pump = s.pump := rfl
@[simp] theorem State.setFault_levels (s : State) (f : Nat) (w : Word) : (s.setFault f w).levels = s.levels := rfl
@[simp] theorem State.setFault_keeper (s : State) (f : Nat) (w : Word) : (s.setFault f w).keeper = s.keeper := rfl
@[simp] theorem State.setFault_twin (s : State) (f : Nat) (w : Word) : (s.setFault f w).twin = s.twin := rfl
@[simp] theorem State.setFault_integrity (s : State) (f : Nat) (w : Word) : (s.setFault f w).integrity = s.integrity := rfl
@[simp] theorem State.setFault_fuses (s : State) (f : Nat) (w : Word) : (s.setFault f w).fuses = s.fuses := rfl
@[simp] theorem State.setFault_startup (s : State) (f : Nat) (w : Word) : (s.setFault f w).startup = s.startup := rfl
@[simp] theorem State.setFault_tap (s : State) (f : Nat) (w : Word) : (s.setFault f w).tap = s.tap := rfl
@[simp] theorem State.setFault_raised (s : State) (f : Nat) (w : Word) : (s.setFault f w).raised = s.raised := rfl
@[simp] theorem State.setFault_before (s : State) (f : Nat) (w : Word) : (s.setFault f w).before = s.before := rfl
@[simp] theorem State.setFault_pending (s : State) (f : Nat) (w : Word) : (s.setFault f w).pending = s.pending := rfl

/-! ### State.setArm -/

@[simp] theorem State.setArm_clock (s : State) (f : Nat) (a : Option Arm) : (s.setArm f a).clock = s.clock := rfl
@[simp] theorem State.setArm_ints (s : State) (f : Nat) (a : Option Arm) : (s.setArm f a).ints = s.ints := rfl
@[simp] theorem State.setArm_cores (s : State) (f : Nat) (a : Option Arm) : (s.setArm f a).cores = s.cores := rfl
@[simp] theorem State.setArm_ports (s : State) (f : Nat) (a : Option Arm) : (s.setArm f a).ports = s.ports := rfl
@[simp] theorem State.setArm_gate (s : State) (f : Nat) (a : Option Arm) : (s.setArm f a).gate = s.gate := rfl
@[simp] theorem State.setArm_routes (s : State) (f : Nat) (a : Option Arm) : (s.setArm f a).routes = s.routes := rfl
@[simp] theorem State.setArm_sluice (s : State) (f : Nat) (a : Option Arm) : (s.setArm f a).sluice = s.sluice := rfl
@[simp] theorem State.setArm_pump (s : State) (f : Nat) (a : Option Arm) : (s.setArm f a).pump = s.pump := rfl
@[simp] theorem State.setArm_levels (s : State) (f : Nat) (a : Option Arm) : (s.setArm f a).levels = s.levels := rfl
@[simp] theorem State.setArm_keeper (s : State) (f : Nat) (a : Option Arm) : (s.setArm f a).keeper = s.keeper := rfl
@[simp] theorem State.setArm_twin (s : State) (f : Nat) (a : Option Arm) : (s.setArm f a).twin = s.twin := rfl
@[simp] theorem State.setArm_integrity (s : State) (f : Nat) (a : Option Arm) : (s.setArm f a).integrity = s.integrity := rfl
@[simp] theorem State.setArm_fuses (s : State) (f : Nat) (a : Option Arm) : (s.setArm f a).fuses = s.fuses := rfl
@[simp] theorem State.setArm_startup (s : State) (f : Nat) (a : Option Arm) : (s.setArm f a).startup = s.startup := rfl
@[simp] theorem State.setArm_tap (s : State) (f : Nat) (a : Option Arm) : (s.setArm f a).tap = s.tap := rfl
@[simp] theorem State.setArm_raised (s : State) (f : Nat) (a : Option Arm) : (s.setArm f a).raised = s.raised := rfl
@[simp] theorem State.setArm_before (s : State) (f : Nat) (a : Option Arm) : (s.setArm f a).before = s.before := rfl
@[simp] theorem State.setArm_pending (s : State) (f : Nat) (a : Option Arm) : (s.setArm f a).pending = s.pending := rfl

/-! ### State.setReg -/

@[simp] theorem State.setReg_clock (s : State) (f o : Nat) (w : Word) : (s.setReg f o w).clock = s.clock := rfl
@[simp] theorem State.setReg_ints (s : State) (f o : Nat) (w : Word) : (s.setReg f o w).ints = s.ints := rfl
@[simp] theorem State.setReg_cores (s : State) (f o : Nat) (w : Word) : (s.setReg f o w).cores = s.cores := rfl
@[simp] theorem State.setReg_ports (s : State) (f o : Nat) (w : Word) : (s.setReg f o w).ports = s.ports := rfl
@[simp] theorem State.setReg_gate (s : State) (f o : Nat) (w : Word) : (s.setReg f o w).gate = s.gate := rfl
@[simp] theorem State.setReg_routes (s : State) (f o : Nat) (w : Word) : (s.setReg f o w).routes = s.routes := rfl
@[simp] theorem State.setReg_sluice (s : State) (f o : Nat) (w : Word) : (s.setReg f o w).sluice = s.sluice := rfl
@[simp] theorem State.setReg_pump (s : State) (f o : Nat) (w : Word) : (s.setReg f o w).pump = s.pump := rfl
@[simp] theorem State.setReg_levels (s : State) (f o : Nat) (w : Word) : (s.setReg f o w).levels = s.levels := rfl
@[simp] theorem State.setReg_keeper (s : State) (f o : Nat) (w : Word) : (s.setReg f o w).keeper = s.keeper := rfl
@[simp] theorem State.setReg_twin (s : State) (f o : Nat) (w : Word) : (s.setReg f o w).twin = s.twin := rfl
@[simp] theorem State.setReg_integrity (s : State) (f o : Nat) (w : Word) : (s.setReg f o w).integrity = s.integrity := rfl
@[simp] theorem State.setReg_fuses (s : State) (f o : Nat) (w : Word) : (s.setReg f o w).fuses = s.fuses := rfl
@[simp] theorem State.setReg_startup (s : State) (f o : Nat) (w : Word) : (s.setReg f o w).startup = s.startup := rfl
@[simp] theorem State.setReg_tap (s : State) (f o : Nat) (w : Word) : (s.setReg f o w).tap = s.tap := rfl
@[simp] theorem State.setReg_raised (s : State) (f o : Nat) (w : Word) : (s.setReg f o w).raised = s.raised := rfl
@[simp] theorem State.setReg_before (s : State) (f o : Nat) (w : Word) : (s.setReg f o w).before = s.before := rfl
@[simp] theorem State.setReg_pending (s : State) (f o : Nat) (w : Word) : (s.setReg f o w).pending = s.pending := rfl

/-! ### State.setFt -/

@[simp] theorem State.setFt_clock (s : State) (i : Nat) (f : Ft) : (s.setFt i f).clock = s.clock := rfl
@[simp] theorem State.setFt_front (s : State) (i : Nat) (f : Ft) : (s.setFt i f).front = s.front := rfl
@[simp] theorem State.setFt_ints (s : State) (i : Nat) (f : Ft) : (s.setFt i f).ints = s.ints := rfl
@[simp] theorem State.setFt_cores (s : State) (i : Nat) (f : Ft) : (s.setFt i f).cores = s.cores := rfl
@[simp] theorem State.setFt_ports (s : State) (i : Nat) (f : Ft) : (s.setFt i f).ports = s.ports := rfl
@[simp] theorem State.setFt_gate (s : State) (i : Nat) (f : Ft) : (s.setFt i f).gate = s.gate := rfl
@[simp] theorem State.setFt_sluice (s : State) (i : Nat) (f : Ft) : (s.setFt i f).sluice = s.sluice := rfl
@[simp] theorem State.setFt_pump (s : State) (i : Nat) (f : Ft) : (s.setFt i f).pump = s.pump := rfl
@[simp] theorem State.setFt_levels (s : State) (i : Nat) (f : Ft) : (s.setFt i f).levels = s.levels := rfl
@[simp] theorem State.setFt_keeper (s : State) (i : Nat) (f : Ft) : (s.setFt i f).keeper = s.keeper := rfl
@[simp] theorem State.setFt_twin (s : State) (i : Nat) (f : Ft) : (s.setFt i f).twin = s.twin := rfl
@[simp] theorem State.setFt_integrity (s : State) (i : Nat) (f : Ft) : (s.setFt i f).integrity = s.integrity := rfl
@[simp] theorem State.setFt_fuses (s : State) (i : Nat) (f : Ft) : (s.setFt i f).fuses = s.fuses := rfl
@[simp] theorem State.setFt_startup (s : State) (i : Nat) (f : Ft) : (s.setFt i f).startup = s.startup := rfl
@[simp] theorem State.setFt_tap (s : State) (i : Nat) (f : Ft) : (s.setFt i f).tap = s.tap := rfl
@[simp] theorem State.setFt_raised (s : State) (i : Nat) (f : Ft) : (s.setFt i f).raised = s.raised := rfl
@[simp] theorem State.setFt_before (s : State) (i : Nat) (f : Ft) : (s.setFt i f).before = s.before := rfl
@[simp] theorem State.setFt_pending (s : State) (i : Nat) (f : Ft) : (s.setFt i f).pending = s.pending := rfl

/-! ### State.setWire -/

@[simp] theorem State.setWire_clock (s : State) (i : Nat) (w : Wire) : (s.setWire i w).clock = s.clock := rfl
@[simp] theorem State.setWire_front (s : State) (i : Nat) (w : Wire) : (s.setWire i w).front = s.front := rfl
@[simp] theorem State.setWire_ints (s : State) (i : Nat) (w : Wire) : (s.setWire i w).ints = s.ints := rfl
@[simp] theorem State.setWire_cores (s : State) (i : Nat) (w : Wire) : (s.setWire i w).cores = s.cores := rfl
@[simp] theorem State.setWire_ports (s : State) (i : Nat) (w : Wire) : (s.setWire i w).ports = s.ports := rfl
@[simp] theorem State.setWire_gate (s : State) (i : Nat) (w : Wire) : (s.setWire i w).gate = s.gate := rfl
@[simp] theorem State.setWire_routes (s : State) (i : Nat) (w : Wire) : (s.setWire i w).routes = s.routes := rfl
@[simp] theorem State.setWire_sluice (s : State) (i : Nat) (w : Wire) : (s.setWire i w).sluice = s.sluice := rfl
@[simp] theorem State.setWire_pump (s : State) (i : Nat) (w : Wire) : (s.setWire i w).pump = s.pump := rfl
@[simp] theorem State.setWire_keeper (s : State) (i : Nat) (w : Wire) : (s.setWire i w).keeper = s.keeper := rfl
@[simp] theorem State.setWire_twin (s : State) (i : Nat) (w : Wire) : (s.setWire i w).twin = s.twin := rfl
@[simp] theorem State.setWire_integrity (s : State) (i : Nat) (w : Wire) : (s.setWire i w).integrity = s.integrity := rfl
@[simp] theorem State.setWire_fuses (s : State) (i : Nat) (w : Wire) : (s.setWire i w).fuses = s.fuses := rfl
@[simp] theorem State.setWire_startup (s : State) (i : Nat) (w : Wire) : (s.setWire i w).startup = s.startup := rfl
@[simp] theorem State.setWire_tap (s : State) (i : Nat) (w : Wire) : (s.setWire i w).tap = s.tap := rfl
@[simp] theorem State.setWire_raised (s : State) (i : Nat) (w : Wire) : (s.setWire i w).raised = s.raised := rfl
@[simp] theorem State.setWire_before (s : State) (i : Nat) (w : Wire) : (s.setWire i w).before = s.before := rfl
@[simp] theorem State.setWire_pending (s : State) (i : Nat) (w : Wire) : (s.setWire i w).pending = s.pending := rfl

/-! ### State.setPair -/

@[simp] theorem State.setPair_clock (s : State) (n : Nat) (p : Pair) : (s.setPair n p).clock = s.clock := rfl
@[simp] theorem State.setPair_front (s : State) (n : Nat) (p : Pair) : (s.setPair n p).front = s.front := rfl
@[simp] theorem State.setPair_ints (s : State) (n : Nat) (p : Pair) : (s.setPair n p).ints = s.ints := rfl
@[simp] theorem State.setPair_cores (s : State) (n : Nat) (p : Pair) : (s.setPair n p).cores = s.cores := rfl
@[simp] theorem State.setPair_ports (s : State) (n : Nat) (p : Pair) : (s.setPair n p).ports = s.ports := rfl
@[simp] theorem State.setPair_gate (s : State) (n : Nat) (p : Pair) : (s.setPair n p).gate = s.gate := rfl
@[simp] theorem State.setPair_routes (s : State) (n : Nat) (p : Pair) : (s.setPair n p).routes = s.routes := rfl
@[simp] theorem State.setPair_sluice (s : State) (n : Nat) (p : Pair) : (s.setPair n p).sluice = s.sluice := rfl
@[simp] theorem State.setPair_pump (s : State) (n : Nat) (p : Pair) : (s.setPair n p).pump = s.pump := rfl
@[simp] theorem State.setPair_keeper (s : State) (n : Nat) (p : Pair) : (s.setPair n p).keeper = s.keeper := rfl
@[simp] theorem State.setPair_twin (s : State) (n : Nat) (p : Pair) : (s.setPair n p).twin = s.twin := rfl
@[simp] theorem State.setPair_integrity (s : State) (n : Nat) (p : Pair) : (s.setPair n p).integrity = s.integrity := rfl
@[simp] theorem State.setPair_fuses (s : State) (n : Nat) (p : Pair) : (s.setPair n p).fuses = s.fuses := rfl
@[simp] theorem State.setPair_startup (s : State) (n : Nat) (p : Pair) : (s.setPair n p).startup = s.startup := rfl
@[simp] theorem State.setPair_tap (s : State) (n : Nat) (p : Pair) : (s.setPair n p).tap = s.tap := rfl
@[simp] theorem State.setPair_raised (s : State) (n : Nat) (p : Pair) : (s.setPair n p).raised = s.raised := rfl
@[simp] theorem State.setPair_before (s : State) (n : Nat) (p : Pair) : (s.setPair n p).before = s.before := rfl
@[simp] theorem State.setPair_pending (s : State) (n : Nat) (p : Pair) : (s.setPair n p).pending = s.pending := rfl

/-! ### State.modIslands -/

@[simp] theorem State.modIslands_clock (s : State) (f : Island → Island) : (s.modIslands f).clock = s.clock := rfl
@[simp] theorem State.modIslands_front (s : State) (f : Island → Island) : (s.modIslands f).front = s.front := rfl
@[simp] theorem State.modIslands_ints (s : State) (f : Island → Island) : (s.modIslands f).ints = s.ints := rfl
@[simp] theorem State.modIslands_cores (s : State) (f : Island → Island) : (s.modIslands f).cores = s.cores := rfl
@[simp] theorem State.modIslands_ports (s : State) (f : Island → Island) : (s.modIslands f).ports = s.ports := rfl
@[simp] theorem State.modIslands_gate (s : State) (f : Island → Island) : (s.modIslands f).gate = s.gate := rfl
@[simp] theorem State.modIslands_routes (s : State) (f : Island → Island) : (s.modIslands f).routes = s.routes := rfl
@[simp] theorem State.modIslands_sluice (s : State) (f : Island → Island) : (s.modIslands f).sluice = s.sluice := rfl
@[simp] theorem State.modIslands_pump (s : State) (f : Island → Island) : (s.modIslands f).pump = s.pump := rfl
@[simp] theorem State.modIslands_keeper (s : State) (f : Island → Island) : (s.modIslands f).keeper = s.keeper := rfl
@[simp] theorem State.modIslands_twin (s : State) (f : Island → Island) : (s.modIslands f).twin = s.twin := rfl
@[simp] theorem State.modIslands_integrity (s : State) (f : Island → Island) : (s.modIslands f).integrity = s.integrity := rfl
@[simp] theorem State.modIslands_fuses (s : State) (f : Island → Island) : (s.modIslands f).fuses = s.fuses := rfl
@[simp] theorem State.modIslands_startup (s : State) (f : Island → Island) : (s.modIslands f).startup = s.startup := rfl
@[simp] theorem State.modIslands_tap (s : State) (f : Island → Island) : (s.modIslands f).tap = s.tap := rfl
@[simp] theorem State.modIslands_raised (s : State) (f : Island → Island) : (s.modIslands f).raised = s.raised := rfl
@[simp] theorem State.modIslands_before (s : State) (f : Island → Island) : (s.modIslands f).before = s.before := rfl
@[simp] theorem State.modIslands_pending (s : State) (f : Island → Island) : (s.modIslands f).pending = s.pending := rfl

/-! ### State.setBox -/

@[simp] theorem State.setBox_clock (s : State) (n : Nat) (m : Mailbox) : (s.setBox n m).clock = s.clock := rfl
@[simp] theorem State.setBox_front (s : State) (n : Nat) (m : Mailbox) : (s.setBox n m).front = s.front := rfl
@[simp] theorem State.setBox_ints (s : State) (n : Nat) (m : Mailbox) : (s.setBox n m).ints = s.ints := rfl
@[simp] theorem State.setBox_cores (s : State) (n : Nat) (m : Mailbox) : (s.setBox n m).cores = s.cores := rfl
@[simp] theorem State.setBox_ports (s : State) (n : Nat) (m : Mailbox) : (s.setBox n m).ports = s.ports := rfl
@[simp] theorem State.setBox_gate (s : State) (n : Nat) (m : Mailbox) : (s.setBox n m).gate = s.gate := rfl
@[simp] theorem State.setBox_routes (s : State) (n : Nat) (m : Mailbox) : (s.setBox n m).routes = s.routes := rfl
@[simp] theorem State.setBox_sluice (s : State) (n : Nat) (m : Mailbox) : (s.setBox n m).sluice = s.sluice := rfl
@[simp] theorem State.setBox_pump (s : State) (n : Nat) (m : Mailbox) : (s.setBox n m).pump = s.pump := rfl
@[simp] theorem State.setBox_levels (s : State) (n : Nat) (m : Mailbox) : (s.setBox n m).levels = s.levels := rfl
@[simp] theorem State.setBox_twin (s : State) (n : Nat) (m : Mailbox) : (s.setBox n m).twin = s.twin := rfl
@[simp] theorem State.setBox_integrity (s : State) (n : Nat) (m : Mailbox) : (s.setBox n m).integrity = s.integrity := rfl
@[simp] theorem State.setBox_fuses (s : State) (n : Nat) (m : Mailbox) : (s.setBox n m).fuses = s.fuses := rfl
@[simp] theorem State.setBox_startup (s : State) (n : Nat) (m : Mailbox) : (s.setBox n m).startup = s.startup := rfl
@[simp] theorem State.setBox_tap (s : State) (n : Nat) (m : Mailbox) : (s.setBox n m).tap = s.tap := rfl
@[simp] theorem State.setBox_raised (s : State) (n : Nat) (m : Mailbox) : (s.setBox n m).raised = s.raised := rfl
@[simp] theorem State.setBox_before (s : State) (n : Nat) (m : Mailbox) : (s.setBox n m).before = s.before := rfl
@[simp] theorem State.setBox_pending (s : State) (n : Nat) (m : Mailbox) : (s.setBox n m).pending = s.pending := rfl

/-! ### State.setCached -/

@[simp] theorem State.setCached_clock (s : State) (c : Nat) (x : Option Cached) : (s.setCached c x).clock = s.clock := rfl
@[simp] theorem State.setCached_front (s : State) (c : Nat) (x : Option Cached) : (s.setCached c x).front = s.front := rfl
@[simp] theorem State.setCached_ints (s : State) (c : Nat) (x : Option Cached) : (s.setCached c x).ints = s.ints := rfl
@[simp] theorem State.setCached_cores (s : State) (c : Nat) (x : Option Cached) : (s.setCached c x).cores = s.cores := rfl
@[simp] theorem State.setCached_ports (s : State) (c : Nat) (x : Option Cached) : (s.setCached c x).ports = s.ports := rfl
@[simp] theorem State.setCached_gate (s : State) (c : Nat) (x : Option Cached) : (s.setCached c x).gate = s.gate := rfl
@[simp] theorem State.setCached_routes (s : State) (c : Nat) (x : Option Cached) : (s.setCached c x).routes = s.routes := rfl
@[simp] theorem State.setCached_sluice (s : State) (c : Nat) (x : Option Cached) : (s.setCached c x).sluice = s.sluice := rfl
@[simp] theorem State.setCached_levels (s : State) (c : Nat) (x : Option Cached) : (s.setCached c x).levels = s.levels := rfl
@[simp] theorem State.setCached_keeper (s : State) (c : Nat) (x : Option Cached) : (s.setCached c x).keeper = s.keeper := rfl
@[simp] theorem State.setCached_twin (s : State) (c : Nat) (x : Option Cached) : (s.setCached c x).twin = s.twin := rfl
@[simp] theorem State.setCached_integrity (s : State) (c : Nat) (x : Option Cached) : (s.setCached c x).integrity = s.integrity := rfl
@[simp] theorem State.setCached_fuses (s : State) (c : Nat) (x : Option Cached) : (s.setCached c x).fuses = s.fuses := rfl
@[simp] theorem State.setCached_startup (s : State) (c : Nat) (x : Option Cached) : (s.setCached c x).startup = s.startup := rfl
@[simp] theorem State.setCached_tap (s : State) (c : Nat) (x : Option Cached) : (s.setCached c x).tap = s.tap := rfl
@[simp] theorem State.setCached_raised (s : State) (c : Nat) (x : Option Cached) : (s.setCached c x).raised = s.raised := rfl
@[simp] theorem State.setCached_before (s : State) (c : Nat) (x : Option Cached) : (s.setCached c x).before = s.before := rfl
@[simp] theorem State.setCached_pending (s : State) (c : Nat) (x : Option Cached) : (s.setCached c x).pending = s.pending := rfl

/-! ### State.modCached -/

@[simp] theorem State.modCached_clock (s : State) (c : Nat) (f : Cached → Cached) : (s.modCached c f).clock = s.clock := rfl
@[simp] theorem State.modCached_front (s : State) (c : Nat) (f : Cached → Cached) : (s.modCached c f).front = s.front := rfl
@[simp] theorem State.modCached_ints (s : State) (c : Nat) (f : Cached → Cached) : (s.modCached c f).ints = s.ints := rfl
@[simp] theorem State.modCached_cores (s : State) (c : Nat) (f : Cached → Cached) : (s.modCached c f).cores = s.cores := rfl
@[simp] theorem State.modCached_ports (s : State) (c : Nat) (f : Cached → Cached) : (s.modCached c f).ports = s.ports := rfl
@[simp] theorem State.modCached_gate (s : State) (c : Nat) (f : Cached → Cached) : (s.modCached c f).gate = s.gate := rfl
@[simp] theorem State.modCached_routes (s : State) (c : Nat) (f : Cached → Cached) : (s.modCached c f).routes = s.routes := rfl
@[simp] theorem State.modCached_sluice (s : State) (c : Nat) (f : Cached → Cached) : (s.modCached c f).sluice = s.sluice := rfl
@[simp] theorem State.modCached_levels (s : State) (c : Nat) (f : Cached → Cached) : (s.modCached c f).levels = s.levels := rfl
@[simp] theorem State.modCached_keeper (s : State) (c : Nat) (f : Cached → Cached) : (s.modCached c f).keeper = s.keeper := rfl
@[simp] theorem State.modCached_twin (s : State) (c : Nat) (f : Cached → Cached) : (s.modCached c f).twin = s.twin := rfl
@[simp] theorem State.modCached_integrity (s : State) (c : Nat) (f : Cached → Cached) : (s.modCached c f).integrity = s.integrity := rfl
@[simp] theorem State.modCached_fuses (s : State) (c : Nat) (f : Cached → Cached) : (s.modCached c f).fuses = s.fuses := rfl
@[simp] theorem State.modCached_startup (s : State) (c : Nat) (f : Cached → Cached) : (s.modCached c f).startup = s.startup := rfl
@[simp] theorem State.modCached_tap (s : State) (c : Nat) (f : Cached → Cached) : (s.modCached c f).tap = s.tap := rfl
@[simp] theorem State.modCached_raised (s : State) (c : Nat) (f : Cached → Cached) : (s.modCached c f).raised = s.raised := rfl
@[simp] theorem State.modCached_before (s : State) (c : Nat) (f : Cached → Cached) : (s.modCached c f).before = s.before := rfl
@[simp] theorem State.modCached_pending (s : State) (c : Nat) (f : Cached → Cached) : (s.modCached c f).pending = s.pending := rfl

/-! ### State.setLocalQ -/

@[simp] theorem State.setLocalQ_clock (s : State) (sl : Nat) (q : List (Nat × Rec)) : (s.setLocalQ sl q).clock = s.clock := rfl
@[simp] theorem State.setLocalQ_front (s : State) (sl : Nat) (q : List (Nat × Rec)) : (s.setLocalQ sl q).front = s.front := rfl
@[simp] theorem State.setLocalQ_ints (s : State) (sl : Nat) (q : List (Nat × Rec)) : (s.setLocalQ sl q).ints = s.ints := rfl
@[simp] theorem State.setLocalQ_cores (s : State) (sl : Nat) (q : List (Nat × Rec)) : (s.setLocalQ sl q).cores = s.cores := rfl
@[simp] theorem State.setLocalQ_ports (s : State) (sl : Nat) (q : List (Nat × Rec)) : (s.setLocalQ sl q).ports = s.ports := rfl
@[simp] theorem State.setLocalQ_gate (s : State) (sl : Nat) (q : List (Nat × Rec)) : (s.setLocalQ sl q).gate = s.gate := rfl
@[simp] theorem State.setLocalQ_routes (s : State) (sl : Nat) (q : List (Nat × Rec)) : (s.setLocalQ sl q).routes = s.routes := rfl
@[simp] theorem State.setLocalQ_sluice (s : State) (sl : Nat) (q : List (Nat × Rec)) : (s.setLocalQ sl q).sluice = s.sluice := rfl
@[simp] theorem State.setLocalQ_levels (s : State) (sl : Nat) (q : List (Nat × Rec)) : (s.setLocalQ sl q).levels = s.levels := rfl
@[simp] theorem State.setLocalQ_keeper (s : State) (sl : Nat) (q : List (Nat × Rec)) : (s.setLocalQ sl q).keeper = s.keeper := rfl
@[simp] theorem State.setLocalQ_twin (s : State) (sl : Nat) (q : List (Nat × Rec)) : (s.setLocalQ sl q).twin = s.twin := rfl
@[simp] theorem State.setLocalQ_integrity (s : State) (sl : Nat) (q : List (Nat × Rec)) : (s.setLocalQ sl q).integrity = s.integrity := rfl
@[simp] theorem State.setLocalQ_fuses (s : State) (sl : Nat) (q : List (Nat × Rec)) : (s.setLocalQ sl q).fuses = s.fuses := rfl
@[simp] theorem State.setLocalQ_startup (s : State) (sl : Nat) (q : List (Nat × Rec)) : (s.setLocalQ sl q).startup = s.startup := rfl
@[simp] theorem State.setLocalQ_tap (s : State) (sl : Nat) (q : List (Nat × Rec)) : (s.setLocalQ sl q).tap = s.tap := rfl
@[simp] theorem State.setLocalQ_raised (s : State) (sl : Nat) (q : List (Nat × Rec)) : (s.setLocalQ sl q).raised = s.raised := rfl
@[simp] theorem State.setLocalQ_before (s : State) (sl : Nat) (q : List (Nat × Rec)) : (s.setLocalQ sl q).before = s.before := rfl
@[simp] theorem State.setLocalQ_pending (s : State) (sl : Nat) (q : List (Nat × Rec)) : (s.setLocalQ sl q).pending = s.pending := rfl

/-! ### State.setMissQ -/

@[simp] theorem State.setMissQ_clock (s : State) (sl : Nat) (q : List (Nat × Rec)) : (s.setMissQ sl q).clock = s.clock := rfl
@[simp] theorem State.setMissQ_front (s : State) (sl : Nat) (q : List (Nat × Rec)) : (s.setMissQ sl q).front = s.front := rfl
@[simp] theorem State.setMissQ_ints (s : State) (sl : Nat) (q : List (Nat × Rec)) : (s.setMissQ sl q).ints = s.ints := rfl
@[simp] theorem State.setMissQ_cores (s : State) (sl : Nat) (q : List (Nat × Rec)) : (s.setMissQ sl q).cores = s.cores := rfl
@[simp] theorem State.setMissQ_ports (s : State) (sl : Nat) (q : List (Nat × Rec)) : (s.setMissQ sl q).ports = s.ports := rfl
@[simp] theorem State.setMissQ_gate (s : State) (sl : Nat) (q : List (Nat × Rec)) : (s.setMissQ sl q).gate = s.gate := rfl
@[simp] theorem State.setMissQ_routes (s : State) (sl : Nat) (q : List (Nat × Rec)) : (s.setMissQ sl q).routes = s.routes := rfl
@[simp] theorem State.setMissQ_sluice (s : State) (sl : Nat) (q : List (Nat × Rec)) : (s.setMissQ sl q).sluice = s.sluice := rfl
@[simp] theorem State.setMissQ_levels (s : State) (sl : Nat) (q : List (Nat × Rec)) : (s.setMissQ sl q).levels = s.levels := rfl
@[simp] theorem State.setMissQ_keeper (s : State) (sl : Nat) (q : List (Nat × Rec)) : (s.setMissQ sl q).keeper = s.keeper := rfl
@[simp] theorem State.setMissQ_twin (s : State) (sl : Nat) (q : List (Nat × Rec)) : (s.setMissQ sl q).twin = s.twin := rfl
@[simp] theorem State.setMissQ_integrity (s : State) (sl : Nat) (q : List (Nat × Rec)) : (s.setMissQ sl q).integrity = s.integrity := rfl
@[simp] theorem State.setMissQ_fuses (s : State) (sl : Nat) (q : List (Nat × Rec)) : (s.setMissQ sl q).fuses = s.fuses := rfl
@[simp] theorem State.setMissQ_startup (s : State) (sl : Nat) (q : List (Nat × Rec)) : (s.setMissQ sl q).startup = s.startup := rfl
@[simp] theorem State.setMissQ_tap (s : State) (sl : Nat) (q : List (Nat × Rec)) : (s.setMissQ sl q).tap = s.tap := rfl
@[simp] theorem State.setMissQ_raised (s : State) (sl : Nat) (q : List (Nat × Rec)) : (s.setMissQ sl q).raised = s.raised := rfl
@[simp] theorem State.setMissQ_before (s : State) (sl : Nat) (q : List (Nat × Rec)) : (s.setMissQ sl q).before = s.before := rfl
@[simp] theorem State.setMissQ_pending (s : State) (sl : Nat) (q : List (Nat × Rec)) : (s.setMissQ sl q).pending = s.pending := rfl

/-! ### State.raise -/

@[simp] theorem State.raise_clock (s : State) (fev : Nat) : (s.raise fev).clock = s.clock := rfl
@[simp] theorem State.raise_front (s : State) (fev : Nat) : (s.raise fev).front = s.front := rfl
@[simp] theorem State.raise_ints (s : State) (fev : Nat) : (s.raise fev).ints = s.ints := rfl
@[simp] theorem State.raise_cores (s : State) (fev : Nat) : (s.raise fev).cores = s.cores := rfl
@[simp] theorem State.raise_ports (s : State) (fev : Nat) : (s.raise fev).ports = s.ports := rfl
@[simp] theorem State.raise_gate (s : State) (fev : Nat) : (s.raise fev).gate = s.gate := rfl
@[simp] theorem State.raise_routes (s : State) (fev : Nat) : (s.raise fev).routes = s.routes := rfl
@[simp] theorem State.raise_sluice (s : State) (fev : Nat) : (s.raise fev).sluice = s.sluice := rfl
@[simp] theorem State.raise_pump (s : State) (fev : Nat) : (s.raise fev).pump = s.pump := rfl
@[simp] theorem State.raise_levels (s : State) (fev : Nat) : (s.raise fev).levels = s.levels := rfl
@[simp] theorem State.raise_keeper (s : State) (fev : Nat) : (s.raise fev).keeper = s.keeper := rfl
@[simp] theorem State.raise_twin (s : State) (fev : Nat) : (s.raise fev).twin = s.twin := rfl
@[simp] theorem State.raise_integrity (s : State) (fev : Nat) : (s.raise fev).integrity = s.integrity := rfl
@[simp] theorem State.raise_fuses (s : State) (fev : Nat) : (s.raise fev).fuses = s.fuses := rfl
@[simp] theorem State.raise_startup (s : State) (fev : Nat) : (s.raise fev).startup = s.startup := rfl
@[simp] theorem State.raise_tap (s : State) (fev : Nat) : (s.raise fev).tap = s.tap := rfl
@[simp] theorem State.raise_before (s : State) (fev : Nat) : (s.raise fev).before = s.before := rfl
@[simp] theorem State.raise_pending (s : State) (fev : Nat) : (s.raise fev).pending = s.pending := rfl

/-! ### State.askUnit -/

@[simp] theorem State.askUnit_clock (s : State) (m u c : Nat) : (s.askUnit m u c).clock = s.clock := rfl
@[simp] theorem State.askUnit_front (s : State) (m u c : Nat) : (s.askUnit m u c).front = s.front := rfl
@[simp] theorem State.askUnit_ints (s : State) (m u c : Nat) : (s.askUnit m u c).ints = s.ints := rfl
@[simp] theorem State.askUnit_cores (s : State) (m u c : Nat) : (s.askUnit m u c).cores = s.cores := rfl
@[simp] theorem State.askUnit_ports (s : State) (m u c : Nat) : (s.askUnit m u c).ports = s.ports := rfl
@[simp] theorem State.askUnit_gate (s : State) (m u c : Nat) : (s.askUnit m u c).gate = s.gate := rfl
@[simp] theorem State.askUnit_routes (s : State) (m u c : Nat) : (s.askUnit m u c).routes = s.routes := rfl
@[simp] theorem State.askUnit_pump (s : State) (m u c : Nat) : (s.askUnit m u c).pump = s.pump := rfl
@[simp] theorem State.askUnit_levels (s : State) (m u c : Nat) : (s.askUnit m u c).levels = s.levels := rfl
@[simp] theorem State.askUnit_keeper (s : State) (m u c : Nat) : (s.askUnit m u c).keeper = s.keeper := rfl
@[simp] theorem State.askUnit_twin (s : State) (m u c : Nat) : (s.askUnit m u c).twin = s.twin := rfl
@[simp] theorem State.askUnit_integrity (s : State) (m u c : Nat) : (s.askUnit m u c).integrity = s.integrity := rfl
@[simp] theorem State.askUnit_fuses (s : State) (m u c : Nat) : (s.askUnit m u c).fuses = s.fuses := rfl
@[simp] theorem State.askUnit_startup (s : State) (m u c : Nat) : (s.askUnit m u c).startup = s.startup := rfl
@[simp] theorem State.askUnit_tap (s : State) (m u c : Nat) : (s.askUnit m u c).tap = s.tap := rfl
@[simp] theorem State.askUnit_raised (s : State) (m u c : Nat) : (s.askUnit m u c).raised = s.raised := rfl
@[simp] theorem State.askUnit_before (s : State) (m u c : Nat) : (s.askUnit m u c).before = s.before := rfl
@[simp] theorem State.askUnit_pending (s : State) (m u c : Nat) : (s.askUnit m u c).pending = s.pending := rfl

/-! ### State.askRead -/

@[simp] theorem State.askRead_clock (s : State) (m u : Nat) : (s.askRead m u).clock = s.clock := rfl
@[simp] theorem State.askRead_front (s : State) (m u : Nat) : (s.askRead m u).front = s.front := rfl
@[simp] theorem State.askRead_ints (s : State) (m u : Nat) : (s.askRead m u).ints = s.ints := rfl
@[simp] theorem State.askRead_cores (s : State) (m u : Nat) : (s.askRead m u).cores = s.cores := rfl
@[simp] theorem State.askRead_ports (s : State) (m u : Nat) : (s.askRead m u).ports = s.ports := rfl
@[simp] theorem State.askRead_gate (s : State) (m u : Nat) : (s.askRead m u).gate = s.gate := rfl
@[simp] theorem State.askRead_routes (s : State) (m u : Nat) : (s.askRead m u).routes = s.routes := rfl
@[simp] theorem State.askRead_pump (s : State) (m u : Nat) : (s.askRead m u).pump = s.pump := rfl
@[simp] theorem State.askRead_levels (s : State) (m u : Nat) : (s.askRead m u).levels = s.levels := rfl
@[simp] theorem State.askRead_keeper (s : State) (m u : Nat) : (s.askRead m u).keeper = s.keeper := rfl
@[simp] theorem State.askRead_twin (s : State) (m u : Nat) : (s.askRead m u).twin = s.twin := rfl
@[simp] theorem State.askRead_integrity (s : State) (m u : Nat) : (s.askRead m u).integrity = s.integrity := rfl
@[simp] theorem State.askRead_fuses (s : State) (m u : Nat) : (s.askRead m u).fuses = s.fuses := rfl
@[simp] theorem State.askRead_startup (s : State) (m u : Nat) : (s.askRead m u).startup = s.startup := rfl
@[simp] theorem State.askRead_tap (s : State) (m u : Nat) : (s.askRead m u).tap = s.tap := rfl
@[simp] theorem State.askRead_raised (s : State) (m u : Nat) : (s.askRead m u).raised = s.raised := rfl
@[simp] theorem State.askRead_before (s : State) (m u : Nat) : (s.askRead m u).before = s.before := rfl
@[simp] theorem State.askRead_pending (s : State) (m u : Nat) : (s.askRead m u).pending = s.pending := rfl

/-! ### State.unlock -/

@[simp] theorem State.unlock_clock (s : State) (m b : Nat) : (s.unlock m b).clock = s.clock := rfl
@[simp] theorem State.unlock_front (s : State) (m b : Nat) : (s.unlock m b).front = s.front := rfl
@[simp] theorem State.unlock_ints (s : State) (m b : Nat) : (s.unlock m b).ints = s.ints := rfl
@[simp] theorem State.unlock_cores (s : State) (m b : Nat) : (s.unlock m b).cores = s.cores := rfl
@[simp] theorem State.unlock_ports (s : State) (m b : Nat) : (s.unlock m b).ports = s.ports := rfl
@[simp] theorem State.unlock_gate (s : State) (m b : Nat) : (s.unlock m b).gate = s.gate := rfl
@[simp] theorem State.unlock_routes (s : State) (m b : Nat) : (s.unlock m b).routes = s.routes := rfl
@[simp] theorem State.unlock_pump (s : State) (m b : Nat) : (s.unlock m b).pump = s.pump := rfl
@[simp] theorem State.unlock_levels (s : State) (m b : Nat) : (s.unlock m b).levels = s.levels := rfl
@[simp] theorem State.unlock_keeper (s : State) (m b : Nat) : (s.unlock m b).keeper = s.keeper := rfl
@[simp] theorem State.unlock_twin (s : State) (m b : Nat) : (s.unlock m b).twin = s.twin := rfl
@[simp] theorem State.unlock_integrity (s : State) (m b : Nat) : (s.unlock m b).integrity = s.integrity := rfl
@[simp] theorem State.unlock_fuses (s : State) (m b : Nat) : (s.unlock m b).fuses = s.fuses := rfl
@[simp] theorem State.unlock_startup (s : State) (m b : Nat) : (s.unlock m b).startup = s.startup := rfl
@[simp] theorem State.unlock_tap (s : State) (m b : Nat) : (s.unlock m b).tap = s.tap := rfl
@[simp] theorem State.unlock_raised (s : State) (m b : Nat) : (s.unlock m b).raised = s.raised := rfl
@[simp] theorem State.unlock_before (s : State) (m b : Nat) : (s.unlock m b).before = s.before := rfl
@[simp] theorem State.unlock_pending (s : State) (m b : Nat) : (s.unlock m b).pending = s.pending := rfl

/-! ### State.setRun -/

@[simp] theorem State.setRun_clock (s : State) (r : Run) : (s.setRun r).clock = s.clock := rfl
@[simp] theorem State.setRun_front (s : State) (r : Run) : (s.setRun r).front = s.front := rfl
@[simp] theorem State.setRun_ints (s : State) (r : Run) : (s.setRun r).ints = s.ints := rfl
@[simp] theorem State.setRun_cores (s : State) (r : Run) : (s.setRun r).cores = s.cores := rfl
@[simp] theorem State.setRun_ports (s : State) (r : Run) : (s.setRun r).ports = s.ports := rfl
@[simp] theorem State.setRun_gate (s : State) (r : Run) : (s.setRun r).gate = s.gate := rfl
@[simp] theorem State.setRun_routes (s : State) (r : Run) : (s.setRun r).routes = s.routes := rfl
@[simp] theorem State.setRun_sluice (s : State) (r : Run) : (s.setRun r).sluice = s.sluice := rfl
@[simp] theorem State.setRun_pump (s : State) (r : Run) : (s.setRun r).pump = s.pump := rfl
@[simp] theorem State.setRun_levels (s : State) (r : Run) : (s.setRun r).levels = s.levels := rfl
@[simp] theorem State.setRun_twin (s : State) (r : Run) : (s.setRun r).twin = s.twin := rfl
@[simp] theorem State.setRun_integrity (s : State) (r : Run) : (s.setRun r).integrity = s.integrity := rfl
@[simp] theorem State.setRun_fuses (s : State) (r : Run) : (s.setRun r).fuses = s.fuses := rfl
@[simp] theorem State.setRun_startup (s : State) (r : Run) : (s.setRun r).startup = s.startup := rfl
@[simp] theorem State.setRun_tap (s : State) (r : Run) : (s.setRun r).tap = s.tap := rfl
@[simp] theorem State.setRun_raised (s : State) (r : Run) : (s.setRun r).raised = s.raised := rfl
@[simp] theorem State.setRun_before (s : State) (r : Run) : (s.setRun r).before = s.before := rfl
@[simp] theorem State.setRun_pending (s : State) (r : Run) : (s.setRun r).pending = s.pending := rfl

/-! ### State.mark -/

@[simp] theorem State.mark_clock (s : State) : (s.mark).clock = s.clock := rfl
@[simp] theorem State.mark_front (s : State) : (s.mark).front = s.front := rfl
@[simp] theorem State.mark_ints (s : State) : (s.mark).ints = s.ints := rfl
@[simp] theorem State.mark_cores (s : State) : (s.mark).cores = s.cores := rfl
@[simp] theorem State.mark_ports (s : State) : (s.mark).ports = s.ports := rfl
@[simp] theorem State.mark_gate (s : State) : (s.mark).gate = s.gate := rfl
@[simp] theorem State.mark_routes (s : State) : (s.mark).routes = s.routes := rfl
@[simp] theorem State.mark_sluice (s : State) : (s.mark).sluice = s.sluice := rfl
@[simp] theorem State.mark_pump (s : State) : (s.mark).pump = s.pump := rfl
@[simp] theorem State.mark_levels (s : State) : (s.mark).levels = s.levels := rfl
@[simp] theorem State.mark_keeper (s : State) : (s.mark).keeper = s.keeper := rfl
@[simp] theorem State.mark_twin (s : State) : (s.mark).twin = s.twin := rfl
@[simp] theorem State.mark_integrity (s : State) : (s.mark).integrity = s.integrity := rfl
@[simp] theorem State.mark_fuses (s : State) : (s.mark).fuses = s.fuses := rfl
@[simp] theorem State.mark_startup (s : State) : (s.mark).startup = s.startup := rfl
@[simp] theorem State.mark_tap (s : State) : (s.mark).tap = s.tap := rfl
@[simp] theorem State.mark_raised (s : State) : (s.mark).raised = s.raised := rfl
@[simp] theorem State.mark_pending (s : State) : (s.mark).pending = s.pending := rfl

/-! ### State.answer -/

@[simp] theorem State.answer_clock (s : State) (code : Code) (data : DWord) : (s.answer code data).clock = s.clock := rfl
@[simp] theorem State.answer_ints (s : State) (code : Code) (data : DWord) : (s.answer code data).ints = s.ints := rfl
@[simp] theorem State.answer_cores (s : State) (code : Code) (data : DWord) : (s.answer code data).cores = s.cores := rfl
@[simp] theorem State.answer_ports (s : State) (code : Code) (data : DWord) : (s.answer code data).ports = s.ports := rfl
@[simp] theorem State.answer_gate (s : State) (code : Code) (data : DWord) : (s.answer code data).gate = s.gate := rfl
@[simp] theorem State.answer_routes (s : State) (code : Code) (data : DWord) : (s.answer code data).routes = s.routes := rfl
@[simp] theorem State.answer_sluice (s : State) (code : Code) (data : DWord) : (s.answer code data).sluice = s.sluice := rfl
@[simp] theorem State.answer_pump (s : State) (code : Code) (data : DWord) : (s.answer code data).pump = s.pump := rfl
@[simp] theorem State.answer_levels (s : State) (code : Code) (data : DWord) : (s.answer code data).levels = s.levels := rfl
@[simp] theorem State.answer_keeper (s : State) (code : Code) (data : DWord) : (s.answer code data).keeper = s.keeper := rfl
@[simp] theorem State.answer_twin (s : State) (code : Code) (data : DWord) : (s.answer code data).twin = s.twin := rfl
@[simp] theorem State.answer_integrity (s : State) (code : Code) (data : DWord) : (s.answer code data).integrity = s.integrity := rfl
@[simp] theorem State.answer_fuses (s : State) (code : Code) (data : DWord) : (s.answer code data).fuses = s.fuses := rfl
@[simp] theorem State.answer_startup (s : State) (code : Code) (data : DWord) : (s.answer code data).startup = s.startup := rfl
@[simp] theorem State.answer_tap (s : State) (code : Code) (data : DWord) : (s.answer code data).tap = s.tap := rfl
@[simp] theorem State.answer_raised (s : State) (code : Code) (data : DWord) : (s.answer code data).raised = s.raised := rfl
@[simp] theorem State.answer_before (s : State) (code : Code) (data : DWord) : (s.answer code data).before = s.before := rfl
@[simp] theorem State.answer_pending (s : State) (code : Code) (data : DWord) : (s.answer code data).pending = s.pending := rfl

/-! ### State.endHold -/

@[simp] theorem State.endHold_clock (s : State) : (s.endHold).clock = s.clock := rfl
@[simp] theorem State.endHold_ints (s : State) : (s.endHold).ints = s.ints := rfl
@[simp] theorem State.endHold_cores (s : State) : (s.endHold).cores = s.cores := rfl
@[simp] theorem State.endHold_ports (s : State) : (s.endHold).ports = s.ports := rfl
@[simp] theorem State.endHold_gate (s : State) : (s.endHold).gate = s.gate := rfl
@[simp] theorem State.endHold_routes (s : State) : (s.endHold).routes = s.routes := rfl
@[simp] theorem State.endHold_sluice (s : State) : (s.endHold).sluice = s.sluice := rfl
@[simp] theorem State.endHold_pump (s : State) : (s.endHold).pump = s.pump := rfl
@[simp] theorem State.endHold_levels (s : State) : (s.endHold).levels = s.levels := rfl
@[simp] theorem State.endHold_keeper (s : State) : (s.endHold).keeper = s.keeper := rfl
@[simp] theorem State.endHold_twin (s : State) : (s.endHold).twin = s.twin := rfl
@[simp] theorem State.endHold_integrity (s : State) : (s.endHold).integrity = s.integrity := rfl
@[simp] theorem State.endHold_fuses (s : State) : (s.endHold).fuses = s.fuses := rfl
@[simp] theorem State.endHold_startup (s : State) : (s.endHold).startup = s.startup := rfl
@[simp] theorem State.endHold_tap (s : State) : (s.endHold).tap = s.tap := rfl
@[simp] theorem State.endHold_raised (s : State) : (s.endHold).raised = s.raised := rfl
@[simp] theorem State.endHold_before (s : State) : (s.endHold).before = s.before := rfl
@[simp] theorem State.endHold_pending (s : State) : (s.endHold).pending = s.pending := rfl

@[simp] theorem State.setWell_clock (s : State) (b : Bool) (w : Well) : (s.setWell b w).clock = s.clock := by cases b <;> rfl
@[simp] theorem State.modWell_clock (s : State) (b : Bool) (f : Well → Well) : (s.modWell b f).clock = s.clock := by cases b <;> rfl
@[simp] theorem State.setWell_front (s : State) (b : Bool) (w : Well) : (s.setWell b w).front = s.front := by cases b <;> rfl
@[simp] theorem State.modWell_front (s : State) (b : Bool) (f : Well → Well) : (s.modWell b f).front = s.front := by cases b <;> rfl
@[simp] theorem State.setWell_ints (s : State) (b : Bool) (w : Well) : (s.setWell b w).ints = s.ints := by cases b <;> rfl
@[simp] theorem State.modWell_ints (s : State) (b : Bool) (f : Well → Well) : (s.modWell b f).ints = s.ints := by cases b <;> rfl
@[simp] theorem State.setWell_cores (s : State) (b : Bool) (w : Well) : (s.setWell b w).cores = s.cores := by cases b <;> rfl
@[simp] theorem State.modWell_cores (s : State) (b : Bool) (f : Well → Well) : (s.modWell b f).cores = s.cores := by cases b <;> rfl
@[simp] theorem State.setWell_ports (s : State) (b : Bool) (w : Well) : (s.setWell b w).ports = s.ports := by cases b <;> rfl
@[simp] theorem State.modWell_ports (s : State) (b : Bool) (f : Well → Well) : (s.modWell b f).ports = s.ports := by cases b <;> rfl
@[simp] theorem State.setWell_gate (s : State) (b : Bool) (w : Well) : (s.setWell b w).gate = s.gate := by cases b <;> rfl
@[simp] theorem State.modWell_gate (s : State) (b : Bool) (f : Well → Well) : (s.modWell b f).gate = s.gate := by cases b <;> rfl
@[simp] theorem State.setWell_routes (s : State) (b : Bool) (w : Well) : (s.setWell b w).routes = s.routes := by cases b <;> rfl
@[simp] theorem State.modWell_routes (s : State) (b : Bool) (f : Well → Well) : (s.modWell b f).routes = s.routes := by cases b <;> rfl
@[simp] theorem State.setWell_sluice (s : State) (b : Bool) (w : Well) : (s.setWell b w).sluice = s.sluice := by cases b <;> rfl
@[simp] theorem State.modWell_sluice (s : State) (b : Bool) (f : Well → Well) : (s.modWell b f).sluice = s.sluice := by cases b <;> rfl
@[simp] theorem State.setWell_pump (s : State) (b : Bool) (w : Well) : (s.setWell b w).pump = s.pump := by cases b <;> rfl
@[simp] theorem State.modWell_pump (s : State) (b : Bool) (f : Well → Well) : (s.modWell b f).pump = s.pump := by cases b <;> rfl
@[simp] theorem State.setWell_levels (s : State) (b : Bool) (w : Well) : (s.setWell b w).levels = s.levels := by cases b <;> rfl
@[simp] theorem State.modWell_levels (s : State) (b : Bool) (f : Well → Well) : (s.modWell b f).levels = s.levels := by cases b <;> rfl
@[simp] theorem State.setWell_keeper (s : State) (b : Bool) (w : Well) : (s.setWell b w).keeper = s.keeper := by cases b <;> rfl
@[simp] theorem State.modWell_keeper (s : State) (b : Bool) (f : Well → Well) : (s.modWell b f).keeper = s.keeper := by cases b <;> rfl
@[simp] theorem State.setWell_integrity (s : State) (b : Bool) (w : Well) : (s.setWell b w).integrity = s.integrity := by cases b <;> rfl
@[simp] theorem State.modWell_integrity (s : State) (b : Bool) (f : Well → Well) : (s.modWell b f).integrity = s.integrity := by cases b <;> rfl
@[simp] theorem State.setWell_fuses (s : State) (b : Bool) (w : Well) : (s.setWell b w).fuses = s.fuses := by cases b <;> rfl
@[simp] theorem State.modWell_fuses (s : State) (b : Bool) (f : Well → Well) : (s.modWell b f).fuses = s.fuses := by cases b <;> rfl
@[simp] theorem State.setWell_startup (s : State) (b : Bool) (w : Well) : (s.setWell b w).startup = s.startup := by cases b <;> rfl
@[simp] theorem State.modWell_startup (s : State) (b : Bool) (f : Well → Well) : (s.modWell b f).startup = s.startup := by cases b <;> rfl
@[simp] theorem State.setWell_tap (s : State) (b : Bool) (w : Well) : (s.setWell b w).tap = s.tap := by cases b <;> rfl
@[simp] theorem State.modWell_tap (s : State) (b : Bool) (f : Well → Well) : (s.modWell b f).tap = s.tap := by cases b <;> rfl
@[simp] theorem State.setWell_raised (s : State) (b : Bool) (w : Well) : (s.setWell b w).raised = s.raised := by cases b <;> rfl
@[simp] theorem State.modWell_raised (s : State) (b : Bool) (f : Well → Well) : (s.modWell b f).raised = s.raised := by cases b <;> rfl
@[simp] theorem State.setWell_before (s : State) (b : Bool) (w : Well) : (s.setWell b w).before = s.before := by cases b <;> rfl
@[simp] theorem State.modWell_before (s : State) (b : Bool) (f : Well → Well) : (s.modWell b f).before = s.before := by cases b <;> rfl
@[simp] theorem State.setWell_pending (s : State) (b : Bool) (w : Well) : (s.setWell b w).pending = s.pending := by cases b <;> rfl
@[simp] theorem State.modWell_pending (s : State) (b : Bool) (f : Well → Well) : (s.modWell b f).pending = s.pending := by cases b <;> rfl
@[simp] theorem State.setIsland_clock (s : State) (b : Bool) (i : Island) : (s.setIsland b i).clock = s.clock := by cases b <;> rfl
@[simp] theorem State.setIsland_front (s : State) (b : Bool) (i : Island) : (s.setIsland b i).front = s.front := by cases b <;> rfl
@[simp] theorem State.setIsland_ints (s : State) (b : Bool) (i : Island) : (s.setIsland b i).ints = s.ints := by cases b <;> rfl
@[simp] theorem State.setIsland_cores (s : State) (b : Bool) (i : Island) : (s.setIsland b i).cores = s.cores := by cases b <;> rfl
@[simp] theorem State.setIsland_ports (s : State) (b : Bool) (i : Island) : (s.setIsland b i).ports = s.ports := by cases b <;> rfl
@[simp] theorem State.setIsland_gate (s : State) (b : Bool) (i : Island) : (s.setIsland b i).gate = s.gate := by cases b <;> rfl
@[simp] theorem State.setIsland_routes (s : State) (b : Bool) (i : Island) : (s.setIsland b i).routes = s.routes := by cases b <;> rfl
@[simp] theorem State.setIsland_sluice (s : State) (b : Bool) (i : Island) : (s.setIsland b i).sluice = s.sluice := by cases b <;> rfl
@[simp] theorem State.setIsland_pump (s : State) (b : Bool) (i : Island) : (s.setIsland b i).pump = s.pump := by cases b <;> rfl
@[simp] theorem State.setIsland_keeper (s : State) (b : Bool) (i : Island) : (s.setIsland b i).keeper = s.keeper := by cases b <;> rfl
@[simp] theorem State.setIsland_twin (s : State) (b : Bool) (i : Island) : (s.setIsland b i).twin = s.twin := by cases b <;> rfl
@[simp] theorem State.setIsland_integrity (s : State) (b : Bool) (i : Island) : (s.setIsland b i).integrity = s.integrity := by cases b <;> rfl
@[simp] theorem State.setIsland_fuses (s : State) (b : Bool) (i : Island) : (s.setIsland b i).fuses = s.fuses := by cases b <;> rfl
@[simp] theorem State.setIsland_startup (s : State) (b : Bool) (i : Island) : (s.setIsland b i).startup = s.startup := by cases b <;> rfl
@[simp] theorem State.setIsland_tap (s : State) (b : Bool) (i : Island) : (s.setIsland b i).tap = s.tap := by cases b <;> rfl
@[simp] theorem State.setIsland_raised (s : State) (b : Bool) (i : Island) : (s.setIsland b i).raised = s.raised := by cases b <;> rfl
@[simp] theorem State.setIsland_before (s : State) (b : Bool) (i : Island) : (s.setIsland b i).before = s.before := by cases b <;> rfl
@[simp] theorem State.setIsland_pending (s : State) (b : Bool) (i : Island) : (s.setIsland b i).pending = s.pending := by cases b <;> rfl
@[simp] theorem State.countBy_clock (s : State) (f i k : Nat) : (s.countBy f i k).clock = s.clock := by unfold State.countBy; dsimp only; split <;> rfl
@[simp] theorem State.count_clock (s : State) (f i : Nat) : (s.count f i).clock = s.clock := State.countBy_clock s f i 1
@[simp] theorem State.event_clock (s : State) (f i fev : Nat) : (s.event f i fev).clock = s.clock := State.count_clock s f i
@[simp] theorem State.countBy_ints (s : State) (f i k : Nat) : (s.countBy f i k).ints = s.ints := by unfold State.countBy; dsimp only; split <;> rfl
@[simp] theorem State.count_ints (s : State) (f i : Nat) : (s.count f i).ints = s.ints := State.countBy_ints s f i 1
@[simp] theorem State.event_ints (s : State) (f i fev : Nat) : (s.event f i fev).ints = s.ints := State.count_ints s f i
@[simp] theorem State.countBy_cores (s : State) (f i k : Nat) : (s.countBy f i k).cores = s.cores := by unfold State.countBy; dsimp only; split <;> rfl
@[simp] theorem State.count_cores (s : State) (f i : Nat) : (s.count f i).cores = s.cores := State.countBy_cores s f i 1
@[simp] theorem State.event_cores (s : State) (f i fev : Nat) : (s.event f i fev).cores = s.cores := State.count_cores s f i
@[simp] theorem State.countBy_ports (s : State) (f i k : Nat) : (s.countBy f i k).ports = s.ports := by unfold State.countBy; dsimp only; split <;> rfl
@[simp] theorem State.count_ports (s : State) (f i : Nat) : (s.count f i).ports = s.ports := State.countBy_ports s f i 1
@[simp] theorem State.event_ports (s : State) (f i fev : Nat) : (s.event f i fev).ports = s.ports := State.count_ports s f i
@[simp] theorem State.countBy_gate (s : State) (f i k : Nat) : (s.countBy f i k).gate = s.gate := by unfold State.countBy; dsimp only; split <;> rfl
@[simp] theorem State.count_gate (s : State) (f i : Nat) : (s.count f i).gate = s.gate := State.countBy_gate s f i 1
@[simp] theorem State.event_gate (s : State) (f i fev : Nat) : (s.event f i fev).gate = s.gate := State.count_gate s f i
@[simp] theorem State.countBy_routes (s : State) (f i k : Nat) : (s.countBy f i k).routes = s.routes := by unfold State.countBy; dsimp only; split <;> rfl
@[simp] theorem State.count_routes (s : State) (f i : Nat) : (s.count f i).routes = s.routes := State.countBy_routes s f i 1
@[simp] theorem State.event_routes (s : State) (f i fev : Nat) : (s.event f i fev).routes = s.routes := State.count_routes s f i
@[simp] theorem State.countBy_sluice (s : State) (f i k : Nat) : (s.countBy f i k).sluice = s.sluice := by unfold State.countBy; dsimp only; split <;> rfl
@[simp] theorem State.count_sluice (s : State) (f i : Nat) : (s.count f i).sluice = s.sluice := State.countBy_sluice s f i 1
@[simp] theorem State.event_sluice (s : State) (f i fev : Nat) : (s.event f i fev).sluice = s.sluice := State.count_sluice s f i
@[simp] theorem State.countBy_pump (s : State) (f i k : Nat) : (s.countBy f i k).pump = s.pump := by unfold State.countBy; dsimp only; split <;> rfl
@[simp] theorem State.count_pump (s : State) (f i : Nat) : (s.count f i).pump = s.pump := State.countBy_pump s f i 1
@[simp] theorem State.event_pump (s : State) (f i fev : Nat) : (s.event f i fev).pump = s.pump := State.count_pump s f i
@[simp] theorem State.countBy_levels (s : State) (f i k : Nat) : (s.countBy f i k).levels = s.levels := by unfold State.countBy; dsimp only; split <;> rfl
@[simp] theorem State.count_levels (s : State) (f i : Nat) : (s.count f i).levels = s.levels := State.countBy_levels s f i 1
@[simp] theorem State.event_levels (s : State) (f i fev : Nat) : (s.event f i fev).levels = s.levels := State.count_levels s f i
@[simp] theorem State.countBy_keeper (s : State) (f i k : Nat) : (s.countBy f i k).keeper = s.keeper := by unfold State.countBy; dsimp only; split <;> rfl
@[simp] theorem State.count_keeper (s : State) (f i : Nat) : (s.count f i).keeper = s.keeper := State.countBy_keeper s f i 1
@[simp] theorem State.event_keeper (s : State) (f i fev : Nat) : (s.event f i fev).keeper = s.keeper := State.count_keeper s f i
@[simp] theorem State.countBy_twin (s : State) (f i k : Nat) : (s.countBy f i k).twin = s.twin := by unfold State.countBy; dsimp only; split <;> rfl
@[simp] theorem State.count_twin (s : State) (f i : Nat) : (s.count f i).twin = s.twin := State.countBy_twin s f i 1
@[simp] theorem State.event_twin (s : State) (f i fev : Nat) : (s.event f i fev).twin = s.twin := State.count_twin s f i
@[simp] theorem State.countBy_integrity (s : State) (f i k : Nat) : (s.countBy f i k).integrity = s.integrity := by unfold State.countBy; dsimp only; split <;> rfl
@[simp] theorem State.count_integrity (s : State) (f i : Nat) : (s.count f i).integrity = s.integrity := State.countBy_integrity s f i 1
@[simp] theorem State.event_integrity (s : State) (f i fev : Nat) : (s.event f i fev).integrity = s.integrity := State.count_integrity s f i
@[simp] theorem State.countBy_fuses (s : State) (f i k : Nat) : (s.countBy f i k).fuses = s.fuses := by unfold State.countBy; dsimp only; split <;> rfl
@[simp] theorem State.count_fuses (s : State) (f i : Nat) : (s.count f i).fuses = s.fuses := State.countBy_fuses s f i 1
@[simp] theorem State.event_fuses (s : State) (f i fev : Nat) : (s.event f i fev).fuses = s.fuses := State.count_fuses s f i
@[simp] theorem State.countBy_startup (s : State) (f i k : Nat) : (s.countBy f i k).startup = s.startup := by unfold State.countBy; dsimp only; split <;> rfl
@[simp] theorem State.count_startup (s : State) (f i : Nat) : (s.count f i).startup = s.startup := State.countBy_startup s f i 1
@[simp] theorem State.event_startup (s : State) (f i fev : Nat) : (s.event f i fev).startup = s.startup := State.count_startup s f i
@[simp] theorem State.countBy_tap (s : State) (f i k : Nat) : (s.countBy f i k).tap = s.tap := by unfold State.countBy; dsimp only; split <;> rfl
@[simp] theorem State.count_tap (s : State) (f i : Nat) : (s.count f i).tap = s.tap := State.countBy_tap s f i 1
@[simp] theorem State.event_tap (s : State) (f i fev : Nat) : (s.event f i fev).tap = s.tap := State.count_tap s f i
@[simp] theorem State.countBy_before (s : State) (f i k : Nat) : (s.countBy f i k).before = s.before := by unfold State.countBy; dsimp only; split <;> rfl
@[simp] theorem State.count_before (s : State) (f i : Nat) : (s.count f i).before = s.before := State.countBy_before s f i 1
@[simp] theorem State.event_before (s : State) (f i fev : Nat) : (s.event f i fev).before = s.before := State.count_before s f i
@[simp] theorem State.countBy_pending (s : State) (f i k : Nat) : (s.countBy f i k).pending = s.pending := by unfold State.countBy; dsimp only; split <;> rfl
@[simp] theorem State.count_pending (s : State) (f i : Nat) : (s.count f i).pending = s.pending := State.countBy_pending s f i 1
@[simp] theorem State.event_pending (s : State) (f i fev : Nat) : (s.event f i fev).pending = s.pending := State.count_pending s f i
@[simp] theorem State.sampled_tap (s : State) : s.sampled.tap = s.tap := by unfold State.sampled; split <;> rfl
@[simp] theorem State.sampled_raised (s : State) : s.sampled.raised = s.raised := by unfold State.sampled; split <;> rfl
@[simp] theorem State.sampled_before (s : State) : s.sampled.before = s.before := by unfold State.sampled; split <;> rfl
@[simp] theorem State.sampled_pending (s : State) : s.sampled.pending = s.pending := by unfold State.sampled; split <;> rfl
@[simp] theorem State.sampled_edge (s : State) : s.sampled.clock.edge = s.clock.edge := by unfold State.sampled; split <;> rfl
@[simp] theorem State.sampled_dp (s : State) : s.sampled.clock.dp = s.clock.dp := by unfold State.sampled; split <;> rfl

end Sys2Proof.Machine
end

