-- ==== Sys2Proof/Laws/Tables.lean ====
section
/-! SUPPORT. The laws of the sparse tables: read after write, and the canonical form kept by every write. -/

namespace Sys2Proof.Machine

variable {α : Type} [DecidableEq α]

omit [DecidableEq α] in
theorem look_of_rising_lt (d : α) {lo k : Nat} {t : Tbl α} (h : rising lo t = true) (hk : k < lo) :
    look d t k = d := by
  induction t generalizing lo with
  | nil => rfl
  | cons e t ih =>
    simp only [rising, Bool.and_eq_true, decide_eq_true_eq] at h
    have hne : k ≠ e.1 := by omega
    simp [look, hne, ih h.2 (by omega)]

/-- A table reads what was written into it. -/
theorem look_ins_same (d : α) {lo : Nat} {t : Tbl α} (h : rising lo t = true) (k : Nat) (v : α) :
    look d (ins d t k v) k = v := by
  induction t generalizing lo with
  | nil => by_cases hv : v = d <;> simp [ins, look, hv]
  | cons e t ih =>
    simp only [rising, Bool.and_eq_true, decide_eq_true_eq] at h
    simp only [ins]
    split
    · next hlt =>
      split
      · next hv =>
        subst hv
        have hne : k ≠ e.1 := by omega
        simp [look, hne, look_of_rising_lt v h.2 (by omega : k < e.1 + 1)]
      · simp [look]
    · split
      · next heq =>
        split
        · next hv => subst hv; exact look_of_rising_lt v h.2 (by omega)
        · simp [look]
      · next hne => simp [look, hne, ih h.2]

/-- A write leaves every other entry of a table alone. -/
theorem look_ins_other (d : α) {t : Tbl α} {k j : Nat} (v : α) (h : j ≠ k) :
    look d (ins d t k v) j = look d t j := by
  induction t with
  | nil => by_cases hv : v = d <;> simp [ins, look, hv, h]
  | cons e t ih =>
    simp only [ins]
    split
    · split <;> simp [look, h]
    · split
      · next heq =>
        subst heq
        split <;> simp [look, h]
      · simp [look, ih]

/-- Of two writes of one entry the later stands alone. -/
theorem ins_ins_same (d : α) {lo : Nat} {t : Tbl α} (h : rising lo t = true) (k : Nat) (v w : α) :
    ins d (ins d t k v) k w = ins d t k w := by
  induction t generalizing lo with
  | nil => by_cases hv : v = d <;> simp [ins, hv]
  | cons e t ih =>
    simp only [rising, Bool.and_eq_true, decide_eq_true_eq] at h
    by_cases h1 : k < e.1
    · by_cases hv : v = d <;> simp [ins, h1, hv]
    · by_cases h2 : k = e.1
      · by_cases hv : v = d
        · cases t with
          | nil => by_cases hw : w = d <;> simp [ins, h2, hv, hw]
          | cons e' t =>
            have h3 := h.2
            simp only [rising, Bool.and_eq_true, decide_eq_true_eq] at h3
            have h4 : e.1 < e'.1 := by omega
            simp [ins, h2, hv, h4]
        · simp [ins, h2, hv]
      · simp [ins, h1, h2, ih h.2]

/-- Indices keep rising under a write at or above the bound. -/
theorem rising_ins (d : α) {lo : Nat} {t : Tbl α} (h : rising lo t = true) {k : Nat} (hk : lo ≤ k) (v : α) :
    rising lo (ins d t k v) = true := by
  induction t generalizing lo with
  | nil => by_cases hv : v = d <;> simp [ins, rising, hv, hk]
  | cons e t ih =>
    simp only [rising, Bool.and_eq_true, decide_eq_true_eq] at h
    simp only [ins]
    split
    · next hlt =>
      split
      · simp [rising, h]
      · simp only [rising, Bool.and_eq_true, decide_eq_true_eq]
        exact ⟨hk, by omega, h.2⟩
    · split
      · next heq =>
        subst heq
        split
        · exact rising_weaken h.2 (by omega)
        · simp [rising, hk, h.2]
      · simp only [rising, Bool.and_eq_true, decide_eq_true_eq]
        exact ⟨h.1, ih h.2 (by omega)⟩
where
  rising_weaken {lo lo' : Nat} {t : Tbl α} (h : rising lo t = true) (hl : lo' ≤ lo) : rising lo' t = true := by
    cases t with
    | nil => rfl
    | cons e t =>
      simp only [rising, Bool.and_eq_true, decide_eq_true_eq] at h ⊢
      exact ⟨by omega, h.2⟩

/-- No entry of a written table equals what an unlisted index reads as. -/
theorem unlisted_ins (d : α) {t : Tbl α} (h : (t.all fun e => decide (e.2 ≠ d)) = true) (k : Nat) (v : α) :
    ((ins d t k v).all fun e => decide (e.2 ≠ d)) = true := by
  induction t with
  | nil => by_cases hv : v = d <;> simp [ins, hv]
  | cons e t ih =>
    simp only [List.all_cons, Bool.and_eq_true] at h
    simp only [ins]
    split
    · split
      · simpa [List.all_cons] using h
      · next hv => simpa [List.all_cons, hv] using h
    · split
      · split
        · exact h.2
        · next hv => simpa [List.all_cons, hv] using h.2
      · simp only [List.all_cons, Bool.and_eq_true]
        exact ⟨h.1, ih h.2⟩

/-- Every write keeps a table's canonical form. -/
theorem tableWf_ins (d : α) {t : Tbl α} (h : tableWf (fun _ => d) t = true) (k : Nat) (v : α) :
    tableWf (fun _ => d) (ins d t k v) = true := by
  simp only [tableWf, Bool.and_eq_true] at h ⊢
  exact ⟨rising_ins d h.1 (Nat.zero_le k) v, unlisted_ins d h.2 k v⟩

end Sys2Proof.Machine
end

