-- ==== Sys2Proof/WellFormed.lean ====
section
/-! DEFINITION. Well-formed commands: the operands that name something the block has. -/

namespace Sys2Proof

/-- A count of bit errors within what a page code can say: 1 or more (R386). -/
def Verdict.wf : Verdict → Bool
  | .clean => true
  | .corr n => decide (1 ≤ n)
  | .uncorr => true

/-- A page read as two wells can see it. -/
def PageRead.wf (p : PageRead) : Bool := p.a.wf && p.b.wf

/-- A drift names a fuse word of the array and one of its copies (R348). -/
def FuseDrift.wf (d : FuseDrift) : Bool := decide (d.word < 512) && decide (d.copy.toNat < 3)

/-- A store of R311 by its number. -/
def storeWf (store : BitVec 3) : Bool := decide (store.toNat < 7)

/-- A page of a store. -/
def pageWf (store : BitVec 3) (index : BitVec 16) : Bool :=
  decide (index.toNat < Config.storePages store.toNat)

/-- A swept page is a page of a store, read as two wells can see it. -/
def SweptPage.wf (p : SweptPage) : Bool := storeWf p.store && pageWf p.store p.index && p.page.wf

/-- What a step's sweep found is pages of stores. -/
def StepEnd.wf : StepEnd → Bool
  | .failed => true
  | .passed found => found.all SweptPage.wf

/-- An upset strikes one of three copies (R216); INTIDs 0 to 63 have no fast-table entry (R211). -/
def Upset.wf (u : Upset) : Bool :=
  decide (u.copy.toNat < 3) &&
    (match u.cell with
      | .table x => decide (64 ≤ x.toNat)
      | .shared x => decide (64 ≤ x.toNat)
      | .priv _ _ => true
      | .registers _ => true)

/-- A target of the sluice: a core or the keeper, T256 (R92). -/
def targetWf (target : BitVec 9) : Bool := decide (target.toNat ≤ 256)

/-- An index of the outbound port's tags needs no check: all 512 exist (R438). A wire number names one of
the 56 lines or 16 vault wires (R440). -/
def wireWf (wire : BitVec 7) : Bool := decide (wire.toNat < 72)

/-- A latch source names a line the block has. -/
def StbySource.wf : StbySource → Bool
  | .zeroize _ => true
  | .discrepancy _ => true
  | .level line => decide (line.toNat < 56)
  | .wake => true

/-- What each command's operands must satisfy; a command with no check is well formed. -/
def Instr.wellFormed : Instr → Bool
  | .registerWrite _ _ _ _ _ => true
  | .pageLockWrite _ _ frame _ _ => decide (frame.toNat < 0x28)
  | .guardArm _ _ _ _ => true
  | .guardTimeout _ _ => true
  | .coreMaskCommit _ _ _ _ => true
  | .privClassCommit _ _ _ _ _ => true
  | .actDropN _ _ _ _ => true
  | .actDropF _ _ _ _ => true
  | .rulesetSwap _ _ _ _ => true
  | .counterWrite _ _ frame _ _ _ _ => decide (frame.toNat < 0x180)
  | .counterLoRead _ _ frame _ _ _ => decide (frame.toNat < 0x180)
  | .snapReq _ _ _ => true
  | .dbFenceRead _ _ _ _ => true
  | .dbFenceAnswer _ => true
  | .dbFenceTimeout _ => true
  | .windowRead _ _ _ _ _ => true
  | .windowReadAnswer _ page => page.wf
  | .windowWrite _ _ _ _ _ _ => true
  | .mailboxWrite _ _ _ _ _ _ => true
  | .mailboxSubmit _ _ _ _ _ _ page => page.wf
  | .ackN _ _ _ _ page => page.wf
  | .ackF _ _ _ _ page => page.wf
  | .eoiN _ _ _ _ page => page.wf
  | .eoiF _ _ _ _ page => page.wf
  | .sgiSend _ _ _ _ => true
  | .pendSet _ _ _ _ page => page.wf
  | .spillCtrlWrite _ _ _ _ => true
  | .spillConsumedWrite _ _ _ _ => true
  | .grpCfgWrite _ _ _ _ _ => true
  | .grpHoldWrite _ _ _ _ _ => true
  | .trimUserWrite _ _ _ _ _ => true
  | .slowRegWrite _ _ _ _ => true
  | .twinInject _ _ _ => true
  | .ftRead _ _ _ => true
  | .doorbellAccept _ _ _ _ _ => true
  | .doorbellLookup _ _ _ page => page.wf
  | .doorbellEffect _ _ page => page.wf
  | .fastDoorbellAccept _ _ _ _ _ => true
  | .fastDoorbellEffect _ _ => true
  | .dbResponse _ _ => true
  | .portMask _ _ => true
  | .portUnmask _ _ => true
  | .shadowReserve _ => true
  | .shadowRelease _ => true
  | .routeItemWrite _ page => page.wf
  | .rightsItemWrite _ page => page.wf
  | .lockOverrun _ => true
  | .monitorWindowClose _ _ => true
  | .rekeyStart _ _ => true
  | .migrationRowTick _ _ => true
  | .migrationRowWrite _ _ pages => pages.all PageRead.wf
  | .targetRound _ target => targetWf target
  | .windowBoundary _ _ => true
  | .trickleHoldEnd _ _ => true
  | .fastRound _ target => targetWf target
  | .coreSleepSeen _ _ => true
  | .coreWakeSeen _ _ => true
  | .levelInputChange _ wire _ => wireWf wire
  | .levelFilterEdge _ wire => wireWf wire
  | .levelSet _ line => decide (line.toNat < 56)
  | .discTamper _ _ => true
  | .vaultSet _ _ => true
  | .vaultSweep _ => true
  | .zeroizeLatchSet _ _ => true
  | .zlatchSeen _ _ => true
  | .stbyLatchSet _ source => source.wf
  | .cisternAppend _ _ page => page.wf
  | .level1Response _ _ _ _ => true
  | .descriptorResponse _ _ _ _ _ _ _ => true
  | .controlBlockResponse _ _ _ _ _ => true
  | .headReadResponse _ _ _ _ => true
  | .floatPoll _ _ => true
  | .holdRefresh _ _ => true
  | .holdLimitExpire _ _ => true
  | .coalTimerExpire _ _ => true
  | .outboundGrant _ => true
  | .omRequestTaken _ => true
  | .lineWriteResponse _ _ _ => true
  | .producerWriteResponse _ _ _ => true
  | .outboundTimeout _ _ => true
  | .outboundLateAnswer _ _ => true
  | .spillwayAppend _ _ => true
  | .mailboxRound _ => true
  | .keeperServicePoint _ => true
  | .engineOpDone _ _ => true
  | .watchdogExpire _ => true
  | .keeperRestartDone _ _ => true
  | .tokenExpire _ _ => true
  | .randomWaitTimeout _ => true
  | .commandResume _ => true
  | .nop _ => true
  | .keeperInfo _ => true
  | .tokenDrop _ => true
  | .standbyEnter _ => true
  | .standbyDrainDone _ => true
  | .standbyDrainTimeout _ => true
  | .vaultRearm _ _ => true
  | .routeWrite _ => true
  | .fastWrite _ => true
  | .groupWrite _ pages => pages.all PageRead.wf
  | .routeRekey _ => true
  | .rightsWrite _ => true
  | .cisternOpen _ => true
  | .cisternClose _ => true
  | .cisternSync _ => true
  | .cisternFlush _ => true
  | .snapshot _ => true
  | .scrub _ => true
  | .strengthSet _ => true
  | .imageSave _ => true
  | .imageRestore _ => true
  | .stage _ => true
  | .approve _ => true
  | .approvalVerified _ => true
  | .stageStatus _ => true
  | .stageCancel _ => true
  | .stageExpire _ => true
  | .commission _ => true
  | .officerList _ => true
  | .attest _ found => found.all SweptPage.wf
  | .certRead _ => true
  | .sha256 _ => true
  | .configDigest _ found => found.all SweptPage.wf
  | .twinStatus _ => true
  | .repair _ => true
  | .twinSwap _ => true
  | .selfTest _ _ => true
  | .lifecycleAdvance _ _ => true
  | .fuseResense _ drift => drift.all FuseDrift.wf
  | .fuseResenseTick _ drift => drift.all FuseDrift.wf
  | .fuseProgramDone _ _ => true
  | .scrubWalkerTick _ store => storeWf store
  | .scrubAccess _ store _ page => storeWf store && page.wf
  | .pageRebuild _ store index => storeWf store && pageWf store index
  | .reencodePage _ page => page.wf
  | .checkpoint _ _ _ => true
  | .twinFrameArrive _ _ noise => decide (noise.length ≤ 15)
  | .sigCompare _ => true
  | .hbLoss _ _ => true
  | .leadSilent _ => true
  | .mirrorSilent _ => true
  | .failoverFreeze _ => true
  | .selfCheckReport _ _ found => found.pages.all SweptPage.wf
  | .selfCheckDeadline _ => true
  | .failoverResume _ => true
  | .repairDigestMatch _ _ => true
  | .repairChunkStage _ => true
  | .repairChunkOpen _ _ => true
  | .forwardedWrite _ store index => storeWf store && pageWf store index
  | .repairJoin _ => true
  | .pwrGoodFall _ _ => true
  | .powerOnReset _ => true
  | .porstRelease _ _ _ => true
  | .warmReset _ _ => true
  | .aonSupplyLoss _ => true
  | .startupStepDone _ _ outcome => outcome.wf
  | .startupStepTimeout _ _ => true
  | .ready _ => true
  | .rndWord _ _ _ => true
  | .rndKatTimeout _ => true
  | .sclkEdge _ => true
  | .omStrayResponse _ _ _ _ => true
  | .imageSlotResponse _ _ _ _ => true
  | .repairRefillDone _ => true
  | .fastTableSweep turn => turn.upsets.all Upset.wf
  | .tapTckEdge _ _ _ _ _ => true

end Sys2Proof
end

