-- ==== Sys2Proof/Tests/Slice0.lean ====
section
/-! SUPPORT. The author's tests: ill-formed commands that the check refuses, a state and operands that meet the
hypotheses of each clause of each statement (the `wit_` theorems), and single steps with results taken from the spec. -/

set_option maxRecDepth 100000

namespace Sys2Proof.Tests
open Sys2Proof Sys2Proof.Machine

/-- A well that is powered and has passed start-up. -/
def well : Well := { Well.reset with power := true, step := 11 }

/-- The block at READY with both wells paired, nothing configured and nothing commanded. -/
def live : State :=
  { State.reset with
    startup := { Startup.reset with ready := true, inReset := false }
    twin := { Twin.reset with wellA := well, wellB := well } }

/-- The next state of a command, checked by `p`; false of a fault or a refusal. -/
def after (c : Instr) (s : State) (p : State → Bool) : Bool :=
  match exec c s with
  | .next t => p t
  | _ => false

/-- No edge passes before the command, nothing comes of itself at its edge, and the data plane runs. -/
def still (s : State) : Bool := decide (s.elapse 0 = s) && s.running


/-- A state at FCLK edge `e`, the SCLK edges before it having passed. -/
def at_ (e : Nat) (s : State) : State :=
  { s with clock.edge := e, clock.dp := e, clock.nextSclk := (e + Config.sclk - 1) / Config.sclk * Config.sclk }

/-- A trigger of cause 2 (HB_LOSS) at edge 0, and the failover it began, in a given state. -/
def trig (cause : Nat) : Trigger := { cause := cause, edge := 0, leadBad := false, mirrorBad := false }
def failing (decided : Option Nat) (promoted : Bool) (stage : Nat) : Failover where
  trigger := trig 2
  freeze := 1
  decided := decided
  promoted := promoted
  stage := stage
  replays := []
  replayed := 0
  keeperOn := false
/-! ### Witnesses: the register port -/

theorem wit_StepRunsTheFrontCommand :
    ({ live with pending := [.nop 0] } : State).pending = .nop 0 :: [] ∧ live.pending = [] := by decide

theorem wit_AnUnadmittedHostChangesNoRegister :
    live.portOpen 0 ∧ placeOf (4 * (0x2008#22).toNat) = .frame 2 0 0x20 ∧
      (live.portEdge 0).frameAdmits 2 5#6 true = false := by
  unfold State.portOpen; decide

/-- A block with PAGE_LOCK of the first port's page set. -/
def locked1 : State := { live with front.locks := [(2, 1#32)] }

theorem wit_RegisterWritesFollowTheirViews :
    (live.portOpen 0 ∧ placeOf (4 * (0x2008#22).toNat) = .frame 2 0 0x20 ∧ tableReg 2 0x20 = true ∧
      (regInfo 2 0x20).map (fun i => (i.baseOnly, (live.portEdge 0).locked 2 i.group)) = some (false, false) ∧
      (live.portEdge 0).frameAdmits 2 0#6 true = true ∧ quietReg 2 0x20 = true) ∧
    (placeOf (4 * (0x3FFFFF#22).toNat) = .unmapped ∧ placeOf (4 * (0x28000#22).toNat) = .unmapped ∧
      placeOf (4 * (0x2009#22).toNat) = .frame 2 0 0x24 ∧ (0x2009#22).toNat % 2 = 1 ∧
      (live.portEdge 0).frameAdmits 2 63#6 true = false) ∧
    (locked1.portOpen 0 ∧ (regInfo 2 0x20).map (fun i => (locked1.portEdge 0).locked 2 i.group) = some true) := by
  unfold State.portOpen; decide

/-- The word address of a frame's register through a view. -/
def wordAt (f view o : Nat) : BitVec 22 := BitVec.ofNat 22 (f * 0x1000 + view * 0x400 + o / 4)

/-- A block whose TWIN_INJECT has been written once, and one that is not yet READY. -/
def injected : State := { live with front.injectWritten := true }
def unready : State := { live with startup.ready := false }

theorem wit_OtherRegisterWritesFollowTheirForm :
    (placeOf (4 * (wordAt 2 0 0x18).toNat) = .frame 2 0 0x18 ∧ isGuarded 2 0x18 = false ∧ isGuarded 2 0x7FC = false ∧
      placeOf (4 * (wordAt 2 3 0x7FC).toNat) = .frame 2 3 0x7FC ∧ placeOf (4 * (wordAt 2 1 0x400).toNat) = .frame 2 1 0x400 ∧
      isCoreFrame 0x17F = true ∧
      placeOf (4 * (wordAt 0x17F 0 0x20).toNat) = .frame 0x17F 0 0x20 ∧ (live.portEdge 0).frameAdmits 0x17F 0#6 true = true ∧
      isCoreFrame fBlock = false ∧ regInfo 2 0x300 = none ∧ placeOf (4 * (wordAt 2 0 0x300).toNat) = .frame 2 0 0x300) ∧
    (placeOf (4 * (wordAt fTwin 1 0x20).toNat) = .frame fTwin 1 0x20 ∧ (live.portEdge 0).locked fTwin (some 0) = false ∧
      (regInfo fTwin 0x20).isSome = true ∧ injected.portOpen 0 ∧ (injected.portEdge 0).front.injectWritten = true ∧
      (live.portEdge 0).front.injectWritten = false ∧ bit (loWord (0x10000#64)) 16 = true ∧ bit (loWord (1#64)) 16 = false) ∧
    (quietReg 2 0x20 = true ∧ quietReg 2 0x24 = true ∧ 0x20 % 8 = 0 ∧
      (regInfo 2 0x20).map (fun i => (i.baseOnly, (live.portEdge 0).locked 2 i.group)) = some (false, false) ∧
      (regInfo 2 0x24).map (fun i => (i.baseOnly, (live.portEdge 0).locked 2 i.group)) = some (false, false)) ∧
    ((unready.elapse 0).dead = false ∧ (unready.elapse 0).accepts = true ∧ (unready.elapse 0).front.hold = none ∧
      (unready.elapse 0).front.waiting = [] ∧ (unready.portEdge 0).startup.ready = false ∧ (unready.portEdge 0).frozen = false) := by
  unfold State.portOpen; decide

theorem wit_StagedAndLockedRegistersTakeTheirWrites :
    (live.portOpen 0 ∧ (live.portEdge 0).frameAdmits (0x27#6).toNat 0#6 true = true ∧
      bit ((live.portEdge 0).lock 0x27) 31 = false ∧
      bit (({ live with front.locks := [(0x27, 0x80000000#32)] } : State).lock 0x27) 31 = true) ∧
    ((live.portEdge 0).globalAdmits fFuse 0 true = true ∧ (live.portEdge 0).locked fFuse (some 0) = false ∧
      (live.portEdge 0).locked fFuse (some 1) = false ∧
      ({ live with front.locks := [(fFuse, 3#32)] } : State).locked fFuse (some 0) = true ∧
      ({ live with front.locks := [(fFuse, 3#32)] } : State).locked fFuse (some 1) = true) ∧
    ((live.portEdge 0).globalAdmits fTwin 0 true = true ∧ bit ((live.portEdge 0).reg fTwin 0x20) 16 = false ∧
      bit ((live.setReg fTwin 0x20 0x10004#32).reg fTwin 0x20) 16 = true ∧ bits (0x201#32) 9 8 = 2) := by
  unfold State.portOpen; decide

/-- A block whose host page H3 and core page 255 hold an arm made at edge 0. -/
def armed : State :=
  live.setArm (fHost 3) (some { value := 1#32, host := 0#6, edge := 0, offset := 0x20 })
    |>.setArm (fCore 255) (some { value := 0xC#32, host := 0#6, edge := 0, offset := 0x40 })

/-- The same block at the 65th ICLK edge after arming, and one edge before it. -/
def armedAt (e : Nat) : State := at_ e armed

/-- A block armed on a host page and on three core pages, one register of each form. -/
def armedWide : State :=
  armed.setArm (fCore 254) (some { value := 7#32, host := 0#6, edge := 0, offset := 0x64 })
    |>.setArm (fCore 253) (some { value := 3#32, host := 0#6, edge := 0, offset := 0x70 })

theorem wit_GuardedPairsArmTimeOutAndRefuse :
    (guardPlace (.coreMask 255#8) = (fCore 255, 0x40) ∧ live.portOpen 0 ∧
      (live.portEdge 0).frameAdmits (fCore 255) 0#6 true = true ∧ (live.portEdge 0).arm (fCore 255) = none ∧
      (armedAt 252).portOpen 0 ∧ ((armedAt 252).portEdge 0).clock.edge = 252 ∧
      ((armedAt 252).portEdge 0).armedWith (fCore 255) { value := 0xC#32, host := 0#6, edge := 0, offset := 0x40 }) ∧
    ((armedAt 260).elapse 0 = armedAt 260 ∧ (armedAt 260).startup.inReset = false ∧
      (armedAt 260).arm (guardFrame (.core 255#8)) = some { value := 0xC#32, host := 0#6, edge := 0, offset := 0x40 } ∧
      0 + 65 * Config.iclk ≤ (armedAt 260).clock.edge ∧
      (armedAt 259).armedWith (guardFrame (.core 255#8)) { value := 0xC#32, host := 0#6, edge := 0, offset := 0x40 }) ∧
    (0xFFFFFFF4#32 ≠ ~~~0xC#32 ∧ (0#6 : HostId) ≠ 1#6) ∧
    (armedWide.portOpen 0 ∧ (armedWide.portEdge 0).frameAdmits (fHost 3) 0#6 true = true ∧
      (armedWide.portEdge 0).armedWith (fHost (3#6).toNat) { value := 1#32, host := 0#6, edge := 0, offset := 0x20 } ∧
      (armedWide.portEdge 0).armedWith (fCore (255#8).toNat) { value := 0xC#32, host := 0#6, edge := 0, offset := 0x40 } ∧
      (armedWide.portEdge 0).armedWith (fCore (254#8).toNat) { value := 7#32, host := 0#6, edge := 0, offset := 0x64 } ∧
      (armedWide.portEdge 0).armedWith (fCore (253#8).toNat) { value := 3#32, host := 0#6, edge := 0, offset := 0x70 } ∧
      (armedWide.portEdge 0).arm (fCore 252) = none) ∧
    (placeOf (4 * (wordAt (fCore 255) 1 0x40).toNat) = .frame (fCore 255) 1 0x40 ∧ isGuarded (fCore 255) 0x40 = true ∧
      placeOf (4 * (wordAt (fCore 255) 0 0x840).toNat) = .frame (fCore 255) 0 0x840 ∧ isGuarded (fCore 255) 0x840 = true ∧
      isGuarded (fHost 0) 0x20 = true ∧ isGuarded (fCore 0) 0x64 = true ∧ 0x60 % 8 = 0) := by
  unfold State.portOpen State.armedWith; decide

/-- A block armed for PRIV_CLASS and for ACT_DROP on core pages 0 to 3. -/
def armedCores : State :=
  live.setArm (fCore 0) (some { value := 1#32, host := 0#6, edge := 0, offset := 0x60 })
    |>.setArm (fCore 1) (some { value := 1#32, host := 0#6, edge := 0, offset := 0x70 })
    |>.setArm (fCore 2) (some { value := 2#32, host := 0#6, edge := 0, offset := 0x70 })
    |>.setArm (fCore 3) (some { value := 3#32, host := 0#6, edge := 0, offset := 0x70 })

theorem wit_CommitsTakeTheArmedValue :
    (armedCores.portOpen 0 ∧
      (armedCores.portEdge 0).armedWith (fCore 0) { value := 1#32, host := 0#6, edge := 0, offset := 0x60 } ∧
      (armedCores.portEdge 0).armedWith (fCore 1) { value := 1#32, host := 0#6, edge := 0, offset := 0x70 } ∧
      (armedCores.portEdge 0).armedWith (fCore 2) { value := 2#32, host := 0#6, edge := 0, offset := 0x70 } ∧
      (armedCores.portEdge 0).armedWith (fCore 3) { value := 3#32, host := 0#6, edge := 0, offset := 0x70 } ∧
      (armedCores.portEdge 0).frameAdmits (fCore 3) 0#6 true = true) ∧
    (armed.portOpen 0 ∧ (armed.portEdge 0).frameAdmits (fHost (3#6).toNat) 0#6 true = true ∧
      (armed.portEdge 0).armedWith (fHost 3) { value := 1#32, host := 0#6, edge := 0, offset := 0x20 } ∧
      bit (armed.portEdge 0).gate.setB 3 ≠ bit (1#32) 0 ∧
      bit ({ armed with gate.setB := 8#64 } : State).gate.setB 3 = bit (1#32) 0) := by
  unfold State.portOpen State.armedWith; decide

theorem wit_GuardedRegistersReadTheirCommittedValue :
    rwgMask (0x40 + 63) 0x20 = some 1#32 ∧ rwgMask 0x80 0x40 = some 0xF#32 ∧ rwgMask (0x80 + 255) 0x60 = some 0xFFFFFFFF#32 ∧
      rwgMask (0x80 + 255) 0x64 = some 0xFFFFFFFF#32 ∧ rwgMask (0x80 + 255) 0x70 = some 3#32 ∧
      (armed.setArm 0x43 (some { value := 1#32, host := 0#6, edge := 0, offset := 0x20 })).readReg 0x43 0x820 = 0xFFFFFFFF#32 := by
  decide

theorem wit_CountersReadAndWriteTheirPair :
    counterExists (0x17F#9).toNat (11#6).toNat = true ∧ (11#6).toNat < ncnt (0x17F#9).toNat ∧ live.portOpen 0 ∧
      (live.portEdge 0).frameAdmits 0x17F 0#6 true = true ∧ (live.portEdge 0).frameAdmits 0x17F 0#6 false = true ∧
      rising 0 (live.portEdge 0).front.counters = true := by
  unfold State.portOpen; decide

theorem wit_SnapshotCopiesEveryCounter :
    live.portOpen 0 ∧ (live.portEdge 0).frameAdmits fBlock 0#6 true = true ∧ bit (1#32) 0 = true ∧ bit (2#32) 0 = false ∧
      (live.portEdge 0).front.snapAt ≠ some (live.portEdge 0).clock.edge ∧
      rising 0 (live.portEdge 0).front.counters = true ∧
      (let s : State := { live with front.snapAt := some 0 }
       s.portOpen 0 ∧ (s.portEdge 0).front.snapAt = some (s.portEdge 0).clock.edge) := by
  unfold State.portOpen; decide

/-- A block that holds a fence read of port 0 since edge 0, with one doorbell (accepted at edge 0) to settle or none. -/
def fenced (e : Nat) (l : List Unsettled) : State :=
  (({ at_ e live with front.hold := some (.fence 0#6 0 1 1 1 0#32) } : State).modPort 0
    fun x => { x with nextId := 1, unsettled := l })

theorem wit_FencesAndStoreReadsWaitOrVote_fence :
    (live.portOpen 0 ∧ (live.portEdge 0).frameAdmits (fPort 15) 0#6 false = true) ∧
    ((fenced 8 []).elapse 0 = fenced 8 [] ∧ (fenced 8 []).frozen = false ∧
      (fenced 8 []).front.hold = some (.fence 0#6 0 1 1 1 0#32) ∧ (fenced 8 []).fenceLeft 0 1 1 = false) ∧
    ((fenced 65537 [⟨0, 0#16, 0, false, []⟩]).elapse 0 = fenced 65537 [⟨0, 0#16, 0, false, []⟩] ∧
      (fenced 65537 [⟨0, 0#16, 0, false, []⟩]).fenceLeft 0 1 1 = true ∧
      1 + 65536 ≤ (fenced 65537 [⟨0, 0#16, 0, false, []⟩]).clock.dp) := by
  unfold State.portOpen; decide

/-- A block that holds a read of the route window's entry 72, and one whose entry 72 of the fast table has an odd copy. -/
def windowed : State := { at_ 8 live with front.hold := some (.window false 72 0 false) }
def oddCopy : State := (live.setReg fFast 0x24 72#32).setFt 72 { c0 := 1#32, c1 := 0#32, c2 := 0#32 }
def oddBack : State := { oddCopy with routes.ftBack := [72] }

theorem wit_FencesAndStoreReadsWaitOrVote :
    (live.portOpen 0 ∧ rgHost (rgHalf ((live.portEdge 0).rightsEntry 0) false) = 0 ∧
      rtOwner ((live.portEdge 0).route 71) = 0 ∧ 72 ≤ (144#18).toNat / 2 ∧ (143#18).toNat / 2 < 72) ∧
    (windowed.elapse 0 = windowed ∧ windowed.frozen = false ∧ windowed.front.hold = some (.window false 72 0 false) ∧
      windowed.windowBank.any (fun x => windowed.maintWins 2 x.1 x.2) = true ∧
      (windowed.windowBank.map fun x =>
        (State.readPage (windowed.chargeMaint 2 x.1 x.2) x.1 (windowed.routes.rt.physical 9) 2 false cleanRead).1.usable) = some true ∧
      (windowed.windowBank.map fun x =>
        (State.readPage (windowed.chargeMaint 2 x.1 x.2) x.1 (windowed.routes.rt.physical 9) 2 false
          { a := .uncorr, b := .uncorr }).1.usable) = some false ∧
      (windowed.windowBank.map fun x =>
        let r := (State.readPage (windowed.chargeMaint 2 x.1 x.2) x.1 (windowed.routes.rt.physical 9) 2 false
          { a := .uncorr, b := .clean }).1
        (r.usable, r.leadError)) = some (true, true)) ∧
    ((live.portEdge 0).globalAdmits fFast 0 false = true ∧ bits (oddCopy.reg fFast 0x24) 11 0 = 72 ∧
      (live.ft 72).odd = none ∧ (oddCopy.ft 72).odd = some 0 ∧ oddCopy.portOpen 0 ∧
      (oddCopy.portEdge 0).routes.ftBack = [] ∧ oddBack.portOpen 0 ∧ 72 ∈ (oddBack.portEdge 0).routes.ftBack ∧ ftOwner (oddCopy.fast 72) ≠ (5#6).toNat ∧
      (live.setReg fGate (0xA00 + 16 * fFast) 0xFFFFFFFF#32).globalAdmits fFast 5 false = true) := by
  unfold State.portOpen; decide

/-- A block whose mailbox H63 is in a given state, and one with its first page poisoned. -/
def boxed (st : MbState) : State := live.setBox 63 { Mailbox.reset with st := st }
def badBox : State := { live with twin.wellA := { well with poison := [(6 * 65536 + boxPage 63 0, true)] } }

theorem wit_MailboxesAreWrittenAndSubmitted :
    (live.portOpen 0 ∧ ((live.portEdge 0).box 63).st = .idle ∧ ((boxed .done).box 63).st = .done ∧
      ((boxed .queued).box 63).st = .queued ∧ ((boxed .running).box 63).st = .running ∧ 4 * (0x3FF#12).toNat = 0xFFC ∧
      4 * (0x400#12).toNat = 0x1000 ∧ (live.portEdge 0).poisoned 6 (boxPage 63 0xFFC) = false ∧
      badBox.poisoned 6 (boxPage 63 0) = true) ∧
    ((live.portEdge 0).lead.poison = [] ∧ (live.portEdge 0).keeper.held = false ∧
      (((live.portEdge 0).box 63).word 0).setWidth 8 ≠ 0x61#8 ∧
      rising 0 (live.portEdge 0).keeper.boxes = true ∧ rising 0 (live.portEdge 0).keeper.submitted = true ∧
      rising 0 ((live.portEdge 0).box 63).bytes = true) := by
  unfold State.portOpen; decide
/-! ### Witnesses: cores, doorbells and stores -/

/-- A block at edge 8 with INTIDs presented on cores 0 (normal 200, fast 201) and 1 (normal 5,000). -/
def shown : State :=
  ((at_ 8 live).modCore 0 fun c =>
    { c with presN := some { intid := 200, dup := false, loadAt := 0, group := 0 },
             presF := some { intid := 201, dup := false, loadAt := 0, group := 0 } }).modCore 1
    fun c => { c with presN := some { intid := 5000, dup := false, loadAt := 0, group := 0 } }

theorem wit_AcknowledgeTakesThePresentation :
    (live.portOpen 0 ∧ (live.portEdge 0).coreAdmits 255 0 = true ∧ (live.portEdge 0).seenN 255 = none ∧
      (live.portEdge 0).seenF 255 = none) ∧
    (shown.portOpen 0 ∧ ((shown.portEdge 0).seenN 0).map Slot.intid = some 200 ∧
      ((shown.portEdge 0).seenF 0).map Slot.intid = some 201 ∧ ((shown.portEdge 0).seenN 1).map Slot.intid = some 5000 ∧
      ((shown.portEdge 0).readPage 2 (reservoirPage 5000) 2 false cleanRead).1.usable = true ∧
      (1#2).toNat ≠ 0) ∧
    (shown.portOpen 4 ∧ (shown.portEdge 4).before.isSome = true ∧ (shown.portEdge 4).sampled.coreAdmits 0 0 = true ∧
      (shown.portEdge 4).seenN 255 = none ∧ ((shown.portEdge 4).seenF 0).map Slot.intid = some 201) := by
  unfold State.portOpen; decide

/-- A block whose core 0 has INTIDs 4,095 and 131,072 (its private INTID 0) active, and core 1 INTIDs 4,096 and 131,071. -/
def actives : State :=
  (live.modCore 0 fun c => { c with actN := some ⟨4095, false⟩, actF := some ⟨131072, false⟩ }).modCore 1
    fun c => { c with actN := some ⟨4096, false⟩, actF := some ⟨131071, false⟩ }

theorem wit_EndOfInterruptReleasesTheActiveInterrupt :
    (live.portOpen 0 ∧ (live.portEdge 0).coreAdmits 255 0 = true ∧ (live.portEdge 0).act 255 false = none) ∧
    (actives.portOpen 0 ∧ (actives.portEdge 0).act 0 false = some ⟨4095, false⟩ ∧
      intidOf 4095 = bits (4095#32) 16 0 ∧ intidOf 4095 ≠ bits (4094#32) 16 0 ∧
      (actives.portEdge 0).act 0 true = some ⟨131072, false⟩ ∧ intidOf 131072 = bits (0#32) 16 0 ∧
      (actives.portEdge 0).act 1 false = some ⟨4096, false⟩ ∧ intidOf 4096 = bits (4096#32) 16 0 ∧
      (actives.portEdge 0).act 1 true = some ⟨131071, false⟩ ∧ intidOf 131071 = bits (131071#32) 16 0) := by
  unfold State.portOpen; decide

/-- A block whose core page 0 is given to host 5 and whose other core pages are H0's alone. -/
def shared0 : State := live.setReg fGate 0xC80 0x85#32

theorem wit_SgiSetsThePrivateInterrupt :
    (live.portOpen 0 ∧ (live.portEdge 0).coreAdmits 255 0 = true ∧
      (live.portEdge 0).coreAdmits (bits (0xFF000F#32) 23 16) 0 = true) ∧
    (shared0.portOpen 0 ∧ (shared0.portEdge 0).coreAdmits 0 5 = true ∧
      (shared0.portEdge 0).coreAdmits (bits (0xFF000F#32) 23 16) 5 = false) := by
  unfold State.portOpen; decide

/-- A block with an enabled direct route of INTIDs 200 and 5,000, and a cistern route (C1) of INTID 300. -/
def routed : State :=
  { live with routes.entries := [(200, 0x40000000000#64), (300, 0x40000200400#64), (5000, 0x40000000000#64)] }
def anyRec : Rec := { payload := 0#32, intid := 0, reason := 0#6, tag := 0#8, rid := 0#16, source := none }
def fullQueue : State := { routed with pump.localQ := [(0, List.replicate 128 (2, anyRec))] }

theorem wit_PendSetFollowsTheRoute :
    (live.portOpen 0 ∧ (live.portEdge 0).coreAdmits 0 0 = true ∧ bits (63#32) 16 0 = 63 ∧
      bits (0x1FFFF#32) 16 0 = 131071 ∧ rtEnable ((live.portEdge 0).route 131071) = false) ∧
    (shared0.portOpen 0 ∧ (shared0.portEdge 0).coreAdmits 0 5 = true ∧ (shared0.portEdge 0).ownerAdmits 64 5 = false) ∧
    (routed.portOpen 0 ∧ rtEnable ((routed.portEdge 0).route 300) = true ∧ rtMode ((routed.portEdge 0).route 300) = true ∧
      (routed.portEdge 0).localRoom (rtCistern ((routed.portEdge 0).route 300)) = true ∧
      rtEnable ((routed.portEdge 0).route 200) = true ∧ rtMode ((routed.portEdge 0).route 200) = false ∧
      rtEnable ((routed.portEdge 0).route 5000) = true ∧ rtMode ((routed.portEdge 0).route 5000) = false ∧
      ((routed.portEdge 0).readPage 2 (reservoirPage 5000) 4 false cleanRead).1.usable = true ∧
      ((routed.portEdge 0).readPage 2 (reservoirPage 5000) 4 false { a := .uncorr, b := .uncorr }).1.usable = false) ∧
    (fullQueue.portOpen 0 ∧
      (fullQueue.portEdge 0).localRoom (rtCistern ((fullQueue.portEdge 0).route 300)) = false) := by
  unfold State.portOpen; decide

/-- A spillway of 16 records with 17 unconsumed once SPILL_CONSUMED is written to 0, and a group in a running hold. -/
def spilling : State := { live.setReg fPump 0x34 0x84000000#32 with pump.spill.total := 17#32 }
def holding : State :=
  (at_ 8 live).modGroup 1023 fun g => { g with weight := 16#8, holdFrom := 4, holdEnd := 72, interval := 1#16 }

theorem wit_PumpAndGroupRegistersActOnTheirUnits :
    (live.portOpen 0 ∧ (live.portEdge 0).globalAdmits fPump 0 true = true ∧ (live.portEdge 0).locked fPump (some 1) = false ∧
      ({ live with front.locks := [(fPump, 2#32)] } : State).locked fPump (some 1) = true ∧
      ((live.portEdge 0).setReg fPump 0x38 0#32).spillFill ≤ 2 ^ ((live.portEdge 0).setReg fPump 0x38 0#32).spillLog) ∧
    (spilling.portOpen 0 ∧ 2 ^ ((spilling.portEdge 0).setReg fPump 0x38 0#32).spillLog <
        ((spilling.portEdge 0).setReg fPump 0x38 0#32).spillFill ∧
      ((spilling.portEdge 0).setReg fPump 0x38 1#32).spillFill = 2 ^ 4) ∧
    (fGroup ((1023#10).toNat / 128) = fGroup 7 ∧ (live.portEdge 0).globalAdmits (fGroup 7) 0 true = true ∧
      (live.portEdge 0).locked (fGroup 7) (some 0) = false ∧
      ({ live with front.locks := [(fGroup 7, 3#32)] } : State).locked (fGroup 7) (some 0) = true ∧
      ({ live with front.locks := [(fGroup 7, 3#32)] } : State).locked (fGroup 7) (some 1) = true ∧
      ((live.portEdge 0).group 1023).heldAt 0 = false ∧ holding.portOpen 0 ∧
      ((holding.portEdge 0).group 1023).heldAt (holding.portEdge 0).clock.dp = true) := by
  unfold State.portOpen; decide

/-- A block whose port 15 has power and is enabled on both channels; full, its normal FIFO holds 64 doorbells and its
fast FIFO 8. -/
def bell : Doorbell where
  id := 0
  data := 200#64
  rid := 7#16
  np := false
  acc := 0
  accEdge := 0
  stamp := 0#64
  outside := false
  noCache := false
  fastClass := false
  verdict := 0
  decodedAt := 0
  owner := 0#6
  target := 0
  route := some { value := 0x40000000000#128, avail := 8, shadow := false, poison := false, err := false }
  rights := some { value := 0#128, avail := 8, shadow := false, poison := false, err := false }
  hit := true
  divert := none
def powered : State := (at_ 8 live).modPort 15 fun x => { x with pwrOk := true }
def fullPort : State :=
  powered.modPort 15 fun x => { x with normal := List.replicate 64 bell, fast := List.replicate 8 bell }

theorem wit_DoorbellsAreAcceptedIntoTheirFifo :
    (powered.elapse 0 = powered ∧ powered.running = true ∧ powered.readyN 15 = true ∧ powered.readyF 15 = true ∧
      (powered.port 15).normal.any (fun x => decide (x.acc = 8)) = false ∧
      (powered.port 15).fast.any (fun x => decide (x.acc = 8)) = false) ∧
    (fullPort.elapse 0 = fullPort ∧ fullPort.running = true ∧ fullPort.readyN 15 = false ∧ fullPort.readyF 15 = false ∧
      (fullPort.port 15).isMasked = false ∧ (fullPort.port 15).normal.any (fun x => decide (x.acc = 8)) = false) ∧
    (live.elapse 0 = live ∧ live.readyN 15 = false ∧ live.readyF 15 = false ∧ (live.port 15).isMasked = true) ∧
    (let s : State := { powered with startup.ready := false }
     s.elapse 0 = s ∧ s.startup.inReset = false ∧ s.readyN 15 = false ∧ s.frozen = false ∧ (s.port 15).isMasked = false) := by
  decide

/-- Port 15 with one doorbell at the head of its normal FIFO, or of its fast FIFO. -/
def head (d : Doorbell) : State := powered.modPort 15 fun x => { x with normal := [d] }
def fastHead (d : Doorbell) (q : List Rec) : State := powered.modPort 15 fun x => { x with fast := [d], faultQueue := q }
def busySpill : State :=
  (((head { bell with verdict := 1 }).setReg fPump 0x34 0x84000000#32).setReg fOut 0x808 0xFFFFF000#32).setReg fOut 0x810 5#32
    |>.setReg fOut 0x814 1#32
def busySpillNow : State := { busySpill with pump.spill.lastAppend := some 8 }

/-- The same doorbell for INTID 4,096, whose state stands in a reservoir page, and one already to be diverted. -/
def highBell : Doorbell := { bell with data := 4096#64 }
def gone : Doorbell := { bell with divert := some 5 }

theorem wit_DoorbellsTakeEffectByTheirVerdict :
    (live.elapse 0 = live ∧ live.running = true ∧ live.headReady 15 = none) ∧
    ((head bell).elapse 0 = head bell ∧ (head bell).headReady 15 = some bell ∧ bell.gate = 0 ∧ bell.cistern = none ∧
      dbIntid bell.data < 4096) ∧
    ((head { bell with verdict := 1 }).elapse 0 = head { bell with verdict := 1 } ∧
      (head { bell with verdict := 1 }).headReady 15 = some { bell with verdict := 1 } ∧
      ({ bell with verdict := 1 } : Doorbell).gate = 1 ∧
      ((head { bell with verdict := 1 }).spillTake (dbRecord 15 { bell with verdict := 1 } 1)).isSome = true ∧
      (((head { bell with verdict := 1 }).faultCounts 15 { bell with verdict := 1 } false 1 ({ bell with verdict := 1 } : Doorbell).attributed).spillTake
        (dbRecord 15 { bell with verdict := 1 } 1)).isSome = true) ∧
    ((head highBell).elapse 0 = head highBell ∧ (head highBell).headReady 15 = some highBell ∧ highBell.gate = 0 ∧
      highBell.cistern = none ∧ highBell.divert = none ∧ 4096 ≤ dbIntid highBell.data ∧
      ((head highBell).readPage 2 (reservoirPage 4096) 4 false cleanRead).1.usable = true ∧
      ((head highBell).readPage 2 (reservoirPage 4096) 4 false { a := .uncorr, b := .uncorr }).1.usable = false) ∧
    ((head gone).elapse 0 = head gone ∧ (head gone).headReady 15 = some gone ∧ gone.gate = 0 ∧ gone.divert = some 5) ∧
    (busySpillNow.elapse 0 = busySpillNow ∧ busySpillNow.headReady 15 = some { bell with verdict := 1 } ∧
      busySpillNow.spillTake (dbRecord 15 { bell with verdict := 1 } 1) = none) ∧
    ((fastHead bell []).elapse 0 = fastHead bell [] ∧ ((fastHead bell []).port 15).fast = [bell] ∧ 0 + 5 ≤ 8 ∧
      ((fastHead bell []).port 15).lastFast ≠ some 8 ∧
      (fastHead { bell with acc := 4 } []).clock.dp < 4 + 5 ∧
      (fastHead { bell with acc := 4 } []).elapse 0 = fastHead { bell with acc := 4 } [] ∧
      (fastHead { bell with acc := 3, verdict := 1 } (List.replicate 4 anyRec)).elapse 0 =
        fastHead { bell with acc := 3, verdict := 1 } (List.replicate 4 anyRec) ∧
      ((fastHead { bell with verdict := 1 } (List.replicate 3 anyRec)).port 15).faultQueue.length < 4) := by
  decide

/-- A cistern C1 in the descriptor cache, of 16 records, in the given state. -/
def ring (st : CState) : Cached where
  slot := 0
  st := st
  w0 := 0x21#64
  w1 := 0#64
  w2 := 0#64
  cross := 0#16
  total := 0#32
  consumed := 0#32
  dirty := false
  pinned := false
  buffer := []
  offered := false
  unacked := []
  due := []
  coal := 0
  coalAt := none
  headOut := false
  wanted := false
  asked := false
  fresh := none
  held := none
  granted := none
  closing := false
  syncing := false
  used := 0

/-- What an append answers: 0 waits, 1 missed, 2 diverted, 3 taken. -/
def outcome : Appended → Nat
  | .waits _ => 0
  | .missed _ => 1
  | .diverted _ _ => 2
  | .taken _ => 3

def cisternBell : Doorbell :=
  { bell with route := some { value := 0x40000200400#128, avail := 8, shadow := false, poison := false, err := false } }
def cisternHead (x : Option Cached) : State := (head cisternBell).setCached 1 x
def cisternBusy : State := { cisternHead (some (ring .opened)) with pump.lastAppend := [(1, some 8)] }
def cisternBehind : State := { cisternHead (some (ring .opened)) with pump.localQ := [(0, [(1, anyRec)])] }
def cisternHolds : State := cisternHead (some { ring .opened with held := some (dbRecord 15 cisternBell 0, 2) })

theorem wit_CisternHeadAppendsMissesOrDiverts :
    ((cisternHead none).elapse 0 = cisternHead none ∧ (cisternHead none).headReady 15 = some cisternBell ∧
      cisternBell.gate = 0 ∧ cisternBell.cistern = some 1 ∧ (cisternHead none).cached 1 = none ∧
      outcome ((cisternHead none).append 1 (dbRecord 15 cisternBell 0) (!(cisternHead none).missBefore 1) false) = 1) ∧
    ((cisternHead (some (ring .notOpen))).elapse 0 = cisternHead (some (ring .notOpen)) ∧
      (cisternHead (some (ring .notOpen))).headReady 15 = some cisternBell ∧
      (cisternHead (some (ring .notOpen))).lead.poison = [] ∧
      outcome ((cisternHead (some (ring .notOpen))).append 1 (dbRecord 15 cisternBell 0) true false) = 2) ∧
    ((cisternHead (some (ring .opened))).elapse 0 = cisternHead (some (ring .opened)) ∧
      (cisternHead (some (ring .opened))).missBefore 1 = false ∧
      outcome ((cisternHead (some (ring .opened))).append 1 (dbRecord 15 cisternBell 0) true false) = 3 ∧
      (cisternHead (some (ring .opened))).slotElsewhere 15 1 = false) ∧
    (cisternBusy.elapse 0 = cisternBusy ∧ cisternBusy.headReady 15 = some cisternBell ∧
      cisternBusy.localFirst 1 = false ∧
      outcome (cisternBusy.append 1 (dbRecord 15 cisternBell 0) true false) = 0) ∧
    (cisternBehind.elapse 0 = cisternBehind ∧ cisternBehind.headReady 15 = some cisternBell ∧
      cisternBehind.localFirst 1 = true ∧ cisternBehind.holds 1 (dbRecord 15 cisternBell 0) = false) ∧
    (cisternHolds.elapse 0 = cisternHolds ∧ cisternHolds.headReady 15 = some cisternBell ∧
      cisternHolds.holds 1 (dbRecord 15 cisternBell 0) = true ∧
      outcome (cisternHolds.append 1 (dbRecord 15 cisternBell 0) (!cisternHolds.missBefore 1) false) = 3) := by
  decide

/-- Port 15 with one non-posted doorbell to answer. -/
def awaits1 (code : Option (BitVec 2)) (discard : Bool) : State :=
  powered.modPort 15 fun x => { x with awaiting := [{ id := 0, acc := 0, pre := none, code := code, settledAt := 0, discard := discard }] }

theorem wit_ResponsesLeaveInOrder :
    ((awaits1 none false).elapse 0 = awaits1 none false ∧ (awaits1 none false).running = true) ∧
    ((awaits1 (some 1#2) false).elapse 0 = awaits1 (some 1#2) false ∧ ((awaits1 (some 1#2) false).port 15).respAt ≠ some 8) ∧
    ((awaits1 (some 2#2) true).elapse 0 = awaits1 (some 2#2) true ∧
      0 < (awaits1 (some 2#2) true).clock.edge ∧ ((awaits1 (some 2#2) true).port 15).awaiting =
        [{ id := 0, acc := 0, pre := none, code := some 2#2, settledAt := 0, discard := true }]) ∧
    (let s := (awaits1 (some 3#2) false).modPort 15 fun x => { x with respAt := some 8 }
     s.elapse 0 = s ∧ (s.port 15).respAt = some s.clock.edge) ∧
    (let s := (awaits1 (some 3#2) false).modPort 15 fun x => { x with awaiting := x.awaiting.map fun a => { a with settledAt := 8 } }
     s.elapse 0 = s ∧ (s.port 15).awaiting.map Awaiting.settledAt = [s.clock.edge]) := by
  decide

theorem wit_PortPowerAndCoreSleepMaskTheirSide :
    (powered.elapse 0 = powered ∧ powered.startup.inReset = false ∧ powered.frozen = false ∧ (powered.port 15).pwrOk = true ∧
      live.elapse 0 = live ∧ (live.port 15).pwrOk = false ∧ powered.depth ≤ 2 + 1 ∧ 0 + 1 < powered.depth ∧
      (let s := powered.modPort 15 fun x => { x with resp := 1#2, respAt := some 8 }
       s.elapse 0 = s ∧ (s.port 15).respAt = some s.clock.edge ∧ (s.port 15).resp ≠ 0#2) ∧
      (let s : State := { powered with twin.failover := some (failing none false 0) }
       s.elapse 0 = s ∧ s.frozen = true ∧ s.startup.inReset = false)) ∧
    ((live.core 255).asleep = false ∧
      (let s := live.modCore 255 fun c => { c with asleep := true }
       s.elapse 0 = s ∧ (s.core 255).asleep = true ∧ s.frozen = false)) := by
  decide

/-- Port 15 with a doorbell whose route lookup waits, a re-encode sequence that has held a bank for 64 edges, and a full
commit shadow. -/
def looking : State := head { bell with route := none, hit := false }
def overrun (g : Nat) : State :=
  let l : Lock := { memory := 0, bank := 3, owner := 1, grant := g, lasts := g + 200, unit := none, ended := false }
  at_ 64 { live with sluice.locks := [l] }
def command (op : Byte) (payload : List Byte) : Cmd where
  host := 0
  opcode := op
  flags := 0#8
  len := payload.length
  seq := 0#16
  top := 0#8
  payload := payload
  stagedAt := none
  presence := false
  factoryClean := false
  unreadable := false
def running (op : Byte) (ph : Phase) (payload : List Byte) : Run where
  cmd := command op payload
  phase := ph
  todo := []
  written := 0
  step := 0
  granted := none
  marked := false
  askedAt := none
  acc := []
/-- The keeper runs a command of H0. -/
def keeping (r : Run) : State := (at_ 8 { live with keeper.run := some r }).setBox 0 { Mailbox.reset with st := .running }
def items (op : Byte) (l : List (List Byte)) : Run := { running op .items [] with todo := l }
def shadowFull : State :=
  { keeping (items 0x20#8 [[]]) with
    gate.shadow := List.replicate 16 { rights := true, idx := 0, old := 0#128, edge := some 0 } }

theorem wit_BankGrantsShadowsAndLocks :
    (live.elapse 0 = live ∧ live.bankRequests true 15 = []) ∧
    (looking.elapse 0 = looking ∧ looking.running = true ∧
      ((List.range 16).any fun b => !looking.bankHeld false b &&
        (looking.bankRequests false b).any fun e =>
          decide (looking.arbWinner (bankArb false b) (sorted ((looking.bankRequests false b).map Prod.fst)) = some e.1)) = true ∧
      looking.wantsLook false { bell with route := none, hit := false } = true ∧
      (looking.port 15).normal[0]? = some { bell with route := none, hit := false } ∧
      rising 0 looking.ports = true ∧ rising 0 looking.sluice.grants = true ∧
      rising 0 looking.sluice.arbiters = true) ∧
    ((keeping (items 0x10#8 [[]])).elapse 0 = keeping (items 0x10#8 [[]]) ∧
      (keeping (items 0x10#8 [[]])).gate.shadow.length < 16 ∧ shadowFull.elapse 0 = shadowFull ∧
      16 ≤ shadowFull.gate.shadow.length) ∧
    ((overrun 0).elapse 0 = overrun 0 ∧ (overrun 1).elapse 0 = overrun 1 ∧
      (overrun 0).markedLock.map Lock.grant = some 0 ∧ 0 + 64 ≤ (overrun 0).clock.dp ∧
      (overrun 1).markedLock.map Lock.grant = some 1 ∧ (overrun 1).clock.dp < 1 + 64 ∧ live.markedLock = none) := by
  decide

/-- The keeper at its write edge (grant 5) and one edge before it (grant 6), with one ROUTE_WRITE or RIGHTS_WRITE item. -/
def routeItem : List Byte := leBytes 4 200 ++ leBytes 8 0x40000000000
def granted (op : Byte) (g : Nat) (i : List Byte) (h : Nat) : State :=
  let r := items op [i]
  keeping { r with granted := some g, marked := true, cmd := { r.cmd with host := h } }

theorem wit_ItemsWriteTheStores :
    ((granted 0x10#8 5 routeItem 0).elapse 0 = granted 0x10#8 5 routeItem 0 ∧ (granted 0x10#8 5 routeItem 0).running = true ∧
      ((granted 0x10#8 5 routeItem 0).runOf 0x10 .items).map Run.granted = some (some 5) ∧
      (granted 0x10#8 6 routeItem 0).elapse 0 = granted 0x10#8 6 routeItem 0 ∧
      ((granted 0x10#8 6 routeItem 0).runOf 0x10 .items).map Run.granted = some (some 6) ∧
      (granted 0x10#8 5 routeItem 0).lead.poison = [] ∧
      (granted 0x10#8 5 routeItem 0).epochBad 0 ((granted 0x10#8 5 routeItem 0).routes.rt.physical 25) = false) ∧
    ((granted 0x20#8 5 (leBytes 2 0xFFFF ++ leBytes 18 3) 5).elapse 0 = granted 0x20#8 5 (leBytes 2 0xFFFF ++ leBytes 18 3) 5 ∧
      ((granted 0x20#8 5 (leBytes 2 0xFFFF ++ leBytes 18 3) 5).runOf 0x20 .items).map (fun r => r.cmd.host) = some 5 ∧
      (granted 0x20#8 5 (leBytes 2 0xFFFF ++ leBytes 18 2) 0).elapse 0 = granted 0x20#8 5 (leBytes 2 0xFFFF ++ leBytes 18 2) 0 ∧
      ((granted 0x20#8 5 (leBytes 2 0xFFFF ++ leBytes 18 2) 0).runOf 0x20 .items).map (fun r => r.cmd.host) = some 0 ∧
      (granted 0x20#8 5 (leBytes 2 0xFFFF ++ leBytes 18 2) 0).epochBad 1
        ((granted 0x20#8 5 (leBytes 2 0xFFFF ++ leBytes 18 2) 0).routes.rg.physical 16383) = false) := by
  decide

/-- A store at a window's last edge, with a key ready, and at the write edge of a row. -/
def monitored (e : Nat) (h : Hash) : State := at_ e { live with routes.rt := h }
def hot : Hash := { Hash.reset with sat := [(15, 1250000)] }
def keyed : Hash := { Hash.reset with keyReady := true, asked := true }
def moving (row : Nat) (r : Bool) : Hash := { Hash.reset with migActive := true, migRow := row, reserved := r, tickAt := 5 }

theorem wit_MonitorsRekeyAndMigrateTheStores :
    ((monitored 1249999 hot).elapse 0 = monitored 1249999 hot ∧ (monitored 1249999 hot).running = true ∧
      (monitored 1250000 hot).elapse 0 = monitored 1250000 hot ∧ hotBank hot.sat = 15 ∧
      hot.windowAt + 1250000 ≤ (monitored 1250000 hot).clock.dp ∧ (monitored 2000000000 hot).spaced hot = true ∧
      (monitored 1250000 hot).spaced hot = false) ∧
    ((monitored 8 keyed).elapse 0 = monitored 8 keyed ∧ (monitored 8 keyed).keeperAlive = true ∧
      (monitored 8 hot).elapse 0 = monitored 8 hot ∧ hot.keyReady = false ∧
      (monitored 8 (moving 0 false)).elapse 0 = monitored 8 (moving 0 false) ∧ (moving 0 false).tickAt ≤ 8 ∧
      (moving 0 true).reserved = true) ∧
    ((monitored 8 (moving 1023 true)).elapse 0 = monitored 8 (moving 1023 true) ∧
      (monitored 8 (moving 1022 true)).elapse 0 = monitored 8 (moving 1022 true) ∧
      (monitored 8 (moving 1023 true)).hash false = moving 1023 true ∧
      writeEdge ((monitored 8 (moving 1023 true)).rowGrant false) ((monitored 8 (moving 1023 true)).readRow 0 1023 []).1 ≤ 8 ∧
      8 < writeEdge ((monitored 8 { moving 1022 true with tickAt := 6 }).rowGrant false)
        ((monitored 8 { moving 1022 true with tickAt := 6 }).readRow 0 1022 []).1) := by
  decide

/-- Core 0 with both classes unmasked and INTID 200 (normal, group 0) or private INTID 3 (fast) pending. -/
def ranked : State :=
  (((at_ 8 routed).modCore 0 fun c => { c with mask := 0xC#4, privEn := 8#64, privClass := 8#64 }).modGroup 0
    fun g => { g with weight := 16#8, credit := 256 }).setInt 200 { IntState.reset with pending := true }
def rankedFast : State := ranked.setInt (privKey 0 3) { IntState.reset with pending := true }

theorem wit_RoundsPresentTheirWinner :
    (live.elapse 0 = live ∧ live.roundDue 257 = false ∧
      roundWinner (live.targetPtr 256) (live.targetBids 256 live.clock.dp) = none ∧ live.fastPick 255 0 = none) ∧
    (ranked.elapse 0 = ranked ∧ ranked.running = true ∧ ranked.roundDue 0 = true ∧
      roundWinner (ranked.targetPtr 0) (ranked.targetBids 0 ranked.clock.dp) = some 0 ∧ ranked.pickFor 0 0 8 = some 200 ∧
      rising 0 ranked.cores = true ∧ rising 0 ranked.sluice.groups = true) ∧
    (rankedFast.elapse 0 = rankedFast ∧ rankedFast.levels.stbyOk = false ∧ rankedFast.fastOpen 0 = true ∧
      (rankedFast.core 0).presF = none ∧ (rankedFast.core 0).fromF ≤ 8 ∧ rankedFast.fastPick 0 8 = some (privKey 0 3)) := by
  decide

/-- A block whose target window ends at edge 8 with an idle group of weight 16, or of weight 0. -/
def windowAt8 : State := { (at_ 8 live).modGroup 5 (fun g => { g with weight := 16#8, credit := 1 }) with sluice.targetWindow := 8 }
def windowAt9 : State := { windowAt8 with sluice.targetWindow := 9 }

theorem wit_WindowsRefillAndHoldsEnd :
    (windowAt8.elapse 0 = windowAt8 ∧ windowAt8.running = true ∧ windowAt8.windowEnd .target ≤ windowAt8.clock.dp ∧
      rising 0 windowAt8.sluice.groups = true ∧ keys windowAt8.sluice.groups = [5] ∧
      windowAt8.sampled.eligibleSomewhere 5 8 = false ∧ (windowAt8.sampled.group 5).weight.toNat = 16 ∧ (windowAt8.group 5).used = false ∧ (windowAt8.group 5).weight ≠ 0#8) ∧
    (windowAt9.elapse 0 = windowAt9 ∧ windowAt9.clock.dp < windowAt9.windowEnd .target) ∧
    (holding.elapse 0 = holding ∧ holding.clock.dp < (holding.group 1023).holdEnd ∧
      (let s := at_ 72 holding
       s.elapse 0 = s ∧ (s.group 1023).holdEnd ≤ s.clock.dp)) := by
  decide
/-! ### Witnesses: levels, cisterns and the outbound port -/

/-- A block at an edge with one wire's record, or one pair's with the pair in service. -/
def wired (e i : Nat) (w : Wire) : State := (at_ e live).setWire i w
def rising1 (t : Nat) : Wire := { Wire.reset with syn := [(t, true)] }
/-- A level that stood for the filter length and changes back at edge 9; and a block before READY. -/
def pulsed : Wire := { Wire.reset with syn := [(9, false), (1, true)] }
def sampling : State := { live with startup.ready := false }
def asserted1 : Wire := { syn := [(0, true)], fil := [(0, true)] }
def paired1 (e n : Nat) (p : Pair) : State :=
  (at_ e { live with routes.vault := [(64 + n, 0x40000000000#64)] }).setPair n p

theorem wit_LevelWiresAreCapturedAndFiltered :
    ((live.elapse 0).assertedAt 0 false = lineNewest (live.wire 0).syn ∧ live.assertedAt 71 false ≠ lineNewest (live.wire 71).syn ∧
      (live.wire 71).syn.head? = none ∧ live.elapse 0 = live ∧
      (wired 8 0 (rising1 7)).elapse 0 = wired 8 0 (rising1 7) ∧ (wired 8 0 (rising1 7)).assertedAt 0 false ≠ true ∧
      true ≠ (rising1 7).settled ((wired 8 0 (rising1 7)).filterOf 0) ∧
      8 + (wired 8 0 (rising1 7)).depth - 1 < 7 + (wired 8 0 (rising1 7)).filterOf 0 ∧
      (wired 9 0 (rising1 3)).elapse 0 = wired 9 0 (rising1 3) ∧
      3 + (wired 9 0 (rising1 3)).filterOf 0 = 9 + (wired 9 0 (rising1 3)).depth - 1 ∧
      sampling.elapse 0 = sampling ∧ sampling.startup.ready = false) ∧
    ((wired 8 71 (rising1 1)).elapse 0 = wired 8 71 (rising1 1) ∧ (wired 8 71 (rising1 1)).startup.ready = true ∧
      (rising1 1).shown 8 = true ∧ lineStart (rising1 1).syn 8 + (wired 8 71 (rising1 1)).filterOf 71 = 8 + 1 ∧
      (wired 8 55 (rising1 1)).elapse 0 = wired 8 55 (rising1 1) ∧ 1 + (wired 8 55 (rising1 1)).filterOf 55 = 8 + 1 ∧
      (wired 8 55 (rising1 2)).elapse 0 = wired 8 55 (rising1 2) ∧ 8 + 1 < 2 + (wired 8 55 (rising1 2)).filterOf 55 ∧
      (wired 8 55 asserted1).elapse 0 = wired 8 55 asserted1 ∧ asserted1.shown 8 = lineNewest asserted1.fil) ∧
    ((wired 8 55 pulsed).elapse 0 = wired 8 55 pulsed ∧ pulsed.shown 8 = true ∧
      lineStart pulsed.syn 8 + (wired 8 55 pulsed).filterOf 55 = 8 + 1) := by
  decide

/-- Line 55 asserted since edge 0 on a cistern route (C1), served at edge 3 or not; and pair 7 disagreeing since edge 0. -/
def lineRing : State := (wired 3 55 asserted1).setRoute 127 0x40000200400#64
def lineServed : State := { at_ 4 lineRing with levels.levelSetAt := [(55, some 3)] }
def disagree (e : Nat) : State :=
  (paired1 e 7 { Pair.reset with since := some 0 }).setWire (wireA 7) asserted1
def agrees (e : Nat) : State := (disagree e).setWire (wireB 7) asserted1

theorem wit_LevelsAndDiscrepanciesSet :
    ((at_ 3 live).elapse 0 = at_ 3 live ∧ (at_ 3 live).lineUp 55 (3 - 3) = false ∧
      (wired 3 55 asserted1).elapse 0 = wired 3 55 asserted1 ∧ (wired 3 55 asserted1).lineUp 55 (3 - 3) = true ∧
      look none (wired 3 55 asserted1).levels.levelSetAt 55 = none ∧ (wired 3 55 asserted1).sampled.mirrorCistern (72 + 55) = none ∧
      lineRing.elapse 0 = lineRing ∧ lineRing.lineUp 55 0 = true ∧ lineRing.sampled.mirrorCistern (72 + 55) = some 1 ∧
      lineServed.elapse 0 = lineServed ∧ lineServed.lineUp 55 (4 - 3) = true ∧ lineServed.sampled.mirrorCistern (72 + 55) = some 1 ∧
      lineStart (lineServed.wire 55).fil (4 - 3) + 3 ≤ 3) ∧
    (((disagree 1249).elapse 0).pairsNow = disagree 1249 ∧ (disagree 1249).inService 7 = true ∧
      (disagree 1249).discLimit = 1249 - 0 + 1 ∧ (disagree 1249).pairA 7 ≠ (disagree 1249).pairB 7 ∧
      ((disagree 1248).elapse 0).pairsNow = disagree 1248 ∧ 1248 - 0 + 1 < (disagree 1248).discLimit ∧
      ((agrees 1249).elapse 0).pairsNow = agrees 1249 ∧ (agrees 1249).pairA 7 = (agrees 1249).pairB 7) := by
  decide

/-- Pair 7 asserted since an edge, at edge 8. -/
def vault (t : Nat) : State := paired1 8 7 { Pair.reset with pl := [(t, true)] }
def vaultIdle : State := paired1 8 7 Pair.reset
def vaultDone : State := paired1 8 7 { Pair.reset with pl := [(0, true)], setAt := some 8 }
def swept : State := { vault 5 with levels.sweepAt := some 5 }

theorem wit_VaultAssertionsSetAndSweep :
    ((live.elapse 0).pairsNow = live ∧ live.sampled.inService 7 = false ∧ ((vault 5).elapse 0).pairsNow = vault 5 ∧
      (vault 5).sampled.inService 7 = true ∧ ((vault 5).pair 7).pAtEdge 8 = true ∧ ((vault 5).pair 7).pAtEdge (8 - 3) = true ∧
      ((vault 8).elapse 0).pairsNow = vault 8 ∧ ((vault 8).pair 7).pAtEdge 8 = true ∧
      ((vault 6).elapse 0).pairsNow = vault 6 ∧ ((vault 6).pair 7).pAtEdge (8 - 3) = false ∧
      (vaultIdle.elapse 0).pairsNow = vaultIdle ∧ (vaultIdle.pair 7).pAtEdge 8 = false ∧ vaultIdle.sampled.inService 7 = true ∧
      (vaultDone.elapse 0).pairsNow = vaultDone ∧ (vaultDone.pair 7).setAt = some vaultDone.clock.edge) ∧
    (live.sweeping = false ∧ (vault 5).sweeping = true ∧ (vault 5).levels.sweepAt = none ∧ ((vault 5).pair 7).p = true ∧
      (swept.elapse 0).pairsNow = swept ∧ swept.sweeping = true ∧
      (∀ n, n < 8 → swept.sampled.inService n = true → (swept.pair n).p = true → (swept.pair n).pAt ≤ 5)) := by
  decide

/-- Pair 7 in service with its latch Z_7 set and not seen; and a block in standby, in reset. -/
def latched (p : Bool) : State :=
  { paired1 8 7 { Pair.reset with pl := [(0, p)] } with levels.islandA := { Island.reset with z := 0x80#8 } }
def asleep : State :=
  { State.reset with
    levels.islandA := { Island.reset with standby := true, lvEn := 1#56, wakeMask := 1#56 }
    levels.islandB := { Island.reset with standby := true } }

theorem wit_StandbyLatchesHoldTheirSources :
    (live.zeroize = false ∧ (latched true).elapse 0 = latched true ∧ (latched true).startup.ready = true ∧
      (latched true).inService 7 = true ∧ ((latched true).pair 7).seen = false ∧ (latched true).zLatched 7 = true ∧
      (latched true).depth ≤ 6 ∧ 0 < (latched true).depth ∧ ((latched true).pair 7).p = true ∧
      (latched false).elapse 0 = latched false ∧ ((latched false).pair 7).p = false ∧ live.inService 7 = false) ∧
    ((asleep.elapse 0).levels.islandA.standby = true ∧ (asleep.elapse 0).levels.islandB.standby = true ∧
      (live.elapse 0).levels.islandA.standby = false ∧ (live.elapse 0).levels.islandB.standby = false) := by
  decide

/-- Tag 511 names an access that was taken at edge 0, with cistern C1 cached; all memory permitted to every host. -/
def pendingAccess (k : OutKind) : OutAccess where
  req := { kind := k, addr := 0, host := 0, line := false, bytes := [] }
  tag := 511
  takenAt := some 0
  timedOut := false
def fetching (k : OutKind) (x : Cached) : State :=
  State.setCached { at_ 8 live with pump.issued := [pendingAccess k] } 1 (some x)
def allMemory (s : State) : State :=
  ((((s.setReg fOut 0x808 0xFFFFF000#32).setReg fOut 0x80C 0xFFFF#32).setReg fOut 0x810 5#32).setReg fOut 0x814 0xFFFFFFFF#32).setReg
    fOut 0x818 0xFFFFFFFF#32
def awaited (s : State) (k : OutKind) : Bool :=
  decide (s.elapse 0 = s) && !s.startup.inReset && !s.frozen && decide (s.access 511 = some (pendingAccess k)) &&
    (s.cached 1).isSome

theorem wit_FetchStepsOpenOrBreakTheCistern :
    (awaited (fetching (.level1 1) (ring .level1)) (.level1 1) = true ∧ level1Idle 0#64 = true ∧ level1Idle 1#64 = false) ∧
    (awaited (fetching (.descriptor 1) (ring .descriptor)) (.descriptor 1) = true ∧ dscValid 0x20#64 = false ∧
      dscValid 0x21#64 = true ∧ descriptorBad 0x19#64 0#64 160#64 0#64 = true ∧ descriptorBad 0x21#64 0#64 159#64 0#64 = true ∧
      descriptorBad 0x21#64 0#64 160#64 0#64 = false ∧
      (fetching (.descriptor 1) (ring .descriptor)).descriptorPermitted 0x21#64 0#64 160#64 = false ∧
      awaited (allMemory (fetching (.descriptor 1) (ring .descriptor))) (.descriptor 1) = true ∧
      (allMemory (fetching (.descriptor 1) (ring .descriptor))).descriptorPermitted 0x21#64 0#64 160#64 = true) ∧
    (awaited (fetching (.control 1) (ring .control)) (.control 1) = true ∧
      bits (0x1000000000000#64) 63 48 ≠ (fetching (.control 1) (ring .control)).pump.bootId.toNat ∧
      bits (0x0000FFFFFFFFFFFF#64) 63 48 = (fetching (.control 1) (ring .control)).pump.bootId.toNat) ∧
    (awaited (fetching (.head 1) (ring .opened)) (.head 1) = true ∧
      awaited (fetching (.producer 1 0#64) (ring .opened)) (.producer 1 0#64) = true ∧
      awaited (fetching (.line 1 []) (ring .opened)) (.line 1 []) = true) := by
  decide

/-- An open ring of 16 records: full by 17, wanting a further refresh; at its float mark; holding a record since edge 0;
coalescing since edge 0. -/
def overfull : Cached := { ring .opened with total := 17#32, headOut := true }
def overWanted : Cached := { overfull with wanted := true }
def floating : Cached := { ring .opened with total := 1#32, w2 := 0x400000000000#64 }
def heldRec : Rec := { anyRec with source := some (15, 0) }
def holdsOne : Cached := { ring .opened with held := some (heldRec, 0) }
def holdsFull : Cached := { holdsOne with total := 16#32 }
def coalesces : Cached := { ring .opened with total := 1#32, coal := 1, coalAt := some 0, w2 := 0x40000000#64 }
def ringAt (e : Nat) (x : Cached) : State := (at_ e powered).setCached 1 (some x)
def ringHead (e : Nat) (x : Cached) : State :=
  (ringAt e x).modPort 15 fun y => { y with normal := [cisternBell] }

theorem wit_HeadReadsAndPumpTimers :
    (awaited (fetching (.head 1) (ring .opened)) (.head 1) = true ∧ (ring .opened).wanted = false ∧
      (ring .opened).headOut = false ∧ awaited (fetching (.head 1) overfull) (.head 1) = true ∧ overfull.wanted = false ∧
      awaited (fetching (.head 1) overWanted) (.head 1) = true ∧ overWanted.headOut = true ∧
      overWanted.size < (overWanted.total - loWord 0#64).toNat ∧
      ({ overWanted with consumed := overWanted.total - 16#32 } : Cached).size ≤
        ({ overWanted with consumed := overWanted.total - 16#32 } : Cached).fill) ∧
    ((ringAt 4096 floating).elapse 0 = ringAt 4096 floating ∧ (ringAt 4096 floating).running = true ∧ floating.floatUp = true ∧
      (ringAt 4096 floating).clock.edge % (256 * atLeast1 (bits ((ringAt 4096 floating).reg fPump 0x20) 15 8)) = 0 ∧
      (ring .opened).floatUp = false ∧ (ringAt 8 (ring .opened)).elapse 0 = ringAt 8 (ring .opened)) ∧
    ((ringAt 256 holdsOne).elapse 0 = ringAt 256 holdsOne ∧ (256 - 0) % 256 = 0 ∧
      (ringAt 255 holdsOne).elapse 0 = ringAt 255 holdsOne ∧ (ringAt 8191 holdsOne).elapse 0 = ringAt 8191 holdsOne ∧ holdsOne.fill < holdsOne.size ∧
      (ringAt 8191 holdsOne).clock.dp < 0 + 256 * atLeast1 (bits ((ringAt 8191 holdsOne).reg fPump 0x20) 7 0) ∧
      (ringHead 8192 holdsFull).elapse 0 = ringHead 8192 holdsFull ∧
      0 + 256 * atLeast1 (bits ((ringHead 8192 holdsFull).reg fPump 0x20) 7 0) ≤ (ringHead 8192 holdsFull).clock.dp ∧
      ((ringHead 8192 holdsFull).port 15).normal.any (fun d => decide (d.id = 0)) = true ∧ holdsFull.size ≤ holdsFull.fill) ∧
    ((ringAt 64 coalesces).elapse 0 = ringAt 64 coalesces ∧ dscCoalTime coalesces.w2 = 1 ∧
      (ringAt 63 coalesces).elapse 0 = ringAt 63 coalesces ∧ coalesces.st = .opened) := by
  decide

/-- One record at the head of slice 0's local queue, or of its miss queue, with C1 cached. -/
def queued (x : Cached) : State := ((at_ 8 live).setCached 1 (some x)).setLocalQ 0 [(1, anyRec)]
def missed (x : Cached) : State := ((at_ 8 live).setCached 1 (some x)).setMissQ 0 [(1, anyRec)]
def queuedAlone : State := (at_ 8 live).setLocalQ 0 [(1, anyRec)]
def leaving : Rec := anyRec.as 0x10
def queuedOf (r : Rec) (s : State) : State := (at_ 8 s).setLocalQ 0 [(1, r)]
def notOpenBusy : State := ((at_ 8 busySpillNow).setCached 1 (some (ring .notOpen))).setLocalQ 0 [(1, anyRec)]
def missedLeaves : State := ((at_ 8 live).setCached 1 (some (ring .opened))).setMissQ 0 [(1, leaving)]
def busyNow (s : State) : State := { s with pump.lastAppend := [(1, some 8)] }
def fullRing : Cached := { ring .opened with total := 16#32, fresh := some 16#32 }
def inside1 (s : State) : State := { s with pump.spill.inside := [anyRec] }

theorem wit_RecordsAreAppendedInOrder :
    ((queued (ring .opened)).elapse 0 = queued (ring .opened) ∧ (queued (ring .opened)).localQ 0 = [(1, anyRec)] ∧
      look none (queued (ring .opened)).pump.lastLocal 0 ≠ some (queued (ring .opened)).clock.dp ∧
      outcome ((queued (ring .opened)).append 1 anyRec true false) = 3 ∧
      (queued (ring .notOpen)).elapse 0 = queued (ring .notOpen) ∧
      outcome ((queued (ring .notOpen)).append 1 anyRec true false) = 2 ∧
      (busyNow (queued (ring .opened))).elapse 0 = busyNow (queued (ring .opened)) ∧
      outcome ((busyNow (queued (ring .opened))).append 1 anyRec true false) = 0 ∧
      queuedAlone.elapse 0 = queuedAlone ∧ outcome (queuedAlone.append 1 anyRec true false) = 1 ∧ anyRec.leaves = false) ∧
    (leaving.leaves = true ∧ (queuedOf leaving live).elapse 0 = queuedOf leaving live ∧
      ((queuedOf leaving live).spillTake leaving).isSome = true ∧
      (queuedOf leaving busySpillNow).elapse 0 = queuedOf leaving busySpillNow ∧
      (queuedOf leaving busySpillNow).spillTake leaving = none ∧
      (notOpenBusy.elapse 0 = notOpenBusy ∧ outcome (notOpenBusy.append 1 anyRec true false) = 2 ∧
        (notOpenBusy.unhold 1).spillTake (anyRec.as 0x10) = none) ∧
      (missedLeaves.elapse 0 = missedLeaves ∧ missedLeaves.missIdle 1 = true ∧ (missedLeaves.spillTake leaving).isSome = true)) ∧
    ((missed (ring .opened)).elapse 0 = missed (ring .opened) ∧ (missed (ring .opened)).missQ 0 = [(1, anyRec)] ∧
      (missed (ring .opened)).missIdle 1 = true ∧ (missed fullRing).missIdle 1 = true ∧
      outcome ((missed (ring .opened)).append 1 anyRec true true) = 3 ∧ (missed fullRing).elapse 0 = missed fullRing ∧
      outcome ((missed fullRing).append 1 anyRec true true) = 2 ∧
      (busyNow (missed (ring .opened))).elapse 0 = busyNow (missed (ring .opened)) ∧
      outcome ((busyNow (missed (ring .opened))).append 1 anyRec true true) = 0) ∧
    ((fastHead bell [anyRec]).elapse 0 = fastHead bell [anyRec] ∧ ((fastHead bell [anyRec]).port 15).faultQueue = [anyRec] ∧
      ((fastHead bell [anyRec]).spillTake anyRec).isSome = true ∧ busySpillNow.spillTake anyRec = none ∧
      (inside1 live).elapse 0 = inside1 live ∧ live.spillDrops = true ∧
      (inside1 busySpillNow).elapse 0 = inside1 busySpillNow ∧ busySpillNow.spillDrops = false ∧ busySpillNow.spillReady = false ∧
      (inside1 busySpill).elapse 0 = inside1 busySpill ∧ busySpill.spillDrops = false ∧ busySpill.spillReady = true ∧
      anyRec.reason.toNat < 0x10) := by
  decide

/-- An IMAGE_RESTORE that has asked for its first header. -/
def imaging : State :=
  let r := running 0x51#8 .waiting (leBytes 24 0)
  { keeping r with
    startup.image := some { Image.start true with asked := true }
    pump.issued := [pendingAccess (.image false 0)] }

/-- An IMAGE_SAVE whose tag, the last 16 bytes of a slot of 80, has been asked for. -/
def sealing : State :=
  let header : List Byte := List.replicate 8 0#8 ++ leBytes 4 80 ++ List.replicate 52 0#8
  { keeping (running 0x50#8 .waiting (leBytes 24 0)) with
    startup.image := some { Image.start false with asked := true, step := .seal, header := header, offset := 64 }
    pump.issued := [pendingAccess (.image true 64)] }
/-- A written line of C1 that holds one record of port 15's doorbell 0, not settled yet. -/
def lineItem : Buffered := { index := 0, time := 0, appended := 0, item := heldRec }
def lineOut : State :=
  (fetching (.line 1 [lineItem]) { ring .opened with unacked := [(0, 0)] }).modPort 15 fun x =>
    { x with unsettled := [{ id := 0, rid := 0#16, acc := 0, fast := false, olds := [] }] }

theorem wit_AcknowledgedAccessesEnd :
    (awaited (fetching (.line 1 []) (ring .opened)) (.line 1 []) = true ∧
      awaited (fetching (.producer 1 0#64) (ring .opened)) (.producer 1 0#64) = true ∧
      awaited (fetching (.spill []) (ring .opened)) (.spill []) = true ∧
      awaited lineOut (.line 1 [lineItem]) = true ∧ rising 0 lineOut.ports = true ∧ rising 0 lineOut.pump.cache = true ∧
      (lineOut.cached 1).map Cached.unacked = some [(0, 0)] ∧ lineItem.item.source = some (15, 0) ∧
      (lineOut.port 15).unsettled.map Unsettled.id = [0]) ∧
    (awaited (fetching (.image false 0) (ring .opened)) (.image false 0) = true ∧ live.startup.image = none ∧
      imaging.elapse 0 = imaging ∧ imaging.access 511 = some (pendingAccess (.image false 0)) ∧
      ((imaging.freeTag 511).imageRun.map fun x => (x.2.asked, x.2.step, x.2.heads)) = some (true, .headers, []) ∧
      (imaging.freeTag 511).imageOut = false ∧ (List.replicate 64 0#8).length = 64 ∧
      sealing.elapse 0 = sealing ∧ sealing.access 511 = some (pendingAccess (.image true 64)) ∧
      ((sealing.freeTag 511).imageRun.map fun x => (x.2.asked, x.2.step, x.2.restore)) = some (true, .seal, false) ∧
      ((sealing.freeTag 511).imageRun.map fun x => decide (hdLen x.2.header ≤ x.2.offset + ((sealing.freeTag 511).sealPiece x.2).length)) =
        some true) := by
  decide

/-- One request waiting for the outbound port; a beat on its channel; an access unanswered since edge 0. -/
def asking (s : State) : State := { s with pump.tier1 := [unitRead (.level1 1) 0 0] }
def onChannel : State :=
  { live with pump.beat := some 511, pump.issued := [{ pendingAccess (.level1 1) with takenAt := none }] }
/-- A rewrite of a failover, that the channel can carry, or that waits behind a line's second beat while a read is asked for. -/
def rewriting : State := { asking (allMemory live) with pump.rewrites := [unitRead (.line 1 []) 0 0] }
def rewriteBlocked : State := { rewriting with pump.second := some 3, pump.beatAt := some 0 }
def beaten : State := { live with pump.beatAt := some 0 }
def unanswered (e : Nat) (late : Bool) : State :=
  { at_ e live with pump.issued := [{ pendingAccess (.level1 1) with timedOut := late }] }
def frozenNow : State :=
  { live with twin.failover := some (failing none false 0) }

theorem wit_OutboundAccessesAreGrantedAndTimed :
    ((asking live).elapse 0 = asking live ∧ (asking live).noteChange = asking live ∧
      rewriting.elapse 0 = rewriting ∧ rewriting.noteChange = rewriting ∧ rewriting.canIssue false = true ∧
      rewriteBlocked.elapse 0 = rewriteBlocked ∧ rewriteBlocked.canIssue false = false ∧
      rewriteBlocked.pump.tier1.find? (fun q => rewriteBlocked.canIssue q.kind.isRead) = some (unitRead (.level1 1) 0 0) ∧ (asking live).running = true ∧ (asking live).pump.rewrites = [] ∧
      (asking live).pump.tier1.find? (fun q => (asking live).canIssue q.kind.isRead) = some (unitRead (.level1 1) 0 0) ∧
      (asking live).reqPermitted (unitRead (.level1 1) 0 0) = false ∧
      (asking (allMemory live)).elapse 0 = asking (allMemory live) ∧
      (asking (allMemory live)).reqPermitted (unitRead (.level1 1) 0 0) = true ∧
      onChannel.elapse 0 = onChannel ∧ onChannel.pump.beat = some 511 ∧ (onChannel.access 511).isSome = true ∧
      onChannel.pump.beatAt ≠ some onChannel.clock.dp ∧ live.pump.beat = none ∧ live.pump.beatAt ≠ some live.clock.dp ∧
      beaten.elapse 0 = beaten ∧ beaten.pump.beatAt = some beaten.clock.dp) ∧
    ((unanswered 65536 false).elapse 0 = unanswered 65536 false ∧ 0 + 65536 ≤ (unanswered 65536 false).clock.dp ∧
      (unanswered 65535 false).elapse 0 = unanswered 65535 false ∧ (unanswered 65535 false).clock.dp < 0 + 65536 ∧
      (unanswered 65537 true).elapse 0 = unanswered 65537 true ∧
      ((unanswered 65537 true).access 511).map OutAccess.timedOut = some true ∧ live.access 0 = none ∧
      frozenNow.elapse 0 = frozenNow ∧ frozenNow.frozen = true ∧ frozenNow.startup.inReset = false) := by
  decide
/-! ### Witnesses: the keeper -/

/-- The keeper has taken a command of H0 and not begun it; `isFresh` and `inPhase` say that its row acts now. -/
def fresh (op : Byte) (p : List Byte) : State := keeping (running op .fresh p)
def isFresh (op : Nat) (s : State) : Bool := still s && (s.runOf op .fresh).isSome
def inPhase (op : Nat) (ph : Phase) (s : State) : Bool := still s && (s.runOf op ph).isSome
def field1 (n : Nat) : List Byte := leBytes 4 n
def list1 (i : List Byte) : List Byte := leBytes 4 1 ++ i

/-- Mailbox 63 queued with a command, at edge `e`. -/
def mailed (e : Nat) (c : Cmd) : State :=
  (at_ e { live with keeper.submitted := [(63, some { c with host := 63 })] }).setBox 63 { Mailbox.reset with st := .queued }
def roundTaken (s : State) : State :=
  let v := s.arbCharge 51 63 [63] [63]
  State.setBox { v with keeper.submitted := ins none v.keeper.submitted 63 none } 63 { v.box 63 with st := .running }
def roundReady (s : State) (c : Cmd) : Bool :=
  still s && s.keeperGoes && decide (s.queuedBoxes = [63]) && decide (s.keeper.run = none) && decide (s.clock.edge % 2 = 0) &&
    decide (s.engineReady = none) &&
    decide (s.arbWinner 51 [63] = some 63) &&
    decide (look none (s.arbCharge 51 63 [63] [63]).keeper.submitted 63 = some { c with host := 63 })
/-- The same block while an engine operation that has run its time waits for its completion step. -/
def engineWaits (s : State) : State :=
  { s with keeper.engine := [{ run := running 0xF0#8 .engine [], entered := 0, started := some 0, lasts := 1, ended := false }] }
def isProceed : Checked → Bool
  | .proceed => true
  | .status _ _ => false
def isCounted : Checked → Bool
  | .proceed => false
  | .status _ refused => !refused

theorem wit_MailboxRoundTakesTheWinner :
    (roundReady (mailed 8 (command 0#8 [])) (command 0#8 []) = true ∧
      isProceed ((roundTaken (mailed 8 (command 0#8 []))).check { command 0#8 [] with host := 63 }) = true ∧
      roundReady (mailed 8 { command 0#8 [] with unreadable := true }) { command 0#8 [] with unreadable := true } = true ∧
      isCounted ((roundTaken (mailed 8 (command 0x10#8 (leBytes 4 0)))).check
        { command 0x10#8 (leBytes 4 0) with host := 63 }) = true) ∧
    (4088 < ({ command 0#8 [] with len := 4089 } : Cmd).len ∧ opInfo 0x05 = none ∧
      (opInfo 0x00).map OpInfo.flags = some 0 ∧ (0x80#8).toNat &&& (255 - 0) ≠ 0 ∧ (opInfo 0x03).map OpInfo.h0 = some true) ∧
    (live.elapse 0 = live ∧ live.queuedBoxes = [] ∧ live.arbWinner 51 [] = none ∧
      still (mailed 9 (command 0#8 [])) = true ∧ (mailed 9 (command 0#8 [])).clock.edge % 2 ≠ 0 ∧
      still (engineWaits (mailed 8 (command 0#8 []))) = true ∧ (engineWaits (mailed 8 (command 0#8 []))).engineReady ≠ none ∧
      still (fresh 0#8 []) = true ∧ opGroup 0 = none) := by
  decide

/-- A live token of H0 for a preempted SCRUB, as R304's worked example has it. -/
def token1 : Token where
  tokenId := 0x2A#16
  opcode := 0x41#8
  step := 456
  issued := 0
  run := running 0x41#8 .waiting []
def withToken (s : State) : State := s.setToken 0 (some token1)
def resuming (p : List Byte) : State :=
  let r := running 0x41#8 .fresh p
  keeping { r with cmd := { r.cmd with flags := 1#8 } }
def slow (n : Nat) (s : State) : State := at_ (n * 1000000 + 2) s

theorem wit_TokensResumeDropAndExpire :
    (still (withToken (resuming (tokenBytes token1 0))) = true ∧
      (withToken (resuming (tokenBytes token1 0))).keeperGoes = true ∧
      (withToken (resuming (tokenBytes token1 0))).keeper.run.map (fun r => (r.phase, r.cmd.resumes, r.cmd.slice 0 8)) =
        some (.fresh, true, tokenBytes token1 0) ∧
      still (resuming (tokenBytes token1 0)) = true ∧ (resuming (tokenBytes token1 0)).token 0 = none) ∧
    (isFresh 0x02 (withToken (fresh 0x02#8 (tokenBytes token1 0))) = true ∧
      isFresh 0x02 (withToken (fresh 0x02#8 (leBytes 8 0))) = true ∧ leBytes 8 0 ≠ tokenBytes token1 0) ∧
    ((withToken (fresh 0x02#8 (tokenBytes token1 0))).tokenNamed 0 (tokenBytes token1 0) = some token1 ∧
      (withToken (fresh 0x02#8 (leBytes 8 0))).tokenNamed 0 (leBytes 8 0) = none ∧
      (withToken (resuming (tokenBytes token1 0))).keeper.run.map (fun r => (r.cmd.opcode, r.cmd.host)) = some (token1.opcode, 0)) ∧
    (still (slow 1249 (withToken live)) = true ∧ (slow 1249 (withToken live)).slowRan token1.issued 1250 = true ∧
      still (slow 1248 (withToken live)) = true ∧ (slow 1248 (withToken live)).slowRan token1.issued 1250 = false) := by
  decide

/-- The keeper with a fast INTID of T256, a SCRUB between steps, and its watchdog's time over (edge 131,072) or not. -/
def interrupted : State :=
  (keeping (running 0x41#8 .waiting (leBytes 4 1))).modCore 256
    fun c => { c with presF := some { intid := 200, dup := false, loadAt := 0, group := 0 } }
def longRun (e : Nat) : State := at_ e (keeping (running 0#8 .fresh []))
def drawing (e : Nat) : State :=
  let r := { running 0x60#8 .random [] with askedAt := some 0 }
  { longRun e with keeper.run := some r, keeper.wordsAt := some 0 }
def restarting : State := { live with keeper.restarting := true }

theorem wit_ServicePointsAndKeeperTimers :
    (live.elapse 0 = live ∧ live.keeperAlive = true ∧ live.ramPoisoned = false ∧ live.seenF 256 = none ∧
      still interrupted = true ∧ interrupted.ramPoisoned = false ∧ interrupted.seenF 256 ≠ none ∧ interrupted.keeperAlive = true ∧
      ((((State.keeperTake { interrupted with keeper.serviceAt := 8 } false).keeperTake true).keeperComplete true).keeperComplete
        false).keeper.run.map (fun r => (opGroup r.cmd.opcode.toNat, r.cmd.resumes, r.phase, r.granted)) =
        some (some 1, false, .waiting, none)) ∧
    (still (longRun 131071) = true ∧ (longRun 131071).clock.dp < (longRun 131071).keeper.serviceAt + 131072 ∧
      still (longRun 131072) = true ∧ (longRun 131072).keeper.serviceAt + 131072 ≤ (longRun 131072).clock.dp ∧
      (longRun 131072).startup.image = none ∧ (longRun 131072).keeper.run.isSome = true) ∧
    (still (drawing 1250000) = true ∧ (drawing 1250000).keeper.run.map Run.askedAt = some (some 0) ∧
      still (drawing 1249999) = true ∧ (drawing 1249999).clock.dp < 0 + 1250000 ∧
      (drawing 1250000).twin.repair = none) ∧
    (restarting.elapse 0 = restarting ∧ restarting.startup.ready = true ∧ restarting.keeper.restarting = true ∧
      live.keeper.restarting = false) := by
  decide

theorem wit_CommandResultsAreWrittenToTheMailbox :
    isFresh 0x00 (fresh 0#8 []) = true ∧ rising 0 (fresh 0#8 []).keeper.boxes = true ∧
      bit ((fresh 0#8 []).reg fKeeper (0x800 + 4 * 0)) 31 = false := by
  decide

/-- A staged removal of officer slot 7, and a part whose identity words, or state words, have no majority. -/
def staged1 : Staged where
  stageId := 1#32
  kind := 3#8
  body := leBytes 4 7
  nonce := leBytes 32 0
  windowEnd := 0xFFFFFFFF#32
  slotDigest := leBytes 32 0
  userEpoch := 0#8
  digest := leBytes 32 0
  approvals := []
def withStaged (s : State) : State := { s with keeper.staged := some staged1 }
def noMajority : List FuseCopy := [⟨0, 1⟩, ⟨2, 3⟩, ⟨4, 5⟩]
def marginal (s : State) : State := { s with fuses.shadow := [(fwLife, noMajority)] }
def poisonAt (store : Nat) (s : State) : State := { s with twin.wellA := { well with poison := [(pageKey store 0, true)] } }

/-- A CONFIG_DIGEST of a scope that has read some pages, and one that meets a poisoned page. -/
def digesting (scope n : Nat) : State := keeping { running 0x91#8 .items (field1 scope) with step := n }
def digestBad : State :=
  let s := digesting 3 0
  { s with twin.wellA := { well with poison := [(pageKey 0 ((s.hash false).physical digestFirst), true)] } }

theorem wit_ReportCommandsReturnTheirFields :
    (isFresh 0x00 (fresh 0#8 []) = true ∧ isFresh 0x01 (fresh 1#8 []) = true ∧ isFresh 0x40 (fresh 0x40#8 []) = true ∧
      isFresh 0xA0 (fresh 0xA0#8 []) = true ∧ isFresh 0x62 (fresh 0x62#8 []) = true ∧
      (fresh 0x62#8 []).keeper.staged = none ∧ isFresh 0x62 (withStaged (fresh 0x62#8 [])) = true ∧
      isFresh 0x71 (fresh 0x71#8 []) = true) ∧
    (isFresh 0x81 (fresh 0x81#8 []) = true ∧ (fresh 0x81#8 []).anyMarg = false ∧
      isFresh 0x81 (marginal (fresh 0x81#8 [])) = true ∧ (marginal (fresh 0x81#8 [])).anyMarg = true ∧
      isFresh 0x90 (fresh 0x90#8 []) = true) ∧
    (isFresh 0x91 (fresh 0x91#8 (field1 8)) = true ∧ isFresh 0x91 (fresh 0x91#8 (field1 15)) = true ∧
      (fresh 0x91#8 (field1 1)).poisonCount 0 = 0 ∧ (fresh 0x91#8 (field1 2)).poisonCount 1 = 0 ∧
      isFresh 0x91 (poisonAt 0 (fresh 0x91#8 (field1 1))) = true ∧
      0 < (poisonAt 0 (fresh 0x91#8 (field1 1))).poisonCount 0) ∧
    (live.front.snapAt ≠ some live.clock.edge ∧ isFresh 0x91 (fresh 0x91#8 (field1 4)) = true ∧
      isFresh 0x91 (fresh 0x91#8 (field1 12)) = true ∧ Nat.testBit (ofLe ((field1 3).take 1)) 1 = true) ∧
    (inPhase 0x91 .items (digesting 3 0) = true ∧ (digesting 3 0).digestNext.isSome = true ∧
      inPhase 0x91 .items (digesting 1 16384) = true ∧ (digesting 1 16384).digestAt = none ∧
      inPhase 0x91 .items (digesting 2 16384) = true ∧ (digesting 2 16384).digestAt = none ∧
      inPhase 0x91 .items (digesting 15 32768) = true ∧ (digesting 15 32768).digestAt = none ∧
      inPhase 0x91 .items digestBad = true ∧ digestBad.digestAt.isSome = true ∧ digestBad.digestNext = none) := by
  decide

def full16 (s : State) : State :=
  { s with gate.shadow := List.replicate 16 { rights := true, idx := 0, old := 0#128, edge := some 0 } }
def routeItem1 : List Byte := list1 routeItem
def badRoute : List Byte := list1 (leBytes 4 131072 ++ leBytes 8 0)
def rightsItem1 : List Byte := list1 (leBytes 2 5 ++ leBytes 2 1 ++ leBytes 16 0)
def badRights : List Byte := list1 (leBytes 2 5 ++ leBytes 2 1 ++ leBytes 16 0x10020001)
def checkOf (f : State → Cmd → Nat) (s : State) : Option Nat := s.keeper.run.map fun r => f s r.cmd

/-- A GROUP_WRITE at its last item, granted at an edge or not yet, at edge 8. -/
def grouping (g : Option Nat) : State :=
  at_ 8 (keeping { running 0x12#8 .items (list1 (leBytes 8 1023)) with todo := [leBytes 8 1023], granted := g })

theorem wit_TableCommandsCheckThenWriteTheirItems :
    (isFresh 0x10 (fresh 0x10#8 routeItem1) = true ∧ checkOf State.routeChecks (fresh 0x10#8 routeItem1) = some stOk ∧
      (command 0x10#8 routeItem1).items = 1 ∧ isFresh 0x10 (full16 (fresh 0x10#8 routeItem1)) = true ∧
      isFresh 0x10 (fresh 0x10#8 badRoute) = true ∧ checkOf State.routeChecks (fresh 0x10#8 badRoute) = some stRange) ∧
    (isFresh 0x20 (fresh 0x20#8 rightsItem1) = true ∧ checkOf State.rightsChecks (fresh 0x20#8 rightsItem1) = some stOk ∧
      isFresh 0x20 (fresh 0x20#8 badRights) = true ∧ checkOf State.rightsChecks (fresh 0x20#8 badRights) ≠ some stOk) ∧
    (isFresh 0x11 (fresh 0x11#8 (list1 (leBytes 4 4095))) = true ∧
      checkOf State.fastChecks (fresh 0x11#8 (list1 (leBytes 4 4095))) = some stOk ∧
      isFresh 0x11 (fresh 0x11#8 (list1 (leBytes 4 4096))) = true ∧
      checkOf State.fastChecks (fresh 0x11#8 (list1 (leBytes 4 4096))) = some stRange ∧
      (command 0x11#8 (list1 (leBytes 4 4095))).itemList 4 = [leBytes 4 4095]) ∧
    (isFresh 0x12 (fresh 0x12#8 (list1 (leBytes 8 1023))) = true ∧
      checkOf State.groupChecks (fresh 0x12#8 (list1 (leBytes 8 1023))) = some stOk ∧
      isFresh 0x12 (fresh 0x12#8 (list1 (leBytes 8 1024))) = true ∧
      checkOf State.groupChecks (fresh 0x12#8 (list1 (leBytes 8 1024))) = some stRange ∧
      (fresh 0x12#8 (list1 (leBytes 8 1023))).lead.poison = []) ∧
    (inPhase 0x12 .items (grouping none) = true ∧ inPhase 0x12 .items (grouping (some 6)) = true ∧ 8 < 6 + 3 ∧
      inPhase 0x12 .items (grouping (some 5)) = true ∧ 5 + 3 ≤ (grouping (some 5)).clock.dp ∧
      (grouping none).pagesSound ∧
      ((grouping none).keeper.run.map fun r => (r.todo, r.granted)) = some ([leBytes 8 1023], none)) := by
  decide

/-- Another mailbox's live token of a group; a pass whose last store is done. -/
def othersToken (op : Byte) (s : State) : State := s.setToken 9 (some { token1 with opcode := op })
def passing : State :=
  { keeping (running 0x41#8 .waiting (leBytes 4 8)) with
    integrity.pass := some { ScrubPass.start [3] with next := [(48, 256)] } }
def pairing (s : State) : State :=
  othersToken 0xA1#8 { s with twin.repair := some { phase := 1, key := [], repairId := 1#32, staged := 0, opened := 0, slots := 4, base := 0, refillAt := none, fwd := [], started := 0, strengths := [], flying := [], back := [] } }

theorem wit_RekeyScrubAndStrengthStart :
    (isFresh 0x13 (othersToken 0x13#8 (fresh 0x13#8 (field1 1))) = true ∧
      9 ∈ (othersToken 0x13#8 (fresh 0x13#8 (field1 1))).tokensOf 0 ∧ isFresh 0x13 (fresh 0x13#8 (field1 1)) = true ∧
      (fresh 0x13#8 (field1 1)).tokensOf 0 = [] ∧ (fresh 0x13#8 (field1 1)).spaced (fresh 0x13#8 []).routes.rt = false ∧
      isFresh 0x13 (slow 1250 (fresh 0x13#8 (field1 1))) = true ∧
      (slow 1250 (fresh 0x13#8 (field1 1))).spaced (fresh 0x13#8 []).routes.rt = true) ∧
    (isFresh 0x41 (othersToken 0x41#8 (fresh 0x41#8 (field1 127))) = true ∧
      9 ∈ (othersToken 0x41#8 (fresh 0x41#8 (field1 127))).tokensOf 1 ∧ isFresh 0x41 (fresh 0x41#8 (field1 127)) = true ∧
      (fresh 0x41#8 (field1 127)).reencodeHolds = false ∧ isFresh 0x41 (pairing (fresh 0x41#8 (field1 127))) = true ∧ inPhase 0x41 .waiting passing = true ∧
      passing.integrity.pass.any (fun p => passing.passDone p) = true) ∧
    (isFresh 0x42 (fresh 0x42#8 (leBytes 2 1 ++ leBytes 2 3)) = true ∧
      isFresh 0x42 (fresh 0x42#8 (leBytes 2 32 ++ leBytes 2 2)) = true ∧
      isFresh 0x42 (pairing (fresh 0x42#8 (leBytes 2 31 ++ leBytes 2 8))) = true ∧
      isFresh 0x42 (fresh 0x42#8 (leBytes 2 31 ++ leBytes 2 8)) = true ∧
      ((List.range 7).filter fun i => Nat.testBit 31 i && decide ((fresh 0x42#8 []).strengthOf i ≠ 8)) = [0, 1, 2, 3, 4]) := by
  decide

def cisternCmd (op : Byte) (c : Nat) (x : Cached) : State := (fresh op (list1 (leBytes 4 c))).setCached 1 (some x)
def syncing : State :=
  let r := running 0x32#8 .items (list1 (leBytes 4 1))
  keeping { r with todo := [leBytes 4 1] }

theorem wit_CisternCommandsFollowTheirItems :
    (isFresh 0x30 (cisternCmd 0x30#8 0 (ring .opened)) = true ∧ isFresh 0x31 (cisternCmd 0x31#8 32768 (ring .opened)) = true ∧
      isFresh 0x32 (cisternCmd 0x32#8 0 (ring .opened)) = true ∧ isFresh 0x33 (cisternCmd 0x33#8 32768 (ring .opened)) = true ∧
      (cisternCmd 0x31#8 0 (ring .opened)).runOf 0x31 .items = none) ∧
    (isFresh 0x30 (cisternCmd 0x30#8 1 (ring .opened)) = true ∧ isFresh 0x31 (cisternCmd 0x31#8 1 (ring .opened)) = true ∧
      isFresh 0x32 (cisternCmd 0x32#8 1 (ring .opened)) = true ∧ isFresh 0x33 (cisternCmd 0x33#8 1 (ring .opened)) = true ∧
      isFresh 0x33 (cisternCmd 0x33#8 1 { ring .opened with coal := 1, total := 1#32 }) = true ∧
      (command 0x30#8 (list1 (leBytes 4 1))).itemList 4 = [leBytes 4 1]) ∧
    (inPhase 0x32 .items syncing = true ∧ syncing.cached 1 = none) := by
  decide

def slots (a b n : Nat) : List Byte := leBytes 8 a ++ leBytes 8 b ++ leBytes 8 n

theorem wit_ImageCommandsCheckTheirSlots :
    (isFresh 0x51 (fresh 0x51#8 (slots 0 64 128)) = true ∧ (command 0x51#8 (slots 0 64 128)).badSlots = true ∧
      isFresh 0x50 (fresh 0x50#8 (slots 0 128 128)) = true ∧ (command 0x50#8 (slots 0 128 128)).badSlots = false ∧
      (fresh 0x50#8 (slots 0 128 128)).slotsOutside (command 0x50#8 (slots 0 128 128)) = true) ∧
    (isFresh 0x50 (allMemory (fresh 0x50#8 (slots 0 128 128))) = true ∧
      (allMemory (fresh 0x50#8 (slots 0 128 128))).slotsOutside (command 0x50#8 (slots 0 128 128)) = false ∧
      (command 0x50#8 (slots 0 128 128)).slotSize < saveLen ∧ isFresh 0x50 (pairing (allMemory (fresh 0x50#8 (slots 0 128 128)))) = true ∧
      isFresh 0x51 (allMemory (fresh 0x51#8 (slots 0 128 128))) = true ∧
      isFresh 0x50 (allMemory (fresh 0x50#8 (slots 0 0x1000000 0x1000000))) = true ∧
      saveLen ≤ (command 0x50#8 (slots 0 0x1000000 0x1000000)).slotSize) := by
  decide

def twoOfficers (s : State) : State := { s with keeper.officers := [(0, some ⟨p256gx, p256gy⟩), (7, some ⟨p256gx, p256gy⟩)] }
def stageDraw : State :=
  let r := running 0x60#8 .random (leBytes 4 4)
  { keeping r with keeper.words := [1#64, 2#64, 3#64, 4#64] }
def clocked (n : Nat) (s : State) : State := { s with clock.sclkCount := BitVec.ofNat 32 n }

theorem wit_StagedChangesAreRecordedCancelledAndExpired :
    (isFresh 0x60 (fresh 0x60#8 (leBytes 4 4)) = true ∧ (fresh 0x60#8 (leBytes 4 4)).anyMarg = false ∧
      (fresh 0x60#8 (leBytes 4 4)).officers < 2 ∧ checkOf State.stageChecks (fresh 0x60#8 (leBytes 4 0)) = some stRange ∧
      isFresh 0x60 (withStaged (fresh 0x60#8 (leBytes 4 4))) = true ∧
      isFresh 0x60 (twoOfficers (fresh 0x60#8 (leBytes 4 4))) = true ∧
      2 ≤ (twoOfficers (fresh 0x60#8 (leBytes 4 4))).officers ∧ (twoOfficers (fresh 0x60#8 (leBytes 4 4))).userEpoch < 64) ∧
    (inPhase 0x60 .random stageDraw = true ∧ stageDraw.keeper.words.take 4 = [1#64, 2#64, 3#64, 4#64]) ∧
    (isFresh 0x63 (withStaged (fresh 0x63#8 (leBytes 4 1))) = true ∧
      isFresh 0x63 (withStaged (fresh 0x63#8 (leBytes 4 2))) = true ∧ isFresh 0x63 (fresh 0x63#8 (leBytes 4 1)) = true) ∧
    (still (withStaged live) = true ∧ ((withStaged live).clock.sclkCount - staged1.windowEnd).toNat < 2147483648 ∧
      still (clocked 0xFFFFFFF0 (withStaged live)) = true ∧
      2147483648 ≤ ((clocked 0xFFFFFFF0 (withStaged live)).clock.sclkCount - staged1.windowEnd).toNat ∧
      ((withStaged live).sclkNow - staged1.windowEnd).toNat < 2147483648 ∧
      2147483648 ≤ ((clocked 0xFFFFFFF0 (withStaged live)).sclkNow - staged1.windowEnd).toNat) := by
  decide

/-- An approval of the change by officer 7, whose key is the base point; a digest of zero is signed by (x, x) of it. -/
def approval1 (r s : Nat) : Cmd := command 0x61#8 (leBytes 4 1 ++ [7#8, 0#8, 0#8, 0#8] ++ beBytes 32 r ++ beBytes 32 s)
def approving (c : Cmd) (t : Option Nat) (g : Staged) : State :=
  let r : Run := { running 0x61#8 .engine [] with cmd := c }
  twoOfficers { at_ 2097160 live with
    keeper.engine := [{ run := r, entered := 0, started := t, lasts := Config.verifyK, ended := false }]
    keeper.staged := some g }
def approveHead (c : Cmd) : Bool :=
  let s := approving c none staged1
  let v := s.setBox 0 { s.box 0 with st := .running }
  still s && s.keeperGoes && isProceed (v.check c) && decide (v.approveChecks c = stOk)

/-- Officer 7's verification is done at a step boundary within the window of the staged change. -/
def approvalDone (g : Staged) : Bool :=
  let s := clocked 0xFFFFFFF0 (approving (approval1 p256gx p256gx) (some 8) g)
  still s && s.keeperGoes && s.atBoundary && decide (8 + 2 * Config.verifyK ≤ s.clock.dp) && decide (s.keeper.staged = some g) &&
    decide (2147483648 ≤ (s.sclkNow - g.windowEnd).toNat) && decide (s.officer 7 = some ⟨p256gx, p256gy⟩)

theorem wit_ApprovalsVerifyThenCommit :
    (approveHead (approval1 1 1) = true ∧
      ((approving (command 0x61#8 (leBytes 72 2)) none staged1).approveChecks (command 0x61#8 (leBytes 72 2)) ≠ stOk)) ∧
    (still (approving (approval1 p256gx p256gx) (some 8) staged1) = true ∧
      8 + 2 * Config.verifyK ≤ (approving (approval1 p256gx p256gx) (some 8) staged1).clock.dp ∧
      2147483648 ≤ (0#32 - staged1.windowEnd).toNat + 2147483647 ∧
      still (clocked 1 (approving (approval1 0 1) (some 8) staged1)) = true ∧
      (approving (approval1 0 1) (some 8) staged1).officer 7 = some ⟨p256gx, p256gy⟩ ∧
      verifySig ⟨p256gx, p256gy⟩ staged1.digest (ofBe ((approval1 0 1).slice 8 32)) (ofBe ((approval1 0 1).slice 40 32)) = false) ∧
    (approvalDone staged1 = true ∧ approvalDone { staged1 with approvals := [0], kind := 1#8 } = true ∧
      approvalDone { staged1 with approvals := [0], kind := 2#8 } = true ∧
      approvalDone { staged1 with approvals := [0] } = true) := by
  decide

/-- The zero digest is signed by (x, x) under the base point. -/
theorem wit_ApprovalsVerifyThenCommit_signature :
    verifySig ⟨p256gx, p256gy⟩ staged1.digest (ofBe ((approval1 p256gx p256gx).slice 8 32))
      (ofBe ((approval1 p256gx p256gx).slice 40 32)) = true := by
  decide +kernel
/-! ### Witnesses: the engine, fuses, twin wells and start-up -/

/-- The head of the engine queue: a command whose operation began at edge 8 and lasts one KCLK. -/
def engine1 (e : Nat) (c : Cmd) (todo : List (List Byte)) (acc : List Nat) : State :=
  let r : Run := { running 0#8 .engine [] with cmd := c, todo := todo, acc := acc }
  { at_ e live with
    keeper.engine := [{ run := r, entered := 0, started := some 8, lasts := 1, ended := false }]
    fuses.lifecycleAdd := 1#2 }
def keysOf (a b : List Byte) (i j : Byte) : List Byte := [i, j, 0#8, 0#8] ++ a ++ b
def pointG : List Byte := beBytes 32 p256gx ++ beBytes 32 p256gy
def pointNegG : List Byte := beBytes 32 p256gx ++ beBytes 32 (p256p - p256gy)
def commission1 : Cmd := command 0x70#8 (keysOf pointG pointNegG 0#8 7#8)
def signing : State :=
  let r := running 0x80#8 .random (leBytes 32 0)
  { keeping r with keeper.words := [0#64, 0#64, 0#64, 1#64] }

def silent : State := { signing with keeper.words := [0#64, 0#64, 0#64, 0#64] }
/-- An ATTEST that has read some pages of both stores, and one that meets a poisoned page. -/
def attesting (n : Nat) : State := keeping { running 0x80#8 .items (leBytes 32 0) with step := n }
def attestBad : State :=
  let s := attesting 0
  { s with twin.wellA := { well with poison := [(pageKey 0 ((s.hash false).physical digestFirst), true)] } }

/-- The same block while the route store waits for its fresh key. -/
def keyFor (s : State) : State := { s with routes.rt.asked := true }

theorem wit_EngineCommandsQueueAndReturn :
    (isFresh 0x70 (fresh 0x70#8 (keysOf pointG pointG 8#8 0#8)) = true ∧
      isFresh 0x70 (fresh 0x70#8 (keysOf pointG pointG 7#8 7#8)) = true ∧
      isFresh 0x70 (fresh 0x70#8 (keysOf pointG pointG 0#8 7#8)) = true ∧
      (command 0x70#8 (keysOf pointG pointG 0#8 7#8)).keyA = (command 0x70#8 (keysOf pointG pointG 0#8 7#8)).keyB ∧
      isFresh 0x70 (fresh 0x70#8 (keysOf pointG pointNegG 0#8 7#8)) = true ∧ commission1.keyA ≠ commission1.keyB) ∧
    (isFresh 0x80 (marginal (fresh 0x80#8 (leBytes 32 0))) = true ∧ (marginal (fresh 0x80#8 [])).anyMarg = true ∧
      isFresh 0x80 (fresh 0x80#8 (leBytes 32 0)) = true ∧ (fresh 0x80#8 []).anyMarg = false ∧ (fresh 0x80#8 []).poisonCount 0 = 0 ∧
      inPhase 0x80 .random signing = true ∧ nonceOf (signing.keeper.words.take 4) = some 1 ∧
      inPhase 0x80 .random silent = true ∧ nonceOf (silent.keeper.words.take 4) = none ∧
      isFresh 0xF0 (fresh 0xF0#8 (field1 3)) = true ∧ isFresh 0xF0 (fresh 0xF0#8 (field1 8)) = true ∧
      (fresh 0xF0#8 []).testBusy 31 = false ∧ (keyFor (fresh 0xF0#8 (field1 8))).testBusy 8 = true ∧
      isFresh 0xF0 (keyFor (fresh 0xF0#8 (field1 8))) = true) ∧
    (inPhase 0x80 .items (attesting 32758) = true ∧ (attesting 32758).digestNext.isSome = true ∧
      inPhase 0x80 .items (attesting 32759) = true ∧ (attesting 32759).digestAt = none ∧
      inPhase 0x80 .items attestBad = true ∧ attestBad.digestAt.isSome = true ∧ attestBad.digestNext = none) ∧
    (still (engine1 8 commission1 [] []) = true ∧ (engine1 8 commission1 [] []).keeperGoes = true ∧ 8 < 8 + 2 * 1 ∧
      still (engine1 10 commission1 [] []) = true ∧ (engine1 10 commission1 [] []).factoryClean = true ∧
      (engine1 10 commission1 [] []).presenceSeen true (10 - 8) = true ∧ 10 % 2 = 0 ∧
      validKey commission1.keyA.x commission1.keyA.y = true ∧ validKey commission1.keyB.x commission1.keyB.y = true ∧
      still (engine1 10 (command 0x80#8 []) [[]] [1]) = true ∧ still (engine1 10 (command 0xF0#8 (field1 1)) [] [0]) = true ∧
      (command 0xF0#8 (field1 1)).field 0 1 = 1 ∧ (engine1 8 commission1 [] []).atBoundary = true ∧
      (engine1 10 (command 0x80#8 []) [[]] [1]).atBoundary = true ∧
      still (engine1 10 (command 0xF0#8 (field1 1)) [] [1]) = true ∧ Nat.testBit 1 3 = false ∧
      (List.range 5).foldl (fun m i => if Nat.testBit 1 i && (if i = 3 then false else Nat.testBit 1 i) then m + 2 ^ i else m) 0 = 1) := by
  decide

/-- A part whose scalar reads 1 signs with the nonce 1. -/
theorem wit_EngineCommandsQueueAndReturn_signature :
    (signWith (((engine1 10 (command 0x80#8 []) [[]] [1]).fuse fwScalar).getD 0) 1 (Sys2Proof.Machine.sha256 [])).isSome = true := by
  decide +kernel

def draining (e : Nat) (u : List Unsettled) : State :=
  let r := running 0x03#8 .waiting []
  let s := keeping { r with acc := [0] }
  at_ e (s.modPort 0 fun x => { x with unsettled := u })

theorem wit_RearmAndStandbyFollowThePairsAndTheDrain :
    (isFresh 0x04 (fresh 0x04#8 (field1 0x80)) = true ∧ (fresh 0x04#8 (field1 0x80)).pairBusy 7 0x80#8 = true ∧
      (fresh 0x04#8 (field1 0x80)).pairBusy 7 0x7F#8 = false ∧ (command 0x04#8 (field1 0x80)).field 0 1 = 2 ^ 7 ∧
      isFresh 0x04 (fresh 0x04#8 (field1 0xFF)) = true ∧ (command 0x04#8 (field1 0xFF)).field 0 1 = 255 ∧
      (∀ n, n < 8 → (fresh 0x04#8 (field1 0xFF)).pairBusy n 0#8 = false) ∧ rising 0 (fresh 0x04#8 []).levels.pairs = true) ∧
    (isFresh 0x03 { fresh 0x03#8 [] with levels.stbyOk := true } = true ∧ isFresh 0x03 (pairing (fresh 0x03#8 [])) = true ∧
      (fresh 0x03#8 []).levels.stbyOk = false ∧ (fresh 0x03#8 []).twin.repair = none ∧ (fresh 0x03#8 []).keeper.tokens = []) ∧
    (isFresh 0x03 (fresh 0x03#8 []) = true ∧ isFresh 0x03 (othersToken 0x41#8 (fresh 0x03#8 [])) = true ∧
      (othersToken 0x41#8 (fresh 0x03#8 [])).keeper.tokens ≠ [] ∧ inPhase 0x03 .waiting (draining 65534 []) = true ∧
      (draining 65534 []).drained = true ∧ inPhase 0x03 .waiting (draining 65536 [⟨0, 0#16, 0, false, []⟩]) = true ∧
      (draining 65536 [⟨0, 0#16, 0, false, []⟩]).drained = false) := by
  decide

def advancing3 : State :=
  let r := running 0xF1#8 .fresh (field1 3)
  keeping { r with cmd := { r.cmd with presence := true } }
def secondLife (s : State) : State := { s with fuses.lifecycleAdd := 1#2 }
def advancing (p : Bool) : State :=
  let r := running 0xF1#8 .fresh (field1 2)
  keeping { r with cmd := { r.cmd with presence := p } }
def programming (l : List (Nat × Nat)) : State := { at_ 64 live with fuses.programming := l }
def resensing (e : Nat) : State := { at_ e live with fuses.resensing := true }

theorem wit_FuseCommandsProgramAndResense :
    (isFresh 0xF1 (fresh 0xF1#8 (field1 1)) = true ∧ isFresh 0xF1 (advancing true) = true ∧ (advancing true).lifecycle < 2 ∧
      (advancing true).stateMarg = false ∧ (advancing true).keeper.staged = none ∧ isFresh 0xF1 (advancing false) = true ∧
      isFresh 0xF1 (marginal (advancing true)) = true ∧ (marginal (advancing true)).stateMarg = true ∧
      (marginal (advancing true)).lifecycle < 2 ∧ isFresh 0xF1 advancing3 = true ∧ advancing3.lifecycle = 1 ∧
      isFresh 0xF1 (secondLife advancing3) = true ∧ (secondLife advancing3).lifecycle = 2 ∧
      isFresh 0xF1 (secondLife (advancing true)) = true ∧ (secondLife (advancing true)).lifecycle = 2 ∧
      (advancing true).presenceSeen true (8 - 4) = true ∧ (advancing true).presenceSeen false (8 - 4) = false ∧
      advancing3.stateMarg = false ∧ advancing3.keeper.staged = none) ∧
    (still (programming [(fwLife, 1), (fwLife, 2)]) = true ∧ still (programming [(fwLife, 2)]) = true) ∧
    (isFresh 0xF2 (fresh 0xF2#8 []) = true ∧ inPhase 0xF2 .waiting (at_ 64 (keeping (running 0xF2#8 .waiting []))) = true ∧
      still (resensing 64) = true ∧ still (resensing 66) = true ∧ 64 % 64 = 0 ∧ 66 % 64 ≠ 0 ∧ live.fuses.resensing = false ∧ still (slow 524287 live) = true ∧
      (slow 524287 live).slowRan (slow 524287 live).fuses.resenseTick 524288 = true ∧ still (slow 524286 live) = true ∧
      (slow 524286 live).slowRan (slow 524286 live).fuses.resenseTick 524288 = false) := by
  decide

/-- Both wells after checkpoint k, with their frames in or not, asked for again at 256k + 8 or not. -/
def closed (e k : Nat) (frames again : Bool) (sigB : DWord) : State :=
  let w : Well := { well with sigK := k, frameIn := frames, resend := again, resendAt := 256 * k + 8, sig := 7#64, frameSig := 7#64 }
  { at_ e live with twin.wellA := w, twin.wellB := { w with sig := sigB, frameSig := sigB } }

def ledByB (e : Nat) : State := at_ e { live with twin.leadB := true }
/-- Noise on the link: a bit of the status byte, and one of the CRC. -/
def noisy : List Byte := [0#8, 0#8, 1#8]
def badCrc : List Byte := zeros 14 ++ [1#8]
def quietB : State := (at_ 1024 live).modWell true fun w => { w with hbLost := true }

theorem wit_CheckpointsAreClosedSentAndCompared :
    (still (at_ 256 live) = true ∧ live.paired = true ∧ live.lead.sigK ≠ 256 / 256 ∧ live.twin.leadB = false ∧
      ((at_ 256 live).modWell false fun w => w.close 1 [1#8]).paired = true ∧ still (at_ 255 live) = true ∧ 255 % 256 ≠ 0 ∧
      still (ledByB 256) = true ∧ (ledByB 256).twin.leadB = true ∧ (ledByB 256).paired = true ∧ (ledByB 256).lead.sigK ≠ 256 / 256 ∧
      ((ledByB 256).modWell true fun w => w.close 1 [1#8]).paired = true) ∧
    (still (closed 264 1 false false 7#64) = true ∧ (closed 264 1 false false 7#64).frameDue true = true ∧
      ((closed 264 1 false false 7#64).well false).resend = false ∧ (closed 280 1 false true 7#64).frameDue false = true ∧
      280 ≤ ((closed 280 1 false true 7#64).well false).resendAt + 16 ∧ still (closed 280 1 false true 7#64) = true ∧
      (closed 281 1 false true 7#64).frameDue false = true ∧ still (closed 281 1 false true 7#64) = true ∧
      ((closed 281 1 false true 7#64).well false).resendAt + 16 < 281 ∧ (closed 265 1 false false 7#64).frameDue true = false ∧
      still (closed 265 1 false false 7#64) = true ∧ frameValid [] = true ∧ frameValid noisy = false ∧ frameValid badCrc = false) ∧
    (still (closed 272 1 true false 7#64) = true ∧ (closed 272 1 true false 7#64).twin.comparedK ≠ 1 ∧
      (closed 272 1 true false 7#64).clock.edge = 256 * 1 + 16 ∧ still (closed 272 1 true false 8#64) = true ∧
      (closed 272 1 true false 8#64).lead.frameSig ≠ (closed 272 1 true false 8#64).mirror.frameSig ∧
      still (closed 304 1 true true 7#64) = true ∧ 304 ≤ 256 * 1 + 48 ∧ still (closed 305 1 true true 7#64) = true ∧
      still (closed 271 1 true false 7#64) = true) ∧
    (still (at_ 1024 live) = true ∧ (live.well true).hbLost = false ∧ (live.well true).frameAt + 1024 ≤ 1024 ∧
      still (at_ 1023 live) = true ∧ still quietB = true ∧ (quietB.well true).hbLost = true) := by
  decide

def triggered (e cause : Nat) (p : PairState) : State :=
  { at_ e live with twin.trigger := some { trig cause with edge := 7 }, twin.pair := p }
def frozenAt (e : Nat) (decided : Option Nat) (promoted : Bool) (stage : Nat) (a b : Option Bool) : State :=
  { at_ e live with
    twin.failover := some (failing decided promoted stage)
    twin.wellA := { well with report := a }
    twin.wellB := { well with report := b } }
def held (s : State) : Bool := decide (s.elapse 0 = s) && s.startup.ready && s.twin.failover.isSome
/-- A lead that fell silent with the mirror: neither is healthy without a self-check. -/
def bothSilent : State :=
  { at_ 8 live with twin.trigger := some { cause := 3, edge := 7, leadBad := true, mirrorBad := true } }
/-- What the self-check of a well finds: nothing, or a page of its journal that cannot be read. -/
def foundNone : SelfCheck := { pages := [], votes := 0, romOk := true }
def foundBad : SelfCheck := { foundNone with pages := [{ store := 0#3, index := 9#16, page := { a := .uncorr, b := .clean } }] }
def journaled : State := { frozenAt 15001 none false 0 none none with twin.pageJournal := [pageKey 0 9] }
/-- A freeze at its resume edge, not promoted, that holds two answers. -/
def answered : State :=
  let s := frozenAt 102 (some 100) false 2 (some true) (some true)
  { s with twin.answers := [.outboundLateAnswer 0 0#9, .outboundLateAnswer 0 511#9] }
def alone : State := { live with twin.pair := .absent }

theorem wit_TriggersFreezeDecideAndResume :
    (live.elapse 0 = live ∧ live.startup.ready = true ∧ live.twin.failover = none ∧ live.twin.fabricFault = false ∧
      still (triggered 8 3 .paired) = true ∧ (triggered 7 3 .paired).clock.edge = 7 ∧ still (triggered 7 3 .paired) = true ∧
      live.paired = true ∧ still alone = true ∧ alone.paired = false ∧ alone.twin.repair = none) ∧
    (still (triggered 8 4 .paired) = true ∧ still (triggered 8 1 .paired) = true ∧ still (triggered 7 4 .paired) = true ∧
      (triggered 7 4 .paired).clock.edge ≤ 7 ∧ rising 0 (triggered 8 4 .paired).cores = true ∧ still bothSilent = true ∧
      still (triggered 7 5 .paired) = true) ∧
    (held (frozenAt 2 none false 0 none none) = true ∧ held (frozenAt 15001 none false 0 none (some true)) = true ∧
      held (frozenAt 15000 none false 0 none none) = true ∧ held (frozenAt 15002 none false 0 none none) = true ∧
      held (frozenAt 9 none false 0 (some true) none) = true ∧ 1 < 15001 ∧ 15001 ≤ 1 + 15000 ∧ held journaled = true ∧
      (journaled.journalSound false foundNone.pages && journaled.votesFew 1 foundNone.votes && foundNone.romOk) = true ∧
      journaled.journalSound false foundBad.pages = false ∧ journaled.votesFew 1 256 = false) ∧
    (held (frozenAt 100 (some 100) false 1 (some true) (some true)) = true ∧
      held (frozenAt 101 (some 100) false 2 (some true) (some true)) = true ∧
      held (frozenAt 102 (some 100) false 2 (some true) (some false)) = true ∧
      held (frozenAt 357 (some 100) true 2 (some false) (some true)) = true ∧
      held (frozenAt 358 (some 100) true 2 (some false) (some true)) = true ∧
      (let s := frozenAt 358 (some 100) true 2 (some false) (some true)
       let p := State.prepareRewrites (State.replay { s with twin.failover := none, twin.trigger := none }) 1
       (State.swapLost p.redrive).frozen = false) ∧
      held answered = true ∧ answered.twin.answers ≠ [] ∧
      (State.swapLost (State.redrive { answered with twin.failover := none, twin.trigger := none })).frozen = false) := by
  decide

def repairing (base size : Nat) (s : State → State) : State := s (fresh 0xA1#8 (leBytes 8 base ++ leBytes 8 size))
def lost (s : State) : State := { s with twin.pair := .absent, twin.wellB := { well with held := true } }
def dark (s : State) : State := { s with twin.pair := .absent, twin.wellB := { well with power := false } }
def swapping (s : State) : State := { s with twin.swapPend := some 0 }

theorem wit_RepairAndSwapStart :
    (isFresh 0xA1 (repairing (2 ^ 48) 16640 id) = true ∧ isFresh 0xA1 (repairing 63 16640 id) = true ∧
      isFresh 0xA1 (repairing 0 16639 id) = true ∧ isFresh 0xA1 (repairing 0 16640 allMemory) = true ∧
      (repairing 0 16640 allMemory).permitted 0 0 16640 false = true ∧ (repairing 0 16640 allMemory).paired = true) ∧
    (isFresh 0xA1 (repairing 0 16640 fun s => swapping (lost (allMemory s))) = true ∧
      isFresh 0xA1 (repairing 0 16640 fun s => lost (allMemory s)) = true ∧
      (repairing 0 16640 fun s => lost (allMemory s)).scrubGroupTaken = false ∧
      (repairing 0 16640 fun s => lost (allMemory s)).tokensOf 3 = [] ∧
      (repairing 0 16640 fun s => lost (allMemory s)).twin.repair = none ∧
      isFresh 0xA1 (repairing 0 16640 fun s => dark (allMemory s)) = true) ∧
    (isFresh 0xA2 (lost (fresh 0xA2#8 [])) = true ∧ isFresh 0xA2 (swapping (fresh 0xA2#8 [])) = true ∧
      isFresh 0xA2 (fresh 0xA2#8 []) = true ∧ (fresh 0xA2#8 []).twin.trigger = none) := by
  decide

def attempt1 (phase staged opened : Nat) (refill : Option Nat) : Repair where
  phase := phase
  key := []
  repairId := 1#32
  staged := staged
  opened := opened
  slots := 4
  base := 0
  refillAt := refill
  fwd := []
  started := 0
  strengths := []
  flying := []
  back := []
def joining (e : Nat) (r : Repair) (retries : Nat) : State :=
  at_ e { keeping (running 0xA1#8 .waiting []) with twin.repair := some r, twin.pair := .repairing, twin.retries := retries }
def goes (s : State) : Bool := still s && s.twin.repair.isSome

/-- An attempt whose next chunk's bank is in the keeper's locked sequence since edge g, at edge 8. -/
def staging1 (g : Nat) : State :=
  let s := joining 8 { attempt1 3 0 0 none with key := zeros 32 } 0
  let b := s.stageBank.getD (0, 0)
  { s with sluice.locks := [{ memory := b.1, bank := b.2, owner := 1, grant := g, lasts := g + 64, unit := none, ended := false }] }

/-- An attempt at phase 3 or 4 with a page write of the lead on the link that lands at edge 8. -/
def landing (phase e : Nat) : State :=
  joining e { attempt1 phase 670 670 none with flying := [(pageKey 6 4095, 8, true)] } 0
/-- An attempt that has read back chunk 0: its lines are a slot's, all of it in the last line. -/
def slotLines (slot : List Byte) : List (Nat × Nat × List Byte) :=
  (List.range 65).map fun i => (0, i, if i = 64 then slot else [])
def readBack (slot : List Byte) : Repair := { attempt1 3 4 0 none with key := zeros 32, back := slotLines slot }
def opening (slot : List Byte) (retries : Nat) : State := joining 8 (readBack slot) retries

theorem wit_RepairAttemptsFollowTheirPhases :
    (goes (joining 8 (attempt1 1 0 0 none) 0) = true ∧ 10 ≤ (joining 8 (attempt1 1 0 0 none) 0).mirror.step ∧
      goes (staging1 7) = true ∧ (staging1 7).markedLock.isSome = true ∧
      (staging1 7).stageBank = (staging1 7).markedLock.map (fun l => (l.memory, l.bank)) ∧ 8 < 7 + 64 ∧
      goes (staging1 8) = true ∧ (joining 8 (attempt1 3 4 0 none) 0).markedLock = none ∧
      (joining 8 (attempt1 1 0 0 none) 0).stageBank = none) ∧
    (goes (opening (zeros 4160) 3) = true ∧ goes (opening (zeros 4160) 2) = true ∧ (opening (zeros 4160) 2).stagingBusy 0 = false ∧
      (opening (zeros 4160) 3).slotOpens (readBack (zeros 4160)) 0 (zeros 4160) = false ∧
      (joining 8 (attempt1 3 4 0 none) 0).twin.repair.map (fun r => r.slot r.opened) = some none) ∧
    (goes (joining 12296 (attempt1 2 0 0 (some 12296)) 1) = true ∧ goes (joining 12295 (attempt1 2 0 0 (some 12296)) 1) = true ∧
      goes (landing 3 8) = true ∧ goes (landing 4 7) = true ∧ pageKey (6#3).toNat (4095#16).toNat = pageKey 6 4095 ∧
      goes (joining 8 (attempt1 3 0 0 none) 0) = true ∧ goes (joining 256 (attempt1 4 670 670 none) 0) = true ∧
      goes (joining 255 (attempt1 4 670 670 none) 0) = true ∧ (live.well false).power = true ∧ (live.well true).power = true) := by
  decide

/-- What a lead's slot holds where: its header, its tag and its ciphertext. -/
theorem slot_parts (head tag cipher : List Byte) (hh : head.length = 48) (ht : tag.length = 16) :
    (head ++ tag ++ cipher).take 48 = head ∧ (head ++ tag ++ cipher).drop 64 = cipher ∧
      ((head ++ tag ++ cipher).drop 48).take 16 = tag := by
  refine ⟨?_, ?_, ?_⟩
  · rw [List.append_assoc, ← hh, List.take_left]
  · rw [show 64 = (head ++ tag).length by simp [hh, ht], List.drop_left]
  · rw [List.append_assoc, ← hh, List.drop_left, ← ht, List.take_left]
/-- A slot as the lead sealed it opens: its header is the one expected, and its tag verifies. -/
theorem slot_opens (s : State) (r : Repair) (hk : r.key = zeros 32) (hi : r.repairId = 1#32) :
    s.slotOpens r 0 (s.chunkSlot r.key r.repairId.toNat 0) = true := by
  have h : ∀ acc n, (gcmTag (aesKey (zeros 32)) (leBytes 4 (1#32).toNat ++ leBytes 4 0 ++ zeros 4) acc 48 n).length = 16 := by
    intro acc n
    have ha : (aes256 (aesKey (zeros 32)) (ctrBlock (leBytes 4 (1#32).toNat ++ leBytes 4 0 ++ zeros 4) 0)).length = 16 := by decide
    have hb : ∀ v, (beBytes 16 v).length = 16 := fun _ => rfl
    simp only [gcmTag, xorBytes, List.length_map, List.length_zip, ha, hb, Nat.min_self]
  have hh : (s.chunkHead (1#32).toNat 0).length = 48 := rfl
  simp only [State.slotOpens, State.chunkSlot, hk, hi]
  generalize gcmCrypt _ _ _ _ = c
  obtain ⟨h1, h2, h3⟩ := slot_parts _ _ c hh (h (ghash (ghashKey (aesKey (zeros 32))) (ghash (ghashKey (aesKey (zeros 32))) 0 (s.chunkHead (1#32).toNat 0)) c) c.length)
  rw [h1, h2, h3]
  simp

/-- The lines read back are the slot's; one that the lead has sealed opens. -/
theorem wit_RepairAttemptsFollowTheirPhases_slot (slot : List Byte) :
    (readBack slot).slot 0 = some slot ∧
      (joining 8 (readBack slot) 0).slotOpens (readBack slot) 0 ((joining 8 (readBack slot) 0).chunkSlot (zeros 32) 1 0) = true := by
  refine ⟨?_, slot_opens _ _ rfl rfl⟩
  show some (slot ++ []) = some slot
  rw [List.append_nil]

def wanting : State := { at_ 8 live with integrity.walkers := [(6, { Walker.reset with wants := true })] }
def rebuilding : State :=
  { live with integrity.rebuilds := [(3, 255)], twin.wellA := { well with poison := [(pageKey 3 255, true)] } }
def encoding (g : Nat) : State :=
  let j : Reencode := { store := 2, oldT := 4, newT := 8, next := 638, target := 8, rest := [], olds := [], running := true }
  let l : Lock := { memory := 2, bank := 0, owner := 1, grant := g, lasts := 200, unit := none, ended := false }
  { at_ 8 live with integrity.journal := some j, sluice.locks := [l] }
def sweptAt (i : Nat) (s : State) : State := { s with routes.sweepAt := i }

def passBank : State :=
  { at_ 8 (keeping { running 0x41#8 .waiting (leBytes 4 64) with cmd := command 0x41#8 (leBytes 4 64) }) with
    integrity.pass := some (ScrubPass.start [6]) }

theorem wit_IntegrityWorkGoesPageByPage :
    (still (at_ 65536 live) = true ∧ live.walkerRuns 6 = true ∧
      (live.walker 6).tickedAt + 64 * 2 ^ bits ((at_ 65536 live).reg fIntegrity 0x20) 3 0 = 65536 ∧ still (at_ 65535 live) = true ∧
      (live.setReg fIntegrity 0x20 0x80000000#32).walkerRuns 6 = false ∧ still wanting = true ∧
      wanting.scrubBanks.contains (6, 0) = true ∧ wanting.maintWins 1 6 0 = true ∧ wanting.integrity.pass = none ∧
      live.scrubBanks.contains (6, 0) = false ∧ wanting.passBanks.contains (6, 0) = false ∧
      (wanting.readPage 6 0 0 true cleanRead).1.usable = true ∧
      still passBank = true ∧ passBank.passBanks.contains (6, 0) = true ∧ passBank.scrubBanks.contains (6, 0) = true ∧
      passBank.maintWins 1 6 0 = true ∧ passBank.integrity.pass.isSome = true ∧
      (passBank.readPage 6 0 0 true cleanRead).1.usable = true) ∧
    (still rebuilding = true ∧ rebuilding.integrity.rebuilds.contains (3, 255) = true ∧ rebuilding.maintFree 3 0 = true ∧
      still (encoding 5) = true ∧ (encoding 5).keeperAlive = true ∧ (encoding 5).strengthRuns = false ∧
      638 + 1 ≠ Config.storePages 2 ∧ still (encoding 6) = true ∧ (encoding 6).clock.dp < 6 + 3) ∧
    (still (live.setReg fFast 0x20 0#32) = true ∧ bit ((live.setReg fFast 0x20 0#32).reg fFast 0x20) 0 = false ∧
      bit (live.reg fFast 0x20) 0 = true ∧ still (sweptAt 4095 live) = true ∧ ((sweptAt 4095 live).ft 4095).odd = none ∧
      still (sweptAt 72 oddCopy) = true ∧ ((sweptAt 72 oddCopy).ft 72).odd = some 0 ∧
      (sweptAt 72 oddCopy).routes.ftBack.contains 72 = false ∧
      (([(⟨.table 72#12, 0#2, 4#32⟩ : Upset)].foldl State.upset (sweptAt 72 live)).ft 72).odd = some 0) := by
  decide

/-- A block in reset whose islands are in standby and have latched WAKE. -/
def woken : State :=
  { asleep with levels.islandA := { asleep.levels.islandA with wake := true } }

theorem wit_ResetsLeaveWhatTheyKeep :
    (State.reset.elapse 0).startup.inReset = true ∧ (live.elapse 0).startup.inReset = false ∧
      (live.elapse 0).levels.stbyOk = false ∧ (live.elapse 0).twin.fabricFault = false ∧
      ({ live with levels.stbyOk := true } : State).levels.stbyOk = true ∧ State.reset.wakePend = false ∧
      woken.elapse 0 = woken ∧ woken.startup.inReset = true ∧ woken.wakePend = true ∧
      ({ sampling with twin.fabricFault := true } : State).elapse 0 = { sampling with twin.fabricFault := true } ∧
      ({ live with twin.fabricFault := true } : State).elapse 0 = { live with twin.fabricFault := true } := by
  decide

/-- A block with a port, a group, a cistern and a mailbox that are not as reset leaves them, with a command waiting. -/
def tabled : State :=
  { (((powered.modGroup 5 fun g => { g with weight := 16#8 }).setCached 1 (some (ring .opened))).setBox 63
      (Mailbox.reset.setWord 8 7#32)).setInt 200 { IntState.reset with pending := true } with
    pending := [.nop 0] }

theorem wit_EveryStepKeepsTheTablesRising :
    tabled.tablesRise ∧ keys tabled.ports = [15] ∧ keys tabled.sluice.groups = [5] ∧ keys tabled.keeper.boxes = [63] ∧
      (match step tabled with | .next t => decide (t.ports = tabled.ports) | _ => false) = true := by
  unfold State.tablesRise; decide

/-- A start-up with Well A at a step since edge 0, Well B failed or at the same step. -/
def starts (e step : Nat) (failedB : Nat) : State :=
  let w : Well := { well with step := step }
  { at_ e live with
    startup := { Startup.reset with inReset := false }
    twin.wellA := w
    twin.wellB := { w with failed := failedB } }
def begins (s : State) : Bool := decide (s.elapse 0 = s) && !s.startup.inReset && !s.startup.ready

/-- Step 9 with the known answers in, or one of them wanting; step 4 with its words drawn; a warm start-up with its wells at two
steps; a well at the handshake that has found a page the other has not; and a joining well at step 3 of a ready block. -/
def kats (l : List DWord) (ended : Bool) : State :=
  { starts 8 9 0 with startup.katWords := l, startup.rndTest := if ended then none else some 0 }
def drawn (n : Nat) : State := { starts 8 4 0 with startup.drawn := List.replicate n 7#64 }
def warming (a b : Nat) : State :=
  let s := starts 8 a 0
  { s with startup.kind := .warm, twin.wellB := { s.twin.wellB with step := b } }
def swept3 : State := at_ (stepLimit true 3) (warming 3 3)
def missedIt : State :=
  let s := warming 10 10
  { s with twin.wellA := { s.twin.wellA with poison := [(pageKey 0 5, true)] } }
def joinUp : State :=
  let s := joining 8 (attempt1 1 0 0 none) 0
  { s with twin.wellB := { well with step := 3 } }

theorem wit_StartUpStepsLeadToReady :
    (begins (starts 8 2 0) = true ∧ (starts 8 2 0).startsUp false = true ∧ begins (starts 8 10 0) = true ∧
      (starts 8 10 0).startsUp true = true ∧ begins (starts 8 4 0) = true ∧
      (starts 8 4 0).startup.drawn.length < (starts 8 4 0).wordsNeeded ∧
      ((starts 8 2 2).modWell false fun w => { w with failed := w.step }).bothFailed = true ∧
      ((starts 8 2 0).modWell false fun w => { w with failed := w.step }).bothFailed = false) ∧
    (begins (starts (stepLimit false 2) 2 0) = true ∧ begins (starts (stepLimit false 2 - 1) 2 0) = true ∧
      0 < stepLimit false 2 ∧ (starts 8 11 0).startsUp false = false) ∧
    (begins (starts 8 10 0) = true ∧ (starts 8 10 0).readyDue = false ∧ begins (starts 8 11 0) = true ∧
      (starts 8 11 0).readyDue = true ∧ (starts 8 11 0).twin.wellA.passed = true ∧ (starts 8 11 0).twin.wellB.passed = true) ∧
    (begins (starts 8 1 0) = true ∧ begins (starts 8 8 0) = true ∧ begins (kats [1#64, 2#64, 3#64] true) = true ∧
      (kats [1#64, 2#64, 3#64] true).startsUp false = true ∧ begins (kats [1#64] false) = true ∧
      begins (drawn 4) = true ∧ (drawn 4).wordsNeeded ≤ (drawn 4).startup.drawn.length ∧
      begins swept3 = true ∧ swept3.firstSwept false = true ∧ swept3.startup.kind = .warm ∧
      swept3.clock.edge = (swept3.well false).stepAt + stepLimit true 3 ∧ begins (warming 3 3) = true ∧
      begins (warming 3 4) = true ∧ (warming 3 4).firstSwept false = false ∧
      begins missedIt = true ∧ missedIt.startsUp false = true ∧ (missedIt.well false).step = 10 ∧
      missedIt.sweepDiffers false = true ∧ (starts 8 10 0).sweepDiffers false = false) ∧
    (joinUp.elapse 0 = joinUp ∧ joinUp.startup.inReset = false ∧ joinUp.startup.ready = true ∧ joinUp.startsUp true = true) := by
  decide

def exchange (e : Nat) (l : List DWord) : State := { at_ e live with startup.rndTest := some 0, startup.katWords := l }
/-- A table that waits for its key; an exchange of start-up that got no words. -/
def keyWanted (rights : Bool) : State :=
  let h : Hash := { Hash.reset with asked := true }
  if rights then { at_ 8 live with routes.rg := h } else { at_ 8 live with routes.rt := h }
def katLate : State := at_ 1250000 (kats [] false)
def sclkAt (e : Nat) : State := { at_ e live with clock.nextSclk := 1000000 }

/-- A start-up that has received the known answers, and one that has received others. -/
theorem wit_StartUpStepsLeadToReady_answers :
    (let s := kats ((List.range 4).map Config.rndKat) true
     s.elapse 0 = s ∧ s.startsUp false = true ∧ s.startup.ready = false ∧ s.startup.rndTest = none ∧ (s.well false).step = 9 ∧
       s.startup.katWords = (List.range 4).map Config.rndKat) ∧
    (let s := kats ((List.range 4).map fun i => Config.rndKat i + 1#64) true
     s.elapse 0 = s ∧ s.startsUp false = true ∧ s.startup.ready = false ∧ s.startup.rndTest = none ∧ (s.well false).step = 9 ∧
       s.startup.katWords.length = 4 ∧ s.startup.katWords ≠ (List.range 4).map Config.rndKat) :=
  ⟨⟨rfl, rfl, rfl, rfl, rfl, rfl⟩, ⟨rfl, rfl, rfl, rfl, rfl, rfl, fun h => by
    have h0 : Config.rndKat 0 + 1#64 = Config.rndKat 0 := (List.cons.inj h).1
    revert h0; generalize Config.rndKat 0 = x; intro h0; bv_omega⟩⟩

theorem wit_RandomSlowAndTestPortEdges :
    (live.elapse 0 = live ∧ (exchange 8 [1#64, 2#64]).elapse 0 = exchange 8 [1#64, 2#64] ∧
      (exchange 8 [1#64, 2#64, 3#64]).elapse 0 = exchange 8 [1#64, 2#64, 3#64] ∧ still (drawing 8) = true ∧
      (drawing 8).startup.rndTest = none ∧ (drawing 8).startup.rndQuiet ≤ 8 ∧ (drawing 8).keeperGoes = true ∧
      (drawing 8).routes.rt.wantsKey = false ∧ (drawing 8).routes.rg.wantsKey = false ∧ (drawing 8).keeper.engine = [] ∧
      (drawing 8).repairWants = none ∧ (drawing 8).retryWants = none ∧
      (drawn 0).elapse 0 = drawn 0 ∧ (drawn 0).drawWants = true ∧ (drawn 0).startup.rndTest = none ∧
      (drawn 3).elapse 0 = drawn 3 ∧ (drawn 3).drawWants = true ∧ (drawn 3).startup.kind ≠ .warm ∧
      (exchange 8 (List.replicate 4 7#64)).elapse 0 = exchange 8 (List.replicate 4 7#64) ∧
      still (keyWanted false) = true ∧ (keyWanted false).routes.rt.wantsKey = true ∧ (keyWanted false).keeperAlive = true ∧
      still (keyWanted true) = true ∧ (keyWanted true).routes.rt.wantsKey = false ∧ (keyWanted true).routes.rg.wantsKey = true) ∧
    ((exchange 1250000 []).elapse 0 = exchange 1250000 [] ∧ (exchange 1249999 []).elapse 0 = exchange 1249999 [] ∧
      (sclkAt 999999).elapse 0 = sclkAt 999999 ∧ (sclkAt 1000000).elapse 0 = sclkAt 1000000 ∧ 1000000 % Config.sclk = 0 ∧
      katLate.elapse 0 = katLate ∧ katLate.startup.ready = false ∧ (katLate.well false).starting = true ∧
      (katLate.well false).step = 9 ∧ 0 + 1250000 ≤ katLate.clock.edge) ∧
    (live.tap.state = 0 ∧ (({ live with tap.state := 13 } : State).elapse 0).tap.state = 13 ∧
      (({ live with tap.state := 14 } : State).elapse 0).tap.state = 14 ∧
      (({ live with tap.state := 3 } : State).elapse 0).tap.inForce = .idcode) := by
  decide
/-! ### Ill-formed commands are refused, one for each check -/

theorem test_wf_error_count : (Instr.windowReadAnswer 0 { a := .corr 0, b := .clean }).wellFormed = false := by decide
theorem test_wf_error_count_b : (Instr.ackN 0 0#6 0#8 ⟨0#2, false⟩ { a := .clean, b := .corr 0 }).wellFormed = false := by decide
theorem test_wf_global_frame : (Instr.pageLockWrite 0 0#6 0x28#6 0#2 0#32).wellFormed = false := by decide
theorem test_wf_counter_frame : (Instr.counterWrite 0 0#6 0x180#9 3#6 false false 0#64).wellFormed = false := by decide
theorem test_wf_counter_read_frame : (Instr.counterLoRead 0 0#6 0x1FF#9 3#6 0#2 false).wellFormed = false := by decide
theorem test_wf_target : (Instr.targetRound 0 257#9).wellFormed = false := by decide
theorem test_wf_fast_target : (Instr.fastRound 0 257#9).wellFormed = false := by decide
theorem test_wf_wire : (Instr.levelInputChange 0 72#7 true).wellFormed = false := by decide
theorem test_wf_filter_wire : (Instr.levelFilterEdge 0 127#7).wellFormed = false := by decide
theorem test_wf_line : (Instr.levelSet 0 56#6).wellFormed = false := by decide
theorem test_wf_standby_line : (Instr.stbyLatchSet 0 (.level 56#6)).wellFormed = false := by decide
theorem test_wf_item_pages : (Instr.groupWrite 0 [cleanRead, { a := .corr 0, b := .clean }]).wellFormed = false := by decide
theorem test_wf_row_pages : (Instr.migrationRowWrite 0 true [{ a := .corr 0, b := .clean }]).wellFormed = false := by decide
theorem test_wf_drift_word : (Instr.fuseResense 0 [⟨512, 0#2, ⟨0, 0⟩⟩]).wellFormed = false := by decide
theorem test_wf_drift_copy : (Instr.fuseResenseTick 0 [⟨0, 3#2, ⟨0, 0⟩⟩]).wellFormed = false := by decide
theorem test_wf_store : (Instr.scrubWalkerTick 0 7#3).wellFormed = false := by decide
theorem test_wf_scrub_store : (Instr.scrubAccess 0 7#3 0#4 cleanRead).wellFormed = false := by decide
theorem test_wf_page : (Instr.pageRebuild 0 2#3 640#16).wellFormed = false := by decide
theorem test_wf_forwarded_page : (Instr.forwardedWrite 0 3#3 256#16).wellFormed = false := by decide
theorem test_wf_last_page : (Instr.forwardedWrite 0 2#3 639#16).wellFormed = true := by decide

/-! ### Single steps, with results from the spec -/

/-- The response a command leaves. -/
def answers (s : State) (code : Code) (data : DWord) : Bool := decide (s.front.response = some { code := code, data := data })

-- R93: a core unmasks with 0x0000_000C to 0x040 and 0xFFFF_FFF3 to 0x840.
theorem test_core_mask_commit :
    after (.coreMaskCommit 0 0#6 255#8 0xFFFFFFF3#32) armed (fun t =>
      decide ((t.core 255).mask = 0xC#4) && answers t .ok 0#64) = true := by decide
-- R59, R42: a wrong complement is GUARD_MISMATCH (reason 3) and closes the arm.
theorem test_guard_mismatch :
    after (.coreMaskCommit 0 0#6 255#8 0xFFFFFFF0#32) armed (fun t =>
      decide ((t.core 255).mask = 0xF#4) && decide (bits (t.fault (fCore 255)) 31 28 = 3) && answers t .refused 0#64 &&
        decide (t.countOf (fCore 255) 1 = 1)) = true := by decide
-- R94: an acknowledge with nothing presented answers NONE (bit 31) and counts SPURIOUS.
theorem test_ack_none :
    after (.ackN 0 0#6 7#8 ⟨0#2, false⟩ cleanRead) live (fun t =>
      answers t .ok 0x80000000#64 && decide (t.countOf (fCore 7) 5 = 1)) = true := by decide
-- R99: an acknowledge makes the INTID active and empties the presentation slot.
theorem test_ack_takes :
    after (.ackN 0 0#6 0#8 ⟨0#2, false⟩ cleanRead) shown (fun t =>
      answers t .ok 200#64 && decide ((t.core 0).actN = some ⟨200, false⟩) && (t.core 0).presN.isNone &&
        (t.int 200).active) = true := by decide
-- R95: an EOI of another INTID changes no state, returns OK, counts EOI_ERR and raises INTID 132.
theorem test_eoi_error :
    after (.eoiN 0 0#6 0#8 5#32 cleanRead) actives (fun t =>
      answers t .ok 0#64 && decide ((t.core 0).actN = some ⟨4095, false⟩) && decide (t.countOf (fCore 0) 7 = 1)) = true := by decide
-- R86: SGI_SEND sets INTID 15 of core 255 and counts SGI_SENT on the sender's page.
theorem test_sgi :
    after (.sgiSend 0 0#6 1#8 0xFF000F#32) live (fun t =>
      (t.int (privKey 255 15)).pending && decide (t.countOf (fCore 1) 8 = 1)) = true := by decide
-- R88: PEND_SET on a route that is not enabled sets nothing.
theorem test_pend_set_disabled :
    after (.pendSet 0 0#6 0#8 4095#32 cleanRead) live (fun t => !(t.int 4095).pending) = true := by decide
-- R52: a 64-bit write replaces the 48 bits and clears OVF; R51: its low word reads with the latch loaded.
theorem test_counter_write :
    after (.counterWrite 0 0#6 0x10#9 3#6 false true 0xFFFF123456789ABC#64) live (fun t =>
      decide (t.counter (ckey 0x10 3) = { Counter.reset with count := 0x123456789ABC })) = true := by decide
theorem test_counter_latch :
    after (.counterLoRead 0 0#6 0x10#9 3#6 0#2 false)
      (live.setCounter (ckey 0x10 3) { Counter.reset with count := 0x123456789ABC, ovf := true }) (fun t =>
        answers t .ok 0x56789ABC#64 && decide ((t.counter (ckey 0x10 3)).latchHi = 0x1234#16) &&
          (t.counter (ckey 0x10 3)).latchOvf) = true := by decide
-- R36, R37: a misaligned 64-bit write is refused WIDTH (reason 8); an address outside every frame is UNMAPPED.
theorem test_width :
    after (.registerWrite 0 0#6 0x2009#22 true 0#64) live (fun t =>
      answers t .refused 0#64 && decide (bits (t.fault 2) 31 28 = 8)) = true := by decide
theorem test_unmapped :
    after (.registerWrite 0 0#6 0x3FFFFF#22 false 0#64) live (fun t => answers t .unmapped 0#64) = true := by decide
-- R34: a CLR-view write of 1 to PORT_CTRL (reset 3) leaves FAST_EN alone.
theorem test_clr_view :
    after (.registerWrite 0 0#6 0x2808#22 false 1#64) live (fun t => decide (t.reg 2 0x20 = 2#32)) = true := by decide
-- R63: PAGE_LOCK bits are only ever set.
theorem test_page_lock :
    after (.pageLockWrite 0 0#6 2#6 0#2 2#32) locked1 (fun t => decide (t.lock 2 = 3#32)) = true := by decide
-- R72: a write to a read window is refused WINDOW_WRITE (reason 9), recorded in the block control page.
theorem test_window_write :
    after (.windowWrite 0 0#6 true 0#18 false 0#64) live (fun t =>
      answers t .refused 0#64 && decide (bits (t.fault fBlock) 31 28 = 9)) = true := by decide
-- R410: before READY a register write is answered OK and has no effect.
theorem test_before_ready :
    after (.registerWrite 0 0#6 0x2008#22 false 0#64) unready (fun t => answers t .ok 0#64 && decide (t.front.regs = [])) = true := by
  decide
-- R60: a guarded register written through the SET view is refused GUARD_FORM (reason 6) and closes the arm.
theorem test_guard_form :
    after (.registerWrite 0 0#6 (wordAt (fCore 255) 1 0x40) false 0xC#64) armed (fun t =>
      answers t .refused 0#64 && decide (bits (t.fault (fCore 255)) 31 28 = 6) && (t.arm (fCore 255)).isNone) = true := by decide
-- R112, R123: a non-posted doorbell is unsettled, awaits a response and counts ACCEPT_N and NP_ACCEPT.
theorem test_doorbell_accept :
    after (.doorbellAccept 0 15#4 200#64 7#16 true) powered (fun t =>
      decide ((t.port 15).normal.length = 1) && decide ((t.port 15).awaiting.length = 1) &&
        decide (t.countOf (fPort 15) 3 = 1) && decide (t.countOf (fPort 15) 5 = 1)) = true := by decide
-- R113, R142: a doorbell offered to a full FIFO counts BACKPRESSURE.
theorem test_doorbell_backpressure :
    after (.doorbellAccept 0 15#4 200#64 7#16 false) fullPort (fun t =>
      decide ((t.port 15).normal.length = 64) && decide (t.countOf (fPort 15) 8 = 1)) = true := by decide
-- R121: a cache hit on a direct route sets its INTID at its effect edge.
theorem test_doorbell_effect :
    after (.doorbellEffect 0 15#4 cleanRead) (head bell) (fun t =>
      (t.int 200).pending && (t.port 15).normal.isEmpty) = true := by decide
-- R131: a doorbell that faults sets nothing.
theorem test_doorbell_fault :
    after (.doorbellEffect 0 15#4 cleanRead) (head { bell with verdict := 1 }) (fun t =>
      !(t.int 200).pending && decide (t.countOf (fPort 15) 6 = 1)) = true := by decide
-- R234, R236: a cistern's first record takes index 0 and TOTAL becomes 1.
theorem test_cistern_append :
    after (.doorbellEffect 0 15#4 cleanRead) (cisternHead (some (ring .opened))) (fun t =>
      decide ((t.cached 1).map (fun x => (x.total, x.buffer.map Buffered.index)) = some (1#32, [0]))) = true := by decide
-- R193: a presentation slot loaded by a round at edge s is read from s + 2 and its line rises at s + 3.
theorem test_target_round :
    after (.targetRound 0 0#9) ranked (fun t =>
      (t.seenN 0).isNone && decide (((at_ 10 t).seenN 0).map Slot.intid = some 200) &&
        !lineLevel (t.core 0).lineN 10 && lineLevel (t.core 0).lineN 11) = true := by decide
-- R186: a win charges its group 16 credits.
theorem test_round_charge :
    after (.targetRound 0 0#9) ranked (fun t => decide ((t.group 0).credit = 240)) = true := by decide
-- R180: the idle clamp of a group of weight 16 leaves 256 credits.
theorem test_idle_clamp :
    after (.windowBoundary 0 .target) windowAt8 (fun t => decide ((t.group 5).credit = 256)) = true := by decide
-- R192: a presentation withdrawn by sleep returns 16 credits to its group and counts REFUNDS.
theorem test_refund :
    after (.coreSleepSeen 0 ⟨0#8, 3⟩) (shown.modGroup 0 fun g => { g with weight := 16#8 }) (fun t =>
      decide ((t.group 0).credit = 16) && decide (t.countOf fSluice 7 = 1) && (t.core 0).presN.isNone) = true := by decide
-- R126: a port seen without power counts MASK_EVENTS and accepts nothing.
theorem test_port_mask :
    after (.portMask 0 ⟨15#4, 3⟩) powered (fun t => !t.readyN 15 && decide (t.countOf (fPort 15) 11 = 1)) = true := by decide
-- R266: with depth 3 and LF 8 a change captured at edge 0 reaches the filtered value at edge 3 + 8 - 2 = 9, not at 8.
theorem test_filter_edge :
    after (.levelFilterEdge 0 0#7) (wired 9 0 (rising1 2)) (fun t => lineNewest (t.wire 0).fil) = true ∧
      after (.levelFilterEdge 0 0#7) (wired 8 0 (rising1 2)) (fun t => !lineNewest (t.wire 0).fil) = true := by decide
-- R266, R283: a pulse shorter than the filter counts GLITCH.
theorem test_glitch :
    after (.levelInputChange 0 0#7 false) (wired 8 0 (rising1 7)) (fun t => decide (t.countOf fLevel 3 = 1)) = true := by decide
-- R268: a disagreement of 1,250 edges is a tamper: P_7 rises.
theorem test_disc_tamper :
    after (.discTamper 0 7#3) (disagree 1249) (fun t => (t.pair 7).p && decide (t.countOf fLevel 7 = 1)) = true := by decide
-- R271: ZEROIZE_REQ is high while any Z_n of either well is set, in reset as well.
theorem test_zeroize :
    after (.zeroizeLatchSet 0 7#3) State.reset (fun t => t.zeroize && decide (t.levels.islandB.z = 0x80#8)) = true := by decide
-- R274: the sweep clears both words of the per-host route enable.
theorem test_sweep :
    after (.vaultSweep 0) (vault 5) (fun t => decide (t.reg fRoute 0x40 = 0#32) && decide (t.reg fRoute 0x44 = 0#32)) = true := by
  decide
-- R240: a level-1 entry of 0 leaves the cistern not open.
theorem test_level1_idle :
    after (.level1Response 0 511#9 true 0#64) (fetching (.level1 1) (ring .level1)) (fun t =>
      decide ((t.cached 1).map Cached.st = some .notOpen)) = true := by decide
-- R242: a failed head read breaks the cistern with reason 0x11, WALK_FAULT.
theorem test_head_fault :
    after (.headReadResponse 0 511#9 false 0#64) (fetching (.head 1) (ring .opened)) (fun t =>
      decide ((t.cached 1).map Cached.st = some (.broken 0x11#6)) && decide (t.countOf fOut 5 = 1)) = true := by decide
-- R456: an access unanswered for 65,536 FCLK is counted as failed and keeps its tag.
theorem test_outbound_timeout :
    after (.outboundTimeout 0 511#9) (unanswered 65536 false) (fun t =>
      decide ((t.access 511).map OutAccess.timedOut = some true) && decide (t.countOf fOut 5 = 1)) = true := by decide
-- R304: the worked example's token, 0x002A_4100_0000_01C8, is that of SCRUB at step 456 for H0.
theorem test_token_bytes : ofLe (tokenBytes token1 0) = 0x002A4100000001C8 := by decide
-- R301, R304: a resume takes the command on and consumes the token.
theorem test_resume :
    after (.commandResume 0) (withToken (resuming (tokenBytes token1 0))) (fun t =>
      (t.token 0).isNone && decide (t.keeper.run.map Run.phase = some .waiting)) = true := by decide
-- R292: NOP ends with OK: the result's first word is its opcode with status 0 and length 0, its mailbox DONE.
theorem test_nop :
    after (.nop 0) (fresh 0#8 []) (fun t =>
      decide ((t.box 0).st = .done) && decide ((t.box 0).word 0 = 0#32) && decide (t.keeper.run = none)) = true := by decide
-- R308, R157: a ROUTE_WRITE of INTID 131,072 is refused RANGE (3) with nothing written.
theorem test_route_range :
    after (.routeWrite 0) (fresh 0x10#8 badRoute) (fun t =>
      decide (look 0#8 (t.box 0).bytes 1 = 3#8) && t.routes.entries.isEmpty) = true := by decide
-- R158, R213: at its write edge a ROUTE_WRITE item writes the route.
theorem test_route_item :
    after (.routeItemWrite 0 cleanRead) (granted 0x10#8 5 routeItem 0) (fun t =>
      decide (t.route 200 = 0x40000000000#64) && decide (t.countOf fRoute 14 = 1)) = true := by decide
-- R338: a staged change expires at its window's end and counts DC_EXPIRED.
theorem test_stage_expire :
    after (.stageExpire 0) (withStaged live) (fun t => t.keeper.staged.isNone && decide (t.countOf fLife 5 = 1)) = true := by decide
-- R359: unequal signatures while paired are a trigger.
theorem test_sig_compare :
    after (.sigCompare 0) (closed 272 1 true false 8#64) (fun t =>
      decide (t.twin.trigger.map Trigger.cause = some 1) && decide (t.countOf fTwin 6 = 1)) = true := by decide
-- R363: without a promotion the resume edge is two edges after the decision.
theorem test_failover_resume :
    after (.failoverResume 0) (frozenAt 102 (some 100) false 2 (some true) (some false)) (fun t => !t.frozen) = true := by decide
-- R48: an SCLK edge advances SCLK_COUNT.
theorem test_sclk : after (.sclkEdge 0) (sclkAt 1000000) (fun t => decide (t.clock.sclkCount = 1#32)) = true := by decide
-- R407: a step that ends well brings the next.
theorem test_startup_step :
    after (.startupStepDone 0 false (.passed [])) (starts (stepLimit false 2) 2 0) (fun t => decide ((t.well false).step = 3)) = true := by decide
-- R409: READY.
theorem test_ready : after (.ready ⟨0, true⟩) (starts 8 11 0) (fun t => t.startup.ready && !t.twin.leadB) = true := by decide
-- R403: a warm reset of 7 FCLK is ignored, one of 8 takes the block out of READY.
theorem test_warm_reset :
    after (.warmReset 0 7) live (fun t => t.startup.ready) = true ∧
      after (.warmReset 0 8) live (fun t => !t.startup.ready) = true := by decide
-- R216: the vote counts an odd copy, and writes it back at the next edge.
theorem test_vote :
    after (.fastTableSweep ⟨0, []⟩) (sweptAt 72 oddCopy) (fun t =>
      decide ((t.elapse 1).ft 72 = Ft.all 0#32) && decide (t.countOf fFast 7 = 1)) = true := by decide
-- R217: one flipped copy of a core's fast register bank is outvoted and counted.
theorem test_outvoted :
    after (.fastTableSweep ⟨0, [⟨.registers 255#8, 2#2, 1#32⟩]⟩) live (fun t =>
      decide (t.cores = live.cores) && decide (t.countOf fFast 7 = 1)) = true := by decide
-- R397, R389: a page that the sweep of a warm start-up finds uncorrectable in a well is poisoned there.
theorem test_warm_sweep :
    after (.startupStepDone 0 false (.passed [⟨2#3, 5#16, { a := .uncorr, b := .clean }⟩])) swept3 (fun t =>
      decide ((t.well false).step = 4) && look false (t.well false).poison (pageKey 2 5) &&
        !look false (t.well true).poison (pageKey 2 5)) = true := by decide
-- R383: the generator polynomial of strength 2 is (x^10+x^3+1)(x^10+x^3+x^2+x+1) = 1054839.
theorem test_bch_generator : bchGenerator 2 = 1054839 := by rfl
-- R383: the check bits of the page 5 at strength 4, divided out by hand.
theorem test_bch_check : checkBits 4 5#512 = 62150559578 := by rfl
-- R384: with strength 2 two flipped bits are corrected, three are not.
theorem test_bch_verdict :
    codeVerdict 2 (encodePage 2 5#512) { encodePage 2 5#512 with data := 6#512 } = .corr 2 ∧
      codeVerdict 2 (encodePage 2 5#512) { encodePage 2 5#512 with data := 2#512 } ≠ .corr 2 := by
  refine ⟨rfl, ?_⟩; decide +kernel
-- The queue is first in, first out (the model's block convention).
theorem test_queue :
    (match step { live with pending := [.ftRead 0 0#6 0#2, .nop 0] } with
      | .next t => decide (t.pending = [.nop 0])
      | _ => false) = true := by decide
-- CRC-64 of ECMA-182, its published check value over the digits 1 to 9.
theorem test_crc64 :
    crc64 0#64 [0x31#8, 0x32#8, 0x33#8, 0x34#8, 0x35#8, 0x36#8, 0x37#8, 0x38#8, 0x39#8] = 0x6C40DF5F0B497347#64 := by decide
-- FIPS 180-4: SHA-256 of "abc".
theorem test_sha256 :
    ofBe (Sys2Proof.Machine.sha256 [0x61#8, 0x62#8, 0x63#8]) =
      0xBA7816BF8F01CFEA414140DE5DAE2223B00361A396177A9CB410FF61F20015AD := by decide +kernel
-- GCM test case 14 (SP 800-38D): AES-256 of a zero key and block.
theorem test_gcm :
    ofBe (gcmCrypt (aesKey (zeros 32)) (zeros 12) 0 (zeros 16)) = 0xCEA7403D4D606B6E074EC5D3BAF39D18 := by decide +kernel

end Sys2Proof.Tests
end

section
/-! SUPPORT. What keeps a table of the state in rising order: the writes of one entry, and of each table of the state. -/

namespace Sys2Proof.Machine

/-! ### Tables that list each number once, in rising order -/

theorem rising_mono {α : Type} {lo lo' : Nat} {t : Tbl α} (h : rising lo t = true) (hl : lo' ≤ lo) : rising lo' t = true :=
  rising_ins.rising_weaken (k := 0) (lo := 0) h hl

theorem rising_filterMap {α β : Type} {g : Nat × α → Option (Nat × β)} (hg : ∀ e e', g e = some e' → e'.1 = e.1)
    {lo : Nat} {t : Tbl α} (h : rising lo t = true) : rising lo (t.filterMap g) = true := by
  induction t generalizing lo with
  | nil => rfl
  | cons e t ih =>
    simp only [rising, Bool.and_eq_true, decide_eq_true_eq] at h
    cases hge : g e with
    | none =>
      rw [List.filterMap_cons_none hge]
      exact rising_mono (ih h.2) (by omega)
    | some e' =>
      rw [List.filterMap_cons_some hge]
      have hkey := hg e e' hge
      simp only [rising, Bool.and_eq_true, decide_eq_true_eq, hkey]
      exact ⟨h.1, ih h.2⟩

theorem rising_filter {α : Type} (p : Nat × α → Bool) {lo : Nat} {t : Tbl α} (h : rising lo t = true) :
    rising lo (t.filter p) = true := by
  rw [← List.filterMap_eq_filter]
  exact rising_filterMap (fun e e' he => by simp only [Option.guard_eq_some_iff] at he; rw [he.1]) h

theorem rising_foldl {α β : Type} {f : Tbl α → β → Tbl α} (hf : ∀ t x, rising 0 t = true → rising 0 (f t x) = true)
    {t : Tbl α} (h : rising 0 t = true) (l : List β) : rising 0 (l.foldl f t) = true :=
  List.foldlRecOn (motive := fun t => rising 0 t = true) l f h fun t ht x _ => hf t x ht

/-- Writes of a fold, each of one entry. -/
theorem rising_foldl_ins {α β : Type} [DecidableEq α] (d : α) (k : β → Nat) (v : Tbl α → β → α) {t : Tbl α}
    (h : rising 0 t = true) (l : List β) : rising 0 (l.foldl (fun t x => ins d t (k x) (v t x)) t) = true :=
  rising_foldl (fun _ _ ht => rising_ins d ht (Nat.zero_le _) _) h l

theorem mem_of_mem_ins {α : Type} [DecidableEq α] {d : α} {t : Tbl α} {k : Nat} {v : α} {e : Nat × α}
    (h : e ∈ ins d t k v) : e = (k, v) ∨ e ∈ t := by
  induction t with
  | nil =>
    simp only [ins] at h
    split at h
    · cases h
    · exact List.mem_cons.mp h
  | cons a t ih =>
    simp only [ins] at h
    split at h
    · split at h
      · exact .inr h
      · exact List.mem_cons.mp h
    · split at h
      · split at h
        · exact .inr (List.mem_cons_of_mem _ h)
        · exact (List.mem_cons.mp h).imp_right (List.mem_cons_of_mem _)
      · rcases List.mem_cons.mp h with h | h
        · exact .inr (h ▸ List.mem_cons_self)
        · exact (ih h).imp_right (List.mem_cons_of_mem _)

/-- What a table reads as is its default or the value of an entry. -/
theorem look_mem {α : Type} (d : α) (t : Tbl α) (k : Nat) : look d t k = d ∨ ∃ e ∈ t, look d t k = e.2 := by
  induction t with
  | nil => exact .inl rfl
  | cons e t ih =>
    simp only [look]
    split
    · exact .inr ⟨e, by simp, rfl⟩
    · exact ih.imp_right fun ⟨e', he', h⟩ => ⟨e', by simp [he'], h⟩

theorem boxBytes_rising (a : Nat) (l : List Byte) : rising a (boxBytes a l) = true := by
  induction l generalizing a with
  | nil => rfl
  | cons b l ih =>
    simp only [boxBytes]
    split
    · exact rising_mono (ih (a + 1)) (by omega)
    · simpa [rising] using ih (a + 1)

theorem Mailbox.setWord_rising {m : Mailbox} (h : rising 0 m.bytes = true) (o : Nat) (w : Word) :
    rising 0 (m.setWord o w).bytes = true :=
  rising_foldl_ins 0#8 _ _ h _

/-! ### The tables of a state -/

section
variable {s : State}

/-- An update of fields other than the tables. -/
theorem State.tablesRise.keep (h : s.tablesRise) {clock regs locks faults arms snapSeq snapAt injectWritten lastPass hold waiting
    response responseAt gate routes seed targetWindow targetLast bankWindow outWindow mbWindow locks' units lockLast refill clock'
    bootId localQ missQ lastAppend lastLocal spill tier1 staging left rewrites beat second beatAt issued walkLast wires levelSetAt
    dirty sweepAt brokeAt discLast islandA islandB wakeCause stbyOk rndHealth presence run engine tokens nextToken words wordsAt
    serviceAt held heldByRam restarting restartAt expiries intLast staged nextStage endedStages officers fetch digesting twin
    integrity fuses startup tap raised ovfs before pending} :
    State.tablesRise
      ⟨clock,
        ⟨regs, locks, faults, arms, s.front.counters, snapSeq, snapAt, injectWritten, lastPass, hold, waiting, response, responseAt⟩,
        s.ints, s.cores, s.ports, gate, routes,
        ⟨s.sluice.groups, seed, targetWindow, targetLast, bankWindow, outWindow, mbWindow, s.sluice.arbiters, locks', units, lockLast,
          refill, s.sluice.grants⟩,
        ⟨s.pump.cache, clock', bootId, localQ, missQ, lastAppend, lastLocal, spill, tier1, staging, left, rewrites, beat, second,
          beatAt, issued, walkLast⟩,
        ⟨wires, levelSetAt, s.levels.pairs, dirty, sweepAt, brokeAt, discLast, islandA, islandB, wakeCause, stbyOk, rndHealth,
          presence⟩,
        ⟨s.keeper.boxes, s.keeper.submitted, run, engine, tokens, nextToken, words, wordsAt, serviceAt, held, heldByRam, restarting,
          restartAt, expiries, intLast, staged, nextStage, endedStages, officers, fetch, digesting⟩,
        twin, integrity, fuses, startup, tap, raised, ovfs, before, pending⟩ :=
  h

theorem State.tablesRise.ite {c : Prop} [Decidable c] {t : State} (h : s.tablesRise) (h' : t.tablesRise) :
    (if c then s else t).tablesRise := by
  split
  · exact h
  · exact h'

theorem State.tablesRise.ite_snd {α : Type} {c : Prop} [Decidable c] {p q : α × State} (h : p.2.tablesRise)
    (h' : q.2.tablesRise) : (if c then p else q).2.tablesRise := by
  split
  · exact h
  · exact h'

theorem State.tablesRise.ite_half {c : Prop} [Decidable c] {p q : HalfResult} (h : p.s.tablesRise) (h' : q.s.tablesRise) :
    (if c then p else q).s.tablesRise := by
  split
  · exact h
  · exact h'

/-- The state of a pair that a match takes apart. -/
theorem State.tablesRise.of_snd {α : Type} {p : α × State} {a : α} {t : State} (h : p.2.tablesRise) (e : p = (a, t)) :
    t.tablesRise := by
  subst e; exact h

theorem State.tablesRise.foldl {α : Type} {f : State → α → State} (hf : ∀ s x, s.tablesRise → (f s x).tablesRise)
    {l : List α} (h : s.tablesRise) : (l.foldl f s).tablesRise :=
  List.foldlRecOn (motive := State.tablesRise) l f h fun s hs x _ => hf s x hs

theorem State.tablesRise.foldl_snd {α β : Type} {f : β × State → α → β × State}
    (hf : ∀ p x, p.2.tablesRise → (f p x).2.tablesRise) {l : List α} {p : β × State} (h : p.2.tablesRise) :
    (l.foldl f p).2.tablesRise :=
  List.foldlRecOn (motive := fun p : β × State => p.2.tablesRise) l f h fun p hp x _ => hf p x hp

theorem State.tablesRise.box_bytes (h : s.tablesRise) (n : Nat) : rising 0 (s.box n).bytes = true := by
  obtain ⟨_, _, _, _, _, _, _, _, _, _, _, bytes⟩ := h
  rcases look_mem Mailbox.reset s.keeper.boxes n with hr | ⟨e, he, hv⟩
  · rw [State.box, hr]; rfl
  · rw [State.box, hv]; exact bytes e he

/-! ### Writes of one table -/

theorem State.tablesRise.setCounter (h : s.tablesRise) {k c} : (s.setCounter k c).tablesRise :=
  ⟨rising_ins _ h.1 (Nat.zero_le _) _, h.2⟩

theorem State.tablesRise.setInts (h : s.tablesRise) {t} (ht : rising 0 t = true) : { s with ints := t }.tablesRise := by
  obtain ⟨counters, _, rest⟩ := h
  exact ⟨counters, ht, rest⟩

theorem State.tablesRise.setInt (h : s.tablesRise) {k x} : (s.setInt k x).tablesRise := by
  obtain ⟨_, ints, _⟩ := id h
  exact h.setInts (rising_ins _ ints (Nat.zero_le _) _)

theorem State.tablesRise.setCore (h : s.tablesRise) {n c} : (s.setCore n c).tablesRise := by
  obtain ⟨counters, ints, cores, rest⟩ := h
  exact ⟨counters, ints, rising_ins _ cores (Nat.zero_le _) _, rest⟩

theorem State.tablesRise.setPort (h : s.tablesRise) {p x} : (s.setPort p x).tablesRise := by
  obtain ⟨counters, ints, cores, ports, rest⟩ := h
  exact ⟨counters, ints, cores, rising_ins _ ports (Nat.zero_le _) _, rest⟩

theorem State.tablesRise.setGroup (h : s.tablesRise) {g x} : (s.setGroup g x).tablesRise := by
  obtain ⟨counters, ints, cores, ports, groups, rest⟩ := h
  exact ⟨counters, ints, cores, ports, rising_ins _ groups (Nat.zero_le _) _, rest⟩

theorem State.tablesRise.setGrants (h : s.tablesRise) {g} (hg : rising 0 g = true) :
    { s with sluice.grants := g }.tablesRise := by
  obtain ⟨counters, ints, cores, ports, groups, _, rest⟩ := h
  exact ⟨counters, ints, cores, ports, groups, hg, rest⟩

theorem State.tablesRise.grants (h : s.tablesRise) : rising 0 s.sluice.grants = true := by
  obtain ⟨_, _, _, _, _, grants, _⟩ := h
  exact grants

/-- A bank's grant noted. -/
theorem State.tablesRise.grantAt (h : s.tablesRise) {id e} :
    { s with sluice.grants := ins none s.sluice.grants id e }.tablesRise :=
  h.setGrants (rising_ins _ h.grants (Nat.zero_le _) _)

theorem State.tablesRise.setArb (h : s.tablesRise) {id a} :
    { s with sluice.arbiters := ins none s.sluice.arbiters id a }.tablesRise := by
  obtain ⟨counters, ints, cores, ports, groups, grants, arbiters, rest⟩ := h
  exact ⟨counters, ints, cores, ports, groups, grants, rising_ins _ arbiters (Nat.zero_le _) _, rest⟩

theorem State.tablesRise.setCache (h : s.tablesRise) {t} (ht : rising 0 t = true) : { s with pump.cache := t }.tablesRise := by
  obtain ⟨counters, ints, cores, ports, groups, grants, arbiters, _, rest⟩ := h
  exact ⟨counters, ints, cores, ports, groups, grants, arbiters, ht, rest⟩

theorem State.tablesRise.setCached (h : s.tablesRise) {c x} : (s.setCached c x).tablesRise := by
  obtain ⟨_, _, _, _, _, _, _, cache, _⟩ := id h
  exact h.setCache (rising_ins _ cache (Nat.zero_le _) _)

theorem State.tablesRise.setPair (h : s.tablesRise) {n p} : (s.setPair n p).tablesRise := by
  obtain ⟨counters, ints, cores, ports, groups, grants, arbiters, cache, pairs, rest⟩ := h
  exact ⟨counters, ints, cores, ports, groups, grants, arbiters, cache, rising_ins _ pairs (Nat.zero_le _) _, rest⟩

theorem State.tablesRise.setSubmitted (h : s.tablesRise) {n c} :
    { s with keeper.submitted := ins none s.keeper.submitted n c }.tablesRise := by
  obtain ⟨counters, ints, cores, ports, groups, grants, arbiters, cache, pairs, submitted, rest⟩ := h
  exact ⟨counters, ints, cores, ports, groups, grants, arbiters, cache, pairs, rising_ins _ submitted (Nat.zero_le _) _, rest⟩

/-- A mailbox written, its bytes a rising table themselves. -/
theorem State.tablesRise.setBox (h : s.tablesRise) {n} {m : Mailbox} (hm : rising 0 m.bytes = true) :
    (s.setBox n m).tablesRise := by
  obtain ⟨counters, ints, cores, ports, groups, grants, arbiters, cache, pairs, submitted, boxes, bytes⟩ := h
  refine ⟨counters, ints, cores, ports, groups, grants, arbiters, cache, pairs, submitted,
    rising_ins _ boxes (Nat.zero_le _) _, fun e he => ?_⟩
  rcases mem_of_mem_ins he with rfl | he
  · exact hm
  · exact bytes e he

/-- A mailbox changed in everything but its bytes. -/
theorem State.tablesRise.setBoxHead (h : s.tablesRise) {n st opcode seq} :
    (s.setBox n { st := st, bytes := (s.box n).bytes, opcode := opcode, seq := seq }).tablesRise :=
  h.setBox (h.box_bytes n)

theorem State.tablesRise.reset : State.reset.tablesRise := by
  simp [State.tablesRise, State.reset, RegFront.reset, Sluice.reset, Pump.reset, Levels.reset, Keeper.reset, rising]

end

end Sys2Proof.Machine
end

section
/-! SUPPORT. The operations of the intake, the reservoir, the sluice and the sets keep the tables rising. -/

namespace Sys2Proof.Machine
variable {s : State}

/-! ### The blocks of fields a shared operation writes -/

theorem State.tablesRise.modCore (h : s.tablesRise) {n f} : (s.modCore n f).tablesRise :=
  h.setCore

theorem State.tablesRise.modPort (h : s.tablesRise) {p f} : (s.modPort p f).tablesRise :=
  h.setPort

theorem State.tablesRise.modInt (h : s.tablesRise) {k f} : (s.modInt k f).tablesRise :=
  h.setInt

theorem State.tablesRise.modGroup (h : s.tablesRise) {g f} : (s.modGroup g f).tablesRise :=
  h.setGroup

theorem State.tablesRise.setFault (h : s.tablesRise) {frame w} : (s.setFault frame w).tablesRise :=
  h.keep

theorem State.tablesRise.setArm (h : s.tablesRise) {frame a} : (s.setArm frame a).tablesRise :=
  h.keep

theorem State.tablesRise.setFt (h : s.tablesRise) {i f} : (s.setFt i f).tablesRise :=
  h.keep

theorem State.tablesRise.setWire (h : s.tablesRise) {i w} : (s.setWire i w).tablesRise :=
  h.keep

theorem State.tablesRise.modCached (h : s.tablesRise) {c f} : (s.modCached c f).tablesRise :=
  h.setCached

theorem State.tablesRise.setLocalQ (h : s.tablesRise) {slice q} : (s.setLocalQ slice q).tablesRise :=
  h.keep

theorem State.tablesRise.setMissQ (h : s.tablesRise) {slice q} : (s.setMissQ slice q).tablesRise :=
  h.keep

theorem State.tablesRise.setWell (h : s.tablesRise) {b w} : (s.setWell b w).tablesRise := by
  unfold State.setWell
  dsimp only
  exact .ite h.keep h.keep

theorem State.tablesRise.modWell (h : s.tablesRise) {b f} : (s.modWell b f).tablesRise :=
  h.setWell

theorem State.tablesRise.modIslands (h : s.tablesRise) {f} : (s.modIslands f).tablesRise :=
  h.keep

theorem State.tablesRise.raise (h : s.tablesRise) {fev} : (s.raise fev).tablesRise :=
  h.keep

theorem State.tablesRise.countBy (h : s.tablesRise) {frame i k} : (s.countBy frame i k).tablesRise := by
  unfold State.countBy
  dsimp only
  exact .ite (h.setCounter.keep) h.setCounter

theorem State.tablesRise.count (h : s.tablesRise) {frame i} : (s.count frame i).tablesRise :=
  h.countBy

theorem State.tablesRise.event (h : s.tablesRise) {frame i fev} : (s.event frame i fev).tablesRise :=
  h.count.raise

theorem State.tablesRise.askUnit (h : s.tablesRise) {memory unit c} : (s.askUnit memory unit c).tablesRise :=
  h.keep

theorem State.tablesRise.askRead (h : s.tablesRise) {memory unit} : (s.askRead memory unit).tablesRise :=
  h.keep

theorem State.tablesRise.unlock (h : s.tablesRise) {memory bank} : (s.unlock memory bank).tablesRise :=
  h.keep

theorem State.tablesRise.mark (h : s.tablesRise) : (s.mark).tablesRise :=
  h.keep

/-! ### The register map -/

theorem State.tablesRise.setReg (h : s.tablesRise) {f o w} : (s.setReg f o w).tablesRise :=
  h.keep

/-! ### Pages, journals and locks (R139 to R166) -/

theorem State.tablesRise.trigger (h : s.tablesRise) {cause} : (s.trigger cause).tablesRise := by
  unfold State.trigger
  dsimp only
  split
  · exact h
  · split
    · exact .ite h.keep h
    · exact h.keep

theorem State.tablesRise.keepErrs (h : s.tablesRise) {b store page v} : (s.keepErrs b store page v).tablesRise := by
  unfold State.keepErrs
  split
  · exact h.modWell
  · exact h

theorem State.tablesRise.pageWritten (h : s.tablesRise) {store page} : (s.pageWritten store page).tablesRise := by
  unfold State.pageWritten
  dsimp only
  split
  · exact .ite h.keep h.keep
  · exact h.keep

theorem State.tablesRise.wroteWhole (h : s.tablesRise) {store page} : (s.wroteWhole store page).tablesRise :=
  h.modWell.modWell.pageWritten

theorem State.tablesRise.poisonIn (h : s.tablesRise) {b store page req} : (s.poisonIn b store page req).tablesRise :=
  h.modWell

theorem State.tablesRise.unpoison (h : s.tablesRise) {store page} : (s.unpoison store page).tablesRise :=
  h.modWell.modWell.wroteWhole

theorem State.tablesRise.countPoison (h : s.tablesRise) {scrub} : (s.countPoison scrub).tablesRise :=
  h.event.count

theorem State.tablesRise.countErr (h : s.tablesRise) {store page scrub heavy uncorr} :
    (s.countErr store page scrub heavy uncorr).tablesRise := by
  unfold State.countErr
  dsimp only
  exact .ite (.ite h.count.event h.count) (.keep (.ite h.count.event h.count))

theorem State.tablesRise.setEpoch (h : s.tablesRise) {store page b} : (s.setEpoch store page b).tablesRise :=
  h.keep

theorem State.tablesRise.rewriteEpoch (h : s.tablesRise) {store page} : (s.rewriteEpoch store page).tablesRise :=
  .wroteWhole (.ite h.setEpoch h)

theorem State.tablesRise.tallyErr (h : s.tablesRise) {store page scrub v} : (s.tallyErr store page scrub v).tablesRise := by
  unfold State.tallyErr
  dsimp only
  exact .keepErrs (.keepErrs (.ite h.countErr h))

theorem State.tablesRise.poisonWells (h : s.tablesRise) {store page req v} : (s.poisonWells store page req v).tablesRise := by
  unfold State.poisonWells
  dsimp only
  exact .ite (.poisonIn (.ite h.poisonIn h)) (.ite h.poisonIn h)

theorem State.tablesRise.uncorrTrigger (h : s.tablesRise) {v} : (s.uncorrTrigger v).tablesRise :=
  .ite h.trigger (.ite h.trigger h)

theorem State.tablesRise.askRebuild (h : s.tablesRise) {store page lost} : (s.askRebuild store page lost).tablesRise := by
  unfold State.askRebuild
  dsimp only
  exact .ite h.keep h

theorem State.tablesRise.takeUncorr (h : s.tablesRise) {store page req scrub v} :
    (s.takeUncorr store page req scrub v).tablesRise := by
  unfold State.takeUncorr
  dsimp only
  exact .askRebuild (.uncorrTrigger (.ite h.poisonWells.countPoison h.poisonWells))

theorem State.tablesRise.readPage (h : s.tablesRise) {store page req scrub r} :
    (s.readPage store page req scrub r).2.tablesRise := by
  unfold State.readPage
  dsimp only
  exact .ite_snd h.count (.ite_snd h.tallyErr h.tallyErr.takeUncorr)

theorem State.tablesRise.rewritePage (h : s.tablesRise) {store unit page} : (s.rewritePage store unit page).tablesRise := by
  unfold State.rewritePage
  dsimp only
  exact .ite h.askUnit h.askUnit.wroteWhole

theorem State.tablesRise.updatePage (h : s.tablesRise) {store unit page req} :
    (s.updatePage store unit page req).tablesRise := by
  unfold State.updatePage
  dsimp only
  exact .ite h.askUnit h.readPage.askUnit.wroteWhole

theorem State.tablesRise.updateCached (h : s.tablesRise) {c unit} : (s.updateCached c unit).tablesRise := by
  unfold State.updateCached
  dsimp only
  split
  · exact h.askUnit.wroteWhole
  · exact h.askUnit

/-! ### The reservoir (R74 to R103) -/

theorem State.tablesRise.withdrawN (h : s.tablesRise) {n} : (s.withdrawN n).tablesRise := by
  unfold State.withdrawN
  dsimp only
  split
  · exact h
  · exact .ite h h.modCore.modGroup.count

theorem State.tablesRise.withdrawF (h : s.tablesRise) {n} : (s.withdrawF n).tablesRise := by
  unfold State.withdrawF
  dsimp only
  split
  · exact h
  · exact .ite h h.modCore.count

theorem State.tablesRise.recheck (h : s.tablesRise) : (s.recheck).tablesRise := by
  unfold State.recheck
  dsimp only
  exact .foldl (fun _ _ h => .ite (.ite h h.withdrawN) (.withdrawF (.ite h h.withdrawN))) h

theorem State.tablesRise.unloadN (h : s.tablesRise) {n} : (s.unloadN n).tablesRise := by
  unfold State.unloadN
  dsimp only
  split
  · exact h
  · exact .ite h h.modCore.modGroup.count

theorem State.tablesRise.unloadF (h : s.tablesRise) {n} : (s.unloadF n).tablesRise := by
  unfold State.unloadF
  dsimp only
  split
  · exact h
  · exact .ite h h.modCore.count

theorem State.tablesRise.loadSlots (h : s.tablesRise) : (s.loadSlots).tablesRise :=
  .foldl (fun _ _ h => h.unloadN.unloadF) h

theorem State.tablesRise.updateInt (h : s.tablesRise) {key unit} : (s.updateInt key unit).tablesRise :=
  .ite h.rewritePage h.updatePage

theorem State.tablesRise.readInt (h : s.tablesRise) {key req} : (s.readInt key req).2.tablesRise :=
  .ite_snd h.readPage h

theorem State.tablesRise.voteFixed (h : s.tablesRise) {sweep copy store core intid} :
    (s.voteFixed sweep copy store core intid).tablesRise :=
  h.event.keep

theorem State.tablesRise.ftFix (h : s.tablesRise) {sweep i} : (s.ftFix sweep i).tablesRise := by
  unfold State.ftFix
  dsimp only
  split
  · exact h
  · split
    · exact h
    · exact h.voteFixed.keep

theorem State.tablesRise.ftWriteBack (h : s.tablesRise) : (s.ftWriteBack).tablesRise := by
  unfold State.ftWriteBack
  dsimp only
  exact .keep (.foldl (fun _ _ h => h.setFt) h)

theorem State.tablesRise.ftRead (h : s.tablesRise) {key} : (s.ftRead key).tablesRise :=
  .ite h.ftFix h

theorem State.tablesRise.pend (h : s.tablesRise) {key o} : (s.pend key o).tablesRise := by
  unfold State.pend
  dsimp only
  exact .ite (.count (.setInt (.ite h.ftRead.count h.ftRead))) (.updateInt (.setInt (.ite h.ftRead.count h.ftRead)))

theorem State.tablesRise.unmerge (h : s.tablesRise) : (s.unmerge).tablesRise :=
  h.setCounter

theorem State.tablesRise.take (h : s.tablesRise) {n fast p} : (s.take n fast p).tablesRise := by
  unfold State.take
  extract_lets _ acted unmerged unit taken withdrawn _ noted counted
  have hunmerged : unmerged.tablesRise := .ite h.modInt.unmerge h.modInt
  have hwithdrawn : withdrawn.tablesRise := .ite (hunmerged.updateInt.modCore.withdrawN) hunmerged.updateInt.modCore
  have hcounted : counted.tablesRise := State.tablesRise.count hwithdrawn.keep
  exact .ite (.ite hcounted.count.count hcounted.count) hcounted

theorem State.tablesRise.freeSlot (h : s.tablesRise) {n fast} : (s.freeSlot n fast).tablesRise :=
  h.modCore

theorem State.tablesRise.deactivate (h : s.tablesRise) {key} : (s.deactivate key).tablesRise :=
  h.modInt

theorem State.tablesRise.release (h : s.tablesRise) {n fast a usable} : (s.release n fast a usable).tablesRise := by
  unfold State.release
  dsimp only
  exact .ite h.freeSlot.deactivate.updateInt h.freeSlot

theorem State.tablesRise.drop (h : s.tablesRise) {n fast} : (s.drop n fast).tablesRise := by
  unfold State.drop
  dsimp only
  split
  · exact h
  · exact h.readInt.release.event.count

/-! ### The sluice and its groups (R180 to R212) -/

theorem State.tablesRise.presentN (h : s.tablesRise) {t g key} : (s.presentN t g key).tablesRise :=
  h.modCore

theorem State.tablesRise.targetRound (h : s.tablesRise) {t} : (s.targetRound t).tablesRise := by
  unfold State.targetRound
  split
  · exact h
  · extract_lets _ bids round many forced tied
    split
    · exact h
    · split
      · exact h
      · extract_lets _ counted
        have hmany : many.tablesRise := .ite h.count.count h.count
        have hforced : forced.tablesRise := .ite hmany.count hmany
        have htied : tied.tablesRise := .ite hforced.count hforced
        have hcounted : counted.tablesRise := .ite htied.count htied
        exact .foldl (fun _ _ h => h.modGroup) hcounted.presentN.modGroup

theorem State.tablesRise.fastRound (h : s.tablesRise) {n} : (s.fastRound n).tablesRise := by
  unfold State.fastRound
  dsimp only
  split
  · exact h
  · split
    · exact h
    · exact h.count.modCore

theorem State.tablesRise.measure (h : s.tablesRise) {w} : (s.measure w).tablesRise := by
  unfold State.measure
  dsimp only
  exact .ite (.count (.ite (.setReg (h.keep)) (h.keep))) (.ite (.setReg (h.keep)) (h.keep))

theorem State.tablesRise.measureAll (h : s.tablesRise) {e} : (s.measureAll e).tablesRise := by
  unfold State.measureAll
  dsimp only
  exact .ite h (.foldl (fun _ _ h => h.measure) (.foldl (fun _ _ h => h.modCore) h))

theorem State.tablesRise.groupIdle (h : s.tablesRise) {d g} : (s.groupIdle d g).tablesRise :=
  h.modGroup

theorem State.tablesRise.sluiceIdle (h : s.tablesRise) {d} : (s.sluiceIdle d).tablesRise :=
  .ite h (.foldl (fun _ _ h => h.groupIdle) h)

theorem State.tablesRise.wakeDrive (h : s.tablesRise) {n p} : (s.wakeDrive n p).tablesRise := by
  unfold State.wakeDrive
  dsimp only
  exact .ite h (.ite h.modCore.count h.modCore)

theorem State.tablesRise.wakeIdle (h : s.tablesRise) {d n} : (s.wakeIdle d n).tablesRise :=
  .foldl (fun _ _ h => h.wakeDrive) h

theorem State.tablesRise.wakesIdle (h : s.tablesRise) {d} : (s.wakesIdle d).tablesRise :=
  .ite h (.foldl (fun _ _ h => .ite h.wakeIdle h) h)

/-! ### Sets of an INTID (R99, R217) -/

theorem State.tablesRise.spillRec (h : s.tablesRise) {r} : (s.spillRec r).tablesRise :=
  h.keep

theorem State.tablesRise.spillDrop (h : s.tablesRise) : (s.spillDrop).tablesRise :=
  h.event

theorem State.tablesRise.pushLocal (h : s.tablesRise) {c r} : (s.pushLocal c r).tablesRise :=
  h.setLocalQ

theorem State.tablesRise.localOrDrop (h : s.tablesRise) {c r} : (s.localOrDrop c r).tablesRise :=
  .ite h.pushLocal h.spillDrop

theorem State.tablesRise.eventSet (h : s.tablesRise) {fev} : (s.eventSet fev).tablesRise := by
  unfold State.eventSet
  split
  · exact h.ftRead.localOrDrop
  · exact h.pend

theorem State.tablesRise.applyEvents (h : s.tablesRise) : (s.applyEvents).tablesRise := by
  unfold State.applyEvents
  dsimp only
  exact .foldl (fun _ _ h => h.eventSet) (h.keep)

theorem State.tablesRise.settle (h : s.tablesRise) {n : Nat} : (s.settle n).tablesRise := by
  induction n generalizing s with
  | zero => exact h.keep
  | succ n ih =>
    unfold State.settle
    exact .ite h (ih h.applyEvents)

theorem State.tablesRise.pendOrPoison (h : s.tablesRise) {key o rid} : (s.pendOrPoison key o rid).tablesRise := by
  unfold State.pendOrPoison
  dsimp only
  exact .ite h.readInt.pend h.readInt.spillRec

/-! ### The arbiters (R181) -/

theorem State.tablesRise.arbCharge (h : s.tablesRise) {id win idxs served} : (s.arbCharge id win idxs served).tablesRise :=
  h.setArb

theorem State.tablesRise.restArb (h : s.tablesRise) {id waits} : (s.restArb id waits).tablesRise := by
  unfold State.restArb
  split
  · exact h
  · exact h.setArb

theorem State.tablesRise.dropArb (h : s.tablesRise) {id} : (s.dropArb id).tablesRise :=
  h.setArb

theorem State.tablesRise.usedBox (h : s.tablesRise) : s.usedBox.tablesRise := by
  unfold State.usedBox
  split
  · exact h
  · exact h.setArb

theorem State.tablesRise.refillArb (h : s.tablesRise) {id waits} : (s.refillArb id waits).tablesRise :=
  h.setArb

theorem State.tablesRise.snapRefill (h : s.tablesRise) {kind} : (s.snapRefill kind).tablesRise := by
  unfold State.snapRefill
  dsimp only
  split
  · exact h
  · exact .foldl (fun _ _ h => h.keep) h
  · exact .foldl (fun _ _ h => h.keep) h
  · exact .foldl (fun _ _ h => h.keep) h

theorem State.tablesRise.setWindow (h : s.tablesRise) {kind e} : (s.setWindow kind e).tablesRise := by
  unfold State.setWindow
  dsimp only
  split
  · exact h.keep
  · exact h.keep
  · exact h.keep
  · exact h.keep

theorem State.tablesRise.boundary (h : s.tablesRise) {kind waits} : (s.boundary kind waits).tablesRise := by
  unfold State.boundary
  dsimp only
  refine .setWindow ?_
  split
  · exact .foldl (fun _ _ h => h.modGroup) h.count
  · exact .snapRefill (.foldl (fun _ _ h => h.refillArb) h)

end Sys2Proof.Machine
end

section
/-! SUPPORT. The operations of the pump, of the fetches and of the doorbells keep the tables rising. -/

namespace Sys2Proof.Machine
variable {s : State}

/-! ### The pump: lines, fills and the spillway (R236 to R256) -/

theorem State.tablesRise.settleDb (h : s.tablesRise) {p id code} : (s.settleDb p id code).tablesRise :=
  h.modPort

theorem State.tablesRise.settleRec (h : s.tablesRise) {r} : (s.settleRec r).tablesRise := by
  unfold State.settleRec
  split
  · exact h.settleDb
  · exact h

theorem State.tablesRise.markCode (h : s.tablesRise) {p id code} : (s.markCode p id code).tablesRise :=
  h.modPort

theorem State.tablesRise.countDenied (h : s.tablesRise) : (s.countDenied).tablesRise :=
  .ite h.count h

theorem State.tablesRise.spillTake (h : s.tablesRise) {r t} (e : s.spillTake r = some t) : t.tablesRise := by
  unfold State.spillTake at e
  split at e
  · cases e; exact h.settleRec.countDenied.spillDrop
  · split at e
    · cases e
    · cases e; exact .ite (.count (.count h.keep)) (.count h.keep)

theorem State.tablesRise.breakCistern (h : s.tablesRise) {c reason cause step} :
    (s.breakCistern c reason cause step).tablesRise := by
  unfold State.breakCistern
  dsimp only
  split
  · exact h
  · split
    · exact h
    · exact h.setCached.event.keep

theorem State.tablesRise.notifySet (h : s.tablesRise) {intid owner denied} : (s.notifySet intid owner denied).tablesRise := by
  unfold State.notifySet
  dsimp only
  split
  · exact .ite h.readInt.count.pend h.readInt.spillRec
  · split
    · exact h.spillRec
    · exact h

theorem State.tablesRise.notifyCistern (h : s.tablesRise) {c x} : (s.notifyCistern c x).tablesRise :=
  h.notifySet

theorem State.tablesRise.fireDue (h : s.tablesRise) {c} : (s.fireDue c).tablesRise := by
  unfold State.fireDue
  dsimp only
  split
  · exact h
  · exact .foldl (fun _ _ h => h.notifyCistern) h.setCached

theorem State.tablesRise.request (h : s.tablesRise) {r} : (s.request r).tablesRise :=
  h.keep

theorem State.tablesRise.evict (h : s.tablesRise) {c} : (s.evict c).tablesRise := by
  unfold State.evict
  split
  · exact h
  · extract_lets _ dropped notified
    have hdropped : dropped.tablesRise := h.count.updateCached.setCached
    have hnotified : notified.tablesRise := .ite hdropped hdropped.notifyCistern
    exact .ite (.ite hnotified.request hnotified) hdropped

theorem State.tablesRise.evictNext (h : s.tablesRise) {n sl : Nat} : (State.evictNext n sl s).tablesRise := by
  induction n generalizing s with
  | zero => exact h
  | succ n ih =>
    unfold State.evictNext
    split
    · exact h
    · split
      · exact h
      · exact .ite (ih h.count.breakCistern) h.evict

theorem State.tablesRise.claimEntry (h : s.tablesRise) {c} : (s.claimEntry c).2.tablesRise := by
  unfold State.claimEntry
  dsimp only
  split
  · exact h
  · exact h.evictNext

theorem State.tablesRise.startFetch (h : s.tablesRise) {c} : (s.startFetch c).2.tablesRise := by
  unfold State.startFetch
  dsimp only
  split
  · next t e => exact (h.claimEntry.of_snd e)
  · next _ t e => exact .request (.count ((h.claimEntry.of_snd e).setCached.keep))

theorem State.tablesRise.touch (h : s.tablesRise) {c} : (s.touch c).tablesRise :=
  h.modCached.keep

theorem State.tablesRise.removeEntry (h : s.tablesRise) {c} : (s.removeEntry c).tablesRise := by
  unfold State.removeEntry
  dsimp only
  exact .ite h.updateCached.setCached.startFetch h.updateCached.setCached

theorem State.tablesRise.headRead (h : s.tablesRise) {c} : (s.headRead c).tablesRise := by
  unfold State.headRead
  dsimp only
  split
  · exact h
  · exact .ite h.setCached h.setCached.request

theorem State.tablesRise.place (h : s.tablesRise) {c x r} : (s.place c x r).tablesRise := by
  unfold State.place
  extract_lets _ last gap crossing b y y' stored _ appended placed
  have happended : appended.tablesRise := h.setCached.keep
  have hplaced : placed.tablesRise := happended.count.touch.updateCached
  exact .ite hplaced.count hplaced

/-- The state in which an append leaves the pump, whatever became of the record. -/
def Appended.state : Appended → State
  | .waits s => s
  | .taken s => s
  | .missed s => s
  | .diverted s _ => s

theorem State.tablesRise.ite_appended {c : Prop} [Decidable c] {x y : Appended} (h : x.state.tablesRise)
    (h' : y.state.tablesRise) : (if c then x else y).state.tablesRise := by
  split
  · exact h
  · exact h'

theorem State.tablesRise.append (h : s.tablesRise) {c r first queued x} (e : s.append c r first queued = x) :
    x.state.tablesRise := by
  subst e
  unfold State.append
  extract_lets room
  split
  · refine .ite_appended h ?_
    · split
      · next t e => exact h.startFetch.of_snd e
      · next t e => exact h.startFetch.of_snd e
  · extract_lets held
    refine .ite_appended (.ite_appended h h) (.ite_appended h ?_)
    split
    · exact h
    · exact h
    · exact .ite_appended (.ite_appended h h) (.ite_appended h (.ite_appended h (.ite_appended
        (.ite_appended h h.setCached.headRead)
        (.ite_appended (.ite_appended h (.ite_appended h.setCached.count h)) (.ite_appended h h.place)))))
    · exact .ite_appended h h

theorem State.tablesRise.pushMiss (h : s.tablesRise) {c r} : (s.pushMiss c r).tablesRise :=
  h.setMissQ

theorem State.tablesRise.unhold (h : s.tablesRise) {c} : (s.unhold c).tablesRise :=
  h.modCached

theorem State.tablesRise.spent (h : s.tablesRise) {c} : (s.spent c).tablesRise :=
  h.modCached

theorem State.tablesRise.divertHead (h : s.tablesRise) {p id reason} : (s.divertHead p id reason).tablesRise :=
  h.modPort

theorem State.tablesRise.passLocal (h : s.tablesRise) {sl rest} : (s.passLocal sl rest).tablesRise :=
  h.setLocalQ.keep

theorem State.tablesRise.leaveLocal (h : s.tablesRise) {sl c r rest} : (s.leaveLocal sl c r rest).tablesRise := by
  unfold State.leaveLocal
  split
  · next t e => exact (h.spillTake e).passLocal
  · exact h.setLocalQ

theorem State.tablesRise.appendLocal (h : s.tablesRise) {sl} : (s.appendLocal sl).tablesRise := by
  unfold State.appendLocal
  split
  · exact h
  · split
    · exact h
    · split
      · exact h.leaveLocal
      · split
        · next t e => exact (h.append e)
        · next t e => exact (h.append e).passLocal
        · next t e => exact (h.append e).pushMiss.passLocal
        · next t _ e => exact (h.append e).unhold.leaveLocal

theorem State.tablesRise.leaveMiss (h : s.tablesRise) {sl c r new} : (s.leaveMiss sl c r new).tablesRise := by
  unfold State.leaveMiss
  split
  · next t e => exact (h.spillTake e).setMissQ
  · exact h.setMissQ

theorem State.tablesRise.missPass (h : s.tablesRise) {sl : Nat} {q : List (Nat × Rec)} {seen : List Nat} :
    (State.missPass sl q seen s).tablesRise := by
  induction q generalizing s seen with
  | nil => exact h
  | cons e rest ih =>
    unfold State.missPass
    split
    · exact ih h
    · split
      · exact .ite h.leaveMiss (ih h)
      · split
        · next t e => exact ih (h.append e)
        · next t e => exact (h.append e).setMissQ
        · next t e => exact ih (h.append e)
        · next t _ e => exact (h.append e).unhold.leaveMiss

theorem State.tablesRise.appendMiss (h : s.tablesRise) {sl} : (s.appendMiss sl).tablesRise :=
  h.missPass

/-! ### Descriptor fetches and fabric responses (R238 to R246) -/

theorem State.tablesRise.freeTag (h : s.tablesRise) {tag} : (s.freeTag tag).tablesRise :=
  h.keep

theorem State.tablesRise.stray (h : s.tablesRise) : (s.stray).tablesRise :=
  h.count

theorem State.tablesRise.answered (h : s.tablesRise) {tag read ok fits} {act : OutKind → State → State}
    (ha : ∀ {k t}, t.tablesRise → (act k t).tablesRise) : (s.answered tag read ok fits act).tablesRise := by
  unfold State.answered
  split
  · exact h.stray
  · split
    · exact h.stray
    · split
      · exact h
      · exact .ite h.freeTag (ha (.ite h.freeTag h.freeTag.count))

theorem State.tablesRise.cmdEnd (h : s.tablesRise) {c e} : (s.cmdEnd c e).tablesRise :=
  h.keep

theorem State.tablesRise.failFetch (h : s.tablesRise) {c at_ cause step} : (s.failFetch c at_ cause step).tablesRise := by
  unfold State.failFetch
  split
  · exact .ite h.breakCistern h
  · exact h

theorem State.tablesRise.breakUncached (h : s.tablesRise) {c cause step} : (s.breakUncached c cause step).tablesRise :=
  h.event.keep

theorem State.tablesRise.failEvicted (h : s.tablesRise) {c cause reason step} :
    (s.failEvicted c cause reason step).tablesRise := by
  unfold State.failEvicted
  split
  · exact h.breakCistern
  · split
    · next _ t e => exact (h.claimEntry.of_snd e).setCached.breakCistern
    · next t e => exact (h.claimEntry.of_snd e).breakUncached

theorem State.tablesRise.failLine (h : s.tablesRise) {c items reason cause} : (s.failLine c items reason cause).tablesRise := by
  unfold State.failLine
  dsimp only
  exact .breakCistern (.foldl (fun _ _ h => h.spillRec) h.modCached)

theorem State.tablesRise.failSpill (h : s.tablesRise) {items dead} : (s.failSpill items dead).tablesRise := by
  unfold State.failSpill
  dsimp only
  exact .foldl (fun _ _ h => h.settleRec.spillDrop) (.ite h.keep h)

theorem State.tablesRise.failPump (h : s.tablesRise) {k cause} : (s.failPump k cause).tablesRise := by
  unfold State.failPump
  dsimp only
  split
  · exact h.failFetch
  · exact h.failFetch
  · exact h.failFetch
  · exact h.cmdEnd
  · exact h.cmdEnd
  · exact h.cmdEnd
  · exact h.failEvicted
  · exact h.failEvicted
  · exact h.failLine
  · exact h.failSpill
  · exact h.failSpill
  · exact h
  · exact h

theorem State.tablesRise.gotLevel1 (h : s.tablesRise) {c e} : (s.gotLevel1 c e).tablesRise := by
  unfold State.gotLevel1
  split
  · exact .ite h (.ite h.setCached h.setCached.updateCached.request)
  · exact h

theorem State.tablesRise.gotDescriptor (h : s.tablesRise) {c w0 w1 w2 w3} : (s.gotDescriptor c w0 w1 w2 w3).tablesRise := by
  unfold State.gotDescriptor
  dsimp only
  split
  · exact .ite h (.ite h.setCached (.ite h.breakCistern (.ite h.count.breakCistern h.setCached.updateCached.request)))
  · exact h

theorem State.tablesRise.opened (h : s.tablesRise) {c x cross total consumed unit} :
    (s.opened c x cross total consumed unit).tablesRise :=
  h.setCached.updateCached

theorem State.tablesRise.gotControl (h : s.tablesRise) {c consumed producer} :
    (s.gotControl c consumed producer).tablesRise := by
  unfold State.gotControl
  split
  · exact .ite h (.ite h.setCached h.opened)
  · exact h

theorem State.tablesRise.cmdLevel1 (h : s.tablesRise) {c e} : (s.cmdLevel1 c e).tablesRise :=
  .ite h.cmdEnd h.request

theorem State.tablesRise.cmdDescriptor (h : s.tablesRise) {c w0 w1 w2 w3} : (s.cmdDescriptor c w0 w1 w2 w3).tablesRise := by
  unfold State.cmdDescriptor
  dsimp only
  exact .ite h.cmdEnd (.ite (.cmdEnd (h.keep)) (.ite (.cmdEnd (.count (h.keep))) (.request (h.keep))))

theorem State.tablesRise.cmdControl (h : s.tablesRise) {c consumed producer} :
    (s.cmdControl c consumed producer).tablesRise := by
  unfold State.cmdControl
  dsimp only
  exact .cmdEnd (h.keep)

theorem State.tablesRise.level1Response (h : s.tablesRise) {tag ok e} : (s.level1Response tag ok e).tablesRise := by
  unfold State.level1Response
  refine h.answered fun h => ?_
  split
  · exact .ite h.gotLevel1 h.failPump
  · exact .ite h.cmdLevel1 h.failPump
  · exact h

theorem State.tablesRise.descriptorResponse (h : s.tablesRise) {tag ok w0 w1 w2 w3} :
    (s.descriptorResponse tag ok w0 w1 w2 w3).tablesRise := by
  unfold State.descriptorResponse
  refine h.answered fun h => ?_
  split
  · exact .ite h.gotDescriptor h.failPump
  · exact .ite h.cmdDescriptor h.failPump
  · exact h

theorem State.tablesRise.controlResponse (h : s.tablesRise) {tag ok consumed producer} :
    (s.controlResponse tag ok consumed producer).tablesRise := by
  unfold State.controlResponse
  refine h.answered fun h => ?_
  split
  · exact .ite h.gotControl h.failPump
  · exact .ite h.cmdControl h.failPump
  · exact h

theorem State.tablesRise.refresh (h : s.tablesRise) {c consumed} : (s.refresh c consumed).tablesRise := by
  unfold State.refresh
  dsimp only
  split
  · exact h
  · exact .ite h (.ite (.headRead (.setCached (.ite h.count h))) (.setCached (.ite h.count h)))

theorem State.tablesRise.headResponse (h : s.tablesRise) {tag ok consumed} : (s.headResponse tag ok consumed).tablesRise := by
  unfold State.headResponse
  refine h.answered fun h => ?_
  split
  · exact .ite h.refresh h.failPump
  · exact h

theorem State.tablesRise.lineDone (h : s.tablesRise) {k} : (s.lineDone k).tablesRise := by
  unfold State.lineDone
  dsimp only
  split
  · exact .fireDue (.modCached (.foldl (fun _ _ h => h.settleRec) h.count))
  · exact .foldl (fun _ _ h => .ite h h.notifySet) (.foldl (fun _ _ h => h.settleRec) h.count)
  · exact .foldl (fun _ _ h => h.settleRec) h.count
  · exact h

theorem State.tablesRise.keepLine (h : s.tablesRise) {a} : (s.keepLine a).tablesRise :=
  h.keep

theorem State.tablesRise.lineResponse (h : s.tablesRise) {tag ok} : (s.lineResponse tag ok).tablesRise := by
  unfold State.lineResponse
  extract_lets t
  have ht : t.tablesRise := h.answered fun h => .ite h.lineDone h.failPump
  split
  · exact .ite ht.keepLine ht
  · exact ht

theorem State.tablesRise.producerResponse (h : s.tablesRise) {tag ok} : (s.producerResponse tag ok).tablesRise := by
  unfold State.producerResponse
  extract_lets t
  have ht : t.tablesRise := h.answered fun h => .ite h h.failPump
  split
  · exact .ite ht.keepLine ht
  · exact ht

theorem State.tablesRise.floatPoll (h : s.tablesRise) {c} : (s.floatPoll c).tablesRise := by
  unfold State.floatPoll
  dsimp only
  split
  · exact .ite h.headRead h
  · exact h

theorem State.tablesRise.holdRefresh (h : s.tablesRise) {c} : (s.holdRefresh c).tablesRise := by
  unfold State.holdRefresh
  split
  · split
    · exact .ite h.headRead h
    · exact h
  · exact h

theorem State.tablesRise.holdLimit (h : s.tablesRise) {c} : (s.holdLimit c).tablesRise := by
  unfold State.holdLimit
  split
  · split
    · extract_lets limit freed atHead sl out
      have hfreed : freed.tablesRise := h.unhold
      split
      · exact h
      · split
        · split
          · exact hfreed.divertHead
          · exact hfreed
        · exact .ite hfreed.setMissQ hfreed.setLocalQ
    · exact h
  · exact h

theorem State.tablesRise.coalTimer (h : s.tablesRise) {c} : (s.coalTimer c).tablesRise := by
  unfold State.coalTimer
  split
  · split
    · exact .ite h.setCached.fireDue h
    · exact h
  · exact h

/-! ### The look-ups of the stores -/

theorem State.tablesRise.refuses (h : s.tablesRise) {p} : (s.refuses p).tablesRise :=
  .ite h h.count

theorem State.tablesRise.markOld (h : s.tablesRise) {hh} : (s.markOld hh).tablesRise := by
  unfold State.markOld
  dsimp only
  exact .foldl (fun _ _ h => h.modPort) h

theorem State.tablesRise.enter (h : s.tablesRise) {p d fast np} : (s.enter p d fast np).tablesRise :=
  h.modPort

theorem State.tablesRise.acceptN (h : s.tablesRise) {p data rid np} : (s.acceptN p data rid np).tablesRise := by
  unfold State.acceptN
  dsimp only
  exact .ite h (.ite (.ite h.enter.count.count h.enter.count) h.refuses)

theorem State.tablesRise.decode (h : s.tablesRise) {p d edge} : (s.decode p d edge).1.tablesRise := by
  unfold State.decode
  dsimp only
  split
  · exact h
  · exact .ite h.modPort.count h.modPort

theorem State.tablesRise.decodePort (h : s.tablesRise) {last e p} : (s.decodePort last e p).tablesRise := by
  unfold State.decodePort
  refine .foldl (fun _ _ h => ?_) h
  dsimp only
  split
  · exact h
  · exact .ite h.decode.modPort h

theorem State.tablesRise.decodeAll (h : s.tablesRise) {last e} : (s.decodeAll last e).tablesRise :=
  .foldl (fun _ _ h => h.decodePort) h

theorem State.tablesRise.setHash (h : s.tablesRise) {rights hh} : (s.setHash rights hh).tablesRise := by
  unfold State.setHash
  dsimp only
  exact .ite h.keep h.keep

theorem State.tablesRise.answerError (h : s.tablesRise) {p d} : (s.answerError p d).tablesRise := by
  unfold State.answerError
  dsimp only
  exact .ite h (.ite h.modPort.count h.modPort)

theorem State.tablesRise.errorsNow {t : State} (h : t.tablesRise) {s : State} {rights page} :
    (s.errorsNow rights page t).tablesRise :=
  .foldl (fun _ _ h => .foldl (fun _ _ h => h.answerError) h) h

theorem State.tablesRise.lookupRound (h : s.tablesRise) {rights bank pr} : (s.lookupRound rights bank pr).tablesRise := by
  unfold State.lookupRound
  extract_lets reqs ports id forced k
  split
  · exact h
  · split
    · exact h
    · split
      · exact h
      · extract_lets served denied charged forcing granted hits misses hash hashed _ noted phys r t
        have hcharged : charged.tablesRise := h.arbCharge
        have hforcing : forcing.tablesRise := .ite hcharged.count hcharged
        clear_value forcing
        have hhashed : hashed.tablesRise := hforcing.count.countBy.countBy.setHash
        clear_value hashed
        have hnoted : noted.tablesRise := hhashed.grantAt
        clear_value noted
        have hr : r.2.tablesRise := hnoted.readPage
        have ht : t.tablesRise := .ite (State.tablesRise.errorsNow hr) hr
        exact .foldl (fun _ _ h => h.modPort) ht

theorem State.tablesRise.recordFault (h : s.tablesRise) {p d fast error reason host} :
    (s.recordFault p d fast error reason host).tablesRise :=
  h.modPort.keep

theorem State.tablesRise.faultCounts (h : s.tablesRise) {p d fast reason host} :
    (s.faultCounts p d fast reason host).tablesRise := by
  unfold State.faultCounts
  dsimp only
  exact .ite h.recordFault.count.event.count.count.markCode h.recordFault.count.event.count.count

theorem State.tablesRise.passCounts (h : s.tablesRise) {host} : (s.passCounts host).tablesRise :=
  h.count.count

theorem State.tablesRise.fill (h : s.tablesRise) {p d} : (s.fill p d).tablesRise := by
  unfold State.fill
  dsimp only
  split
  · exact .ite h h.modPort
  · exact h

theorem State.tablesRise.emptyCaches (h : s.tablesRise) : (s.emptyCaches).tablesRise := by
  unfold State.emptyCaches
  dsimp only
  exact .keep (.foldl (fun _ _ h => h.modPort) h)

/-! ### Doorbells (R112 to R142) -/

theorem State.tablesRise.popN (h : s.tablesRise) {p} : (s.popN p).tablesRise :=
  h.modPort

theorem State.tablesRise.headFault (h : s.tablesRise) {p d reason} : (s.headFault p d reason).tablesRise := by
  unfold State.headFault
  dsimp only
  split
  · exact h
  · next t e => 
      split
      · next t e => exact (h.faultCounts.spillTake e).popN
      · exact h.faultCounts

theorem State.tablesRise.markError (h : s.tablesRise) {p d} : (s.markError p d).tablesRise := by
  unfold State.markError
  dsimp only
  exact .ite h (.ite h.recordFault.markCode h.recordFault)

theorem State.tablesRise.headDivert (h : s.tablesRise) {p d reason} : (s.headDivert p d reason).tablesRise := by
  unfold State.headDivert
  split
  · exact h.divertHead
  · next t e => 
      split
      · next t e => exact (h.markError.spillTake e).passCounts.fill.popN
      · exact h

theorem State.tablesRise.headSet (h : s.tablesRise) {p d pr} : (s.headSet p d pr).tablesRise := by
  unfold State.headSet
  extract_lets _ r
  have hr : r.2.tablesRise := .ite_snd h h.readPage
  exact .ite hr.passCounts.fill.popN.markError.pend.settleDb hr.headDivert

theorem State.tablesRise.breakPage (h : s.tablesRise) {page} : (s.breakPage page).tablesRise := by
  unfold State.breakPage
  dsimp only
  exact .unpoison (.foldl (fun _ _ h => h.breakCistern) h)

theorem State.tablesRise.readEntry (h : s.tablesRise) {c pr} : (s.readEntry c pr).tablesRise := by
  unfold State.readEntry
  dsimp only
  split
  · exact .ite h.readPage h.readPage.breakPage
  · exact h

theorem State.tablesRise.chargeInput (h : s.tablesRise) {p c ports first} : (s.chargeInput p c ports first).tablesRise := by
  unfold State.chargeInput
  dsimp only
  exact .ite (.dropArb (.arbCharge (.ite h.count h))) (.arbCharge (.ite h.count h))

theorem State.tablesRise.restInput (h : s.tablesRise) {c} : (s.restInput c).tablesRise :=
  .ite h.dropArb h

theorem State.tablesRise.headRecord (h : s.tablesRise) {p d c pr} : (s.headRecord p d c pr).tablesRise := by
  unfold State.headRecord
  dsimp only
  split
  · exact h
  · split
    · next t e => exact (h.readEntry.append e)
    · next t e => exact (h.readEntry.append e).pushMiss.passCounts.fill.popN.markError
    · next t _ e => exact (h.readEntry.append e).spent.headDivert.restInput
    · next t e => exact .ite h.readEntry (h.readEntry.append e).chargeInput.passCounts.fill.popN.markError

theorem State.tablesRise.effectN (h : s.tablesRise) {p pr} : (s.effectN p pr).tablesRise := by
  unfold State.effectN
  split
  · exact h
  · split
    · exact h.headFault
    · split
      · exact h.headDivert
      · split
        · exact h.headRecord
        · exact h.headSet

theorem State.tablesRise.acceptF (h : s.tablesRise) {p data rid np} : (s.acceptF p data rid np).tablesRise := by
  unfold State.acceptF
  dsimp only
  exact .ite h (.ite (.ite (.count (.count (.ite h.enter.ftFix h.enter))) (.count (.ite h.enter.ftFix h.enter))) h.refuses)

theorem State.tablesRise.effectF (h : s.tablesRise) {p} : (s.effectF p).tablesRise := by
  unfold State.effectF
  dsimp only
  split
  · exact h
  · exact .ite h (.ite h.passCounts.modPort.pend.settleDb (.ite h h.faultCounts.modPort.modPort))

theorem State.tablesRise.respond (h : s.tablesRise) {p} : (s.respond p).tablesRise := by
  unfold State.respond
  split
  · exact h
  · split
    · exact h
    · exact .ite h (.ite h.modPort.count h.modPort)

theorem State.tablesRise.discardNow (h : s.tablesRise) {p} : (s.discardNow p).tablesRise := by
  unfold State.discardNow
  dsimp only
  exact .ite h.modPort.count h

theorem State.tablesRise.maskPort (h : s.tablesRise) {p} : (s.maskPort p).tablesRise := by
  unfold State.maskPort
  dsimp only
  exact .ite h.discardNow.modPort.event h

theorem State.tablesRise.unmaskPort (h : s.tablesRise) {p} : (s.unmaskPort p).tablesRise :=
  h.modPort

theorem State.tablesRise.releaseShadow (h : s.tablesRise) : (s.releaseShadow).tablesRise :=
  h.keep

theorem State.tablesRise.spillAppend (h : s.tablesRise) {src} : (s.spillAppend src).tablesRise := by
  unfold State.spillAppend
  dsimp only
  split
  · exact .ite h.effectN h
  · split
    · exact h
    · split
      · exact h
      · next t e => exact (h.spillTake e).modPort
  · split
    · exact h
    · split
      · exact h
      · next t e => exact (.spillTake (h.keep) e)

theorem State.tablesRise.cisternAppend (h : s.tablesRise) {src pr} : (s.cisternAppend src pr).tablesRise := by
  unfold State.cisternAppend
  dsimp only
  split
  · split
    · exact .ite h.effectN h
    · exact h
  · split
    · exact h.readEntry.appendLocal
    · exact h
  · split
    · exact h.readEntry.appendMiss
    · exact h
  · split
    · split
      · split
        · exact h.readEntry.appendMiss
        · split
          · exact h.readEntry.appendLocal
          · split
            · exact h.readEntry.effectN
            · exact h.readEntry
      · exact h
    · exact h

end Sys2Proof.Machine
end

section
/-! SUPPORT. The operations of the Keeper, the stores and the level inputs keep the tables rising. -/

namespace Sys2Proof.Machine
variable {s : State}

/-! ### The fuses -/

theorem State.tablesRise.setFuse (h : s.tablesRise) {w c} : (s.setFuse w c).tablesRise :=
  h.keep

theorem State.tablesRise.senseFuses (h : s.tablesRise) : (s.senseFuses).tablesRise :=
  h.keep

theorem State.tablesRise.drift (h : s.tablesRise) {l} : (s.drift l).tablesRise := by
  unfold State.drift
  dsimp only
  exact .foldl (fun _ _ h => .ite h.setFuse h) h

theorem State.tablesRise.resense (h : s.tablesRise) : s.resense.2.2.tablesRise :=
  .foldl (fun _ _ h => h.event) h

theorem State.tablesRise.burnCopy (h : s.tablesRise) {w copy v clean} : (s.burnCopy w copy v clean).tablesRise :=
  h.setFuse

/-! ### The Keeper (R298 to R320) -/

theorem State.tablesRise.notifyBox (h : s.tablesRise) {host} : (s.notifyBox host).tablesRise := by
  unfold State.notifyBox
  dsimp only
  exact .ite h (.ite h.pendOrPoison h.count)

theorem State.tablesRise.finish (h : s.tablesRise) {c status result} : (s.finish c status result).tablesRise :=
  .notifyBox (.foldl (fun _ _ h => h.unpoison) (h.setBox (boxBytes_rising 0 _)).askUnit)

theorem State.tablesRise.done (h : s.tablesRise) {c status result} : (s.done c status result).tablesRise :=
  h.count.finish

theorem State.tablesRise.endRun (h : s.tablesRise) {status result} : (s.endRun status result).tablesRise := by
  unfold State.endRun
  dsimp only
  split
  · exact h
  · exact h.usedBox.done.keep

theorem State.tablesRise.endZero (h : s.tablesRise) {status} : (s.endZero status).tablesRise := by
  unfold State.endZero
  split
  · exact h.endRun
  · exact h

theorem State.tablesRise.endCount (h : s.tablesRise) {status n} : (s.endCount status n).tablesRise :=
  h.endRun

theorem State.tablesRise.endStrength (h : s.tablesRise) {status} : (s.endStrength status).tablesRise := by
  unfold State.endStrength
  split
  · exact h.endRun
  · exact h

theorem State.tablesRise.setRun (h : s.tablesRise) {r} : (s.setRun r).tablesRise :=
  h.keep

theorem State.tablesRise.setToken (h : s.tablesRise) {host t} : (s.setToken host t).tablesRise :=
  h.keep

theorem State.tablesRise.unaskRekeys (h : s.tablesRise) : (s.unaskRekeys).tablesRise :=
  h.keep

theorem State.tablesRise.dropImage (h : s.tablesRise) : (s.dropImage).tablesRise :=
  h.keep

theorem State.tablesRise.voidToken (h : s.tablesRise) {host} : (s.voidToken host).tablesRise := by
  unfold State.voidToken
  split
  · exact h
  · extract_lets unset _ digest rekey _ reencode
    have hdigest : digest.tablesRise := .ite h.setToken.keep h.setToken
    have hrekey : rekey.tablesRise := .ite hdigest.unaskRekeys hdigest
    have hreencode : reencode.tablesRise := .ite hrekey.keep hrekey
    exact .ite hreencode.dropImage hreencode

theorem State.tablesRise.preempt (h : s.tablesRise) : (s.preempt).tablesRise := by
  unfold State.preempt
  dsimp only
  split
  · exact h
  · exact .done (.count (.setToken (.voidToken (h.keep))))

theorem State.tablesRise.enterGroup (h : s.tablesRise) {c t} (e : s.enterGroup c = some t) : t.tablesRise := by
  unfold State.enterGroup at e
  split at e
  · cases e; exact h
  · split at e
    · cases e
    · split at e
      · cases e
      · cases e; exact .foldl (fun _ _ h => h.voidToken) h

theorem State.tablesRise.expireToken (h : s.tablesRise) {host} : (s.expireToken host).tablesRise := by
  unfold State.expireToken
  split
  · exact .ite h.voidToken h
  · exact h

theorem State.tablesRise.askWords (h : s.tablesRise) {r} : (s.askWords r).tablesRise :=
  h.keep

theorem State.tablesRise.startHead (h : s.tablesRise) : (s.startHead).tablesRise := by
  unfold State.startHead
  dsimp only
  split
  · exact .ite h.keep h
  · exact h

theorem State.tablesRise.enqueue (h : s.tablesRise) {r lasts} : (s.enqueue r lasts).tablesRise := by
  unfold State.enqueue
  dsimp only
  exact .startHead (h.keep)

theorem State.tablesRise.dequeue (h : s.tablesRise) : (s.dequeue).tablesRise := by
  unfold State.dequeue
  dsimp only
  exact .startHead (h.keep)

theorem State.tablesRise.endEngine (h : s.tablesRise) {e status result} : (s.endEngine e status result).tablesRise :=
  h.dequeue.done

theorem State.tablesRise.wordsTimeout (h : s.tablesRise) : s.wordsTimeout.tablesRise := by
  unfold State.wordsTimeout
  extract_lets waits unasked
  have hunasked : unasked.tablesRise := by
    dsimp only [unasked]
    split
    · exact .ite h.unaskRekeys h
    · exact h
  split
  · exact hunasked.endZero
  · split
    · exact .ite h.endEngine h
    · exact h

theorem State.tablesRise.endStaged (h : s.tablesRise) : (s.endStaged).tablesRise := by
  unfold State.endStaged
  dsimp only
  split
  · exact h
  · exact h.keep

theorem State.tablesRise.voidStaged (h : s.tablesRise) : (s.voidStaged).tablesRise := by
  unfold State.voidStaged
  split
  · exact h
  · exact h.endStaged.event

theorem State.tablesRise.abandon (h : s.tablesRise) {op} : (s.abandon op).tablesRise := by
  unfold State.abandon
  dsimp only
  exact .ite (.unaskRekeys h.keep) (.ite h.keep (.ite h.keep (.ite (.dropImage h.keep) h.keep)))

theorem State.tablesRise.watchdog (h : s.tablesRise) : s.watchdog.tablesRise := by
  unfold State.watchdog
  split
  · exact h
  · extract_lets counted left cmds _ cleared ended voided unstaged recent _ restarted
    have hleft : left.tablesRise := by
      dsimp only [left]
      split <;> exact h.event.abandon
    have hcleared : cleared.tablesRise := hleft.keep
    have hended : ended.tablesRise := .foldl (fun _ _ h => h.done) hcleared
    have hvoided : voided.tablesRise := .foldl (fun _ _ h => h.voidToken) hended
    have hrestarted : restarted.tablesRise := hvoided.voidStaged.keep
    exact .ite hrestarted.keep hrestarted

theorem State.tablesRise.restartDone (h : s.tablesRise) {romOk} : (s.restartDone romOk).tablesRise := by
  unfold State.restartDone
  dsimp only
  exact .ite (.startHead (h.keep)) h

theorem State.tablesRise.keeperTake (h : s.tablesRise) {fast} : (s.keeperTake fast).tablesRise := by
  unfold State.keeperTake
  dsimp only
  split
  · exact h
  · exact .ite (.ite h.readInt.withdrawF h.readInt.withdrawN) (h.readInt.take.count.keep)

theorem State.tablesRise.keeperComplete (h : s.tablesRise) {fast} : (s.keeperComplete fast).tablesRise := by
  unfold State.keeperComplete
  dsimp only
  split
  · exact h
  · exact h.readInt.release.count

theorem State.tablesRise.servicePoint (h : s.tablesRise) : (s.servicePoint).tablesRise := by
  unfold State.servicePoint
  split
  · exact h
  · split
    · exact h.keep
    · extract_lets _ served fast taken completed
      have hserved : served.tablesRise := h.keep
      have hcompleted : completed.tablesRise := hserved.keeperTake.keeperTake.keeperComplete.keeperComplete
      split
      · exact .ite hcompleted.preempt hcompleted
      · exact hcompleted

theorem State.tablesRise.takeCmd (h : s.tablesRise) {c} : (s.takeCmd c).tablesRise := by
  unfold State.takeCmd
  extract_lets _ taken _ running asked
  have htaken : taken.tablesRise := h.setSubmitted
  have hrunning : running.tablesRise := .askUnit htaken.setBoxHead
  have hasked : asked.tablesRise := hrunning.askUnit
  split
  · exact hasked.done
  · split
    · exact .ite hasked.count.finish hasked.finish
    · exact hasked.setRun

theorem State.tablesRise.mailboxRound (h : s.tablesRise) : (s.mailboxRound).tablesRise := by
  unfold State.mailboxRound
  dsimp only
  split
  · exact h
  · split
    · split
      · exact h
      · split
        · split
          · exact h.arbCharge.takeCmd
          · exact h.arbCharge
        · exact h
    · split
      · exact h
      · split
        · exact h
        · split
          · exact h
          · split
            · exact h.arbCharge
            · split
              · exact h.preempt.arbCharge.takeCmd
              · exact h.preempt.arbCharge

theorem State.tablesRise.commandResume (h : s.tablesRise) : (s.commandResume).tablesRise := by
  unfold State.commandResume
  dsimp only
  split
  · exact h
  · split
    · exact h
    · split
      · exact h
      · split
        · exact h.endZero
        · exact h.setToken.setRun

/-! ### The item writes of the stores -/

theorem State.tablesRise.dropReserved (h : s.tablesRise) : (s.dropReserved).tablesRise :=
  h.keep

theorem State.tablesRise.reserveShadows (h : s.tablesRise) {r rights n counted} :
    (s.reserveShadows r rights n counted).tablesRise := by
  unfold State.reserveShadows
  dsimp only
  exact .ite (.setRun (h.keep)) (.ite h.setRun.count h.setRun)

theorem State.tablesRise.reserveShadow (h : s.tablesRise) {r counted} : (s.reserveShadow r counted).tablesRise :=
  h.reserveShadows

theorem State.tablesRise.pageTurn (h : s.tablesRise) : (s.pageTurn).tablesRise := by
  unfold State.pageTurn
  dsimp only
  split
  · exact .ite h h.reserveShadows
  · exact h

theorem State.tablesRise.shadowReserve (h : s.tablesRise) : (s.shadowReserve).tablesRise := by
  unfold State.shadowReserve
  split
  · split
    · exact h.reserveShadow
    · split
      · exact .ite h h.reserveShadows
      · exact h
  · exact h

theorem State.tablesRise.unitRound (h : s.tablesRise) {m} : (s.unitRound m).tablesRise := by
  unfold State.unitRound
  dsimp only
  split
  · exact h
  · split
    · exact h
    · split
      · exact h
      · exact .keep (.arbCharge (.ite h.count h))

theorem State.tablesRise.chargeMaint (h : s.tablesRise) {who m b} : (s.chargeMaint who m b).tablesRise := by
  unfold State.chargeMaint
  dsimp only
  exact .arbCharge (.ite h.count h)

theorem State.tablesRise.lockFor (h : s.tablesRise) {m b owner length} : (s.lockFor m b owner length).tablesRise :=
  h.chargeMaint.keep

theorem State.tablesRise.digestRead (h : s.tablesRise) {r m b} : (s.digestRead r m b).tablesRise :=
  .setRun h.chargeMaint.grantAt

theorem State.tablesRise.grantKeeper (h : s.tablesRise) : s.grantKeeper.tablesRise := by
  unfold State.grantKeeper
  extract_lets granted mine
  have hgranted : granted.tablesRise := by
    dsimp only [granted]
    split
    · exact .ite (.ite h.digestRead h) (.ite h.lockFor.setRun h)
    · exact h
  clear_value granted
  refine .ite h ?_
  split
  · split
    · extract_lets locked
      have hlocked : locked.tablesRise := hgranted.lockFor
      split
      · exact .ite hlocked.setRun hlocked
      · exact hlocked
    · exact hgranted
  · exact hgranted

theorem State.tablesRise.stopReencode (h : s.tablesRise) {status} : (s.stopReencode status).tablesRise := by
  unfold State.stopReencode
  dsimp only
  exact .ite (.endStrength (h.keep)) h

theorem State.tablesRise.shadowWrite (h : s.tablesRise) {rights idx} : (s.shadowWrite rights idx).tablesRise :=
  h.keep

theorem State.tablesRise.setRoute (h : s.tablesRise) {x r} : (s.setRoute x r).tablesRise := by
  unfold State.setRoute
  dsimp only
  exact .ite (.keep (.ite (.setFt (h.keep)) (h.keep))) (.ite (.setFt (h.keep)) (h.keep))

theorem State.tablesRise.nextItem (h : s.tablesRise) {r} : (s.nextItem r).tablesRise := by
  unfold State.nextItem
  dsimp only
  exact .ite h.setRun.endCount h.reserveShadow

theorem State.tablesRise.failItem (h : s.tablesRise) {r status m b} : (s.failItem r status m b).tablesRise :=
  h.unlock.dropReserved.setRun.endCount

theorem State.tablesRise.routeItem (h : s.tablesRise) {pr} : (s.routeItem pr).tablesRise := by
  unfold State.routeItem
  split
  · exact h
  · split
    · extract_lets x page b rd read written
      have hrd : rd.2.tablesRise := h.readPage
      have hwritten : written.tablesRise := hrd.rewriteEpoch.shadowWrite.setRoute.emptyCaches
      exact .ite (.ite hrd.failItem h) (.ite h hwritten.recheck.count.unlock.nextItem)
    · exact h

theorem State.tablesRise.rightsItem (h : s.tablesRise) {pr} : (s.rightsItem pr).tablesRise := by
  unfold State.rightsItem
  split
  · exact h
  · split
    · extract_lets rid halves page b rd old inForce names both low shadowed _ written
      have hrd : rd.2.tablesRise := h.readPage
      have hwritten : written.tablesRise := hrd.rewriteEpoch.shadowWrite.keep
      exact .ite (.ite hrd.failItem h) (.ite h (.ite hrd.failItem hwritten.emptyCaches.count.unlock.nextItem))
    · exact h

theorem State.tablesRise.monitorClose (h : s.tablesRise) {rights} : (s.monitorClose rights).tablesRise := by
  unfold State.monitorClose
  dsimp only
  exact .ite h (.ite h.setHash (.ite h.setHash.event h.setHash.event.count))

theorem State.tablesRise.rekeyStart (h : s.tablesRise) {rights} : (s.rekeyStart rights).tablesRise := by
  unfold State.rekeyStart
  dsimp only
  exact .ite h.setHash.count h

theorem State.tablesRise.rowTick (h : s.tablesRise) {rights} : (s.rowTick rights).tablesRise := by
  unfold State.rowTick
  dsimp only
  exact .ite h.setHash h

theorem State.tablesRise.readRow (h : s.tablesRise) {store row pages} : (s.readRow store row pages).2.tablesRise := by
  unfold State.readRow
  exact State.tablesRise.foldl_snd (β := Nat) (fun p x h => State.tablesRise.readPage h) (p := (0, s)) h

theorem State.tablesRise.rowWrite (h : s.tablesRise) {rights pages} : (s.rowWrite rights pages).tablesRise := by
  unfold State.rowWrite
  extract_lets hash m rd held row fresh old d _ _ granted moved epochs counted next
  have hrd : rd.2.tablesRise := h.readRow
  have hheld : rising 0 held = true := rising_foldl_ins none _ _ h.grants _
  clear_value rd held
  have hgranted : granted.tablesRise := hrd.setGrants hheld
  clear_value granted
  have hmoved : moved.tablesRise := hgranted.modWell.modWell
  clear_value moved
  have hepochs : epochs.tablesRise := .foldl (fun _ _ h => h.setEpoch.wroteWhole) hmoved
  exact .ite h (.ite hepochs.count.setHash.event hepochs.count.setHash)

/-! ### Level inputs and the vault (R257 to R290) -/

theorem State.tablesRise.capture (h : s.tablesRise) {wi high} : (s.capture wi high).tablesRise := by
  unfold State.capture
  dsimp only
  exact .ite h (.ite h.setWire.event h.setWire)

theorem State.tablesRise.pinLevel (h : s.tablesRise) {wi high} : (s.pinLevel wi high).tablesRise :=
  h.setWire

theorem State.tablesRise.filterEdge (h : s.tablesRise) {wi t} (e : s.filterEdge wi = some t) : t.tablesRise := by
  unfold State.filterEdge at e
  dsimp only at e
  split at e
  · cases e; exact h.setWire
  · cases e

theorem State.tablesRise.refilter (h : s.tablesRise) {ws} : (s.refilter ws).tablesRise := by
  unfold State.refilter
  dsimp only
  exact .foldl (fun _ _ h => .ite h h.setWire) h

theorem State.tablesRise.setP (h : s.tablesRise) {n v} : (s.setP n v).tablesRise := by
  unfold State.setP
  dsimp only
  exact .ite h (.ite h.setPair.count h.setPair)

theorem State.tablesRise.discShort (h : s.tablesRise) {n d} : (s.discShort n d).tablesRise :=
  h.event.keep

theorem State.tablesRise.pairEdge (h : s.tablesRise) {n} : (s.pairEdge n).tablesRise := by
  unfold State.pairEdge
  dsimp only
  exact .ite h.setPair.setP (.ite (.setP (.setPair (.ite h.discShort h))) h.setPair.setP)

theorem State.tablesRise.pairDue (h : s.tablesRise) {n e begins} : (s.pairDue n e begins).tablesRise :=
  h.keep

theorem State.tablesRise.pairsNow (h : s.tablesRise) : (s.pairsNow).tablesRise := by
  unfold State.pairsNow
  dsimp only
  exact .foldl (fun _ _ h => .ite (.setPair (.ite h h.pairEdge)) (.ite h h.pairEdge)) (h.keep)

theorem State.tablesRise.discTamper (h : s.tablesRise) {n} : (s.discTamper n).tablesRise := by
  unfold State.discTamper
  dsimp only
  split
  · exact .ite (.ite h.discShort.setPair.setP (h.setPair.count.setP.keep)) h
  · exact h

theorem State.tablesRise.latchZ (h : s.tablesRise) {f} : (s.latchZ f).tablesRise := by
  unfold State.latchZ
  dsimp only
  exact .ite h.modIslands.count h.modIslands

theorem State.tablesRise.asyncZ (h : s.tablesRise) {n} : (s.asyncZ n).tablesRise :=
  h.latchZ

theorem State.tablesRise.vaultSet (h : s.tablesRise) {n} : (s.vaultSet n).tablesRise := by
  unfold State.vaultSet
  dsimp only
  exact .ite h (.ite (.pend (.ite h.setPair.latchZ h.setPair)) (.ite h.setPair.latchZ h.setPair))

theorem State.tablesRise.clearHosts (h : s.tablesRise) : (s.clearHosts).tablesRise :=
  h.setReg.setReg.recheck

theorem State.tablesRise.levelSet (h : s.tablesRise) {i} : (s.levelSet i).tablesRise := by
  unfold State.levelSet
  dsimp only
  split
  · exact h
  · split
    · exact .ite (.localOrDrop (.ftFix (h.keep))) (.ftFix (h.keep))
    · exact .pend (.ftFix (h.keep))

theorem State.tablesRise.wireChange (h : s.tablesRise) {w high} : (s.wireChange w high).tablesRise :=
  .ite h (.ite h.capture h.pinLevel)

theorem State.tablesRise.wireFilter (h : s.tablesRise) {w} : (s.wireFilter w).tablesRise := by
  unfold State.wireFilter
  split
  · exact h
  · split
    · exact h
    · next t e => exact .ite (.ite (h.filterEdge e).count (h.filterEdge e)) (h.filterEdge e).pairDue

theorem State.tablesRise.linesChanged (h : s.tablesRise) {on low} : (s.linesChanged on low).tablesRise := by
  refine .foldl (fun s i h => ?_) h
  extract_lets w turned w' up held
  have hturned : turned.tablesRise := .ite h.setWire h
  exact .ite (.ite hturned.setWire.count hturned.setWire) hturned

theorem State.tablesRise.trimsChanged (h : s.tablesRise) {depth lf vf} : (s.trimsChanged depth lf vf).tablesRise := by
  unfold State.trimsChanged
  dsimp only
  exact .foldl (fun _ _ h => .ite h.pairEdge h) (.ite (.refilter (.ite h.refilter h)) (.ite h.refilter h))

theorem State.tablesRise.stbyLatch (h : s.tablesRise) {src} : (s.stbyLatch src).tablesRise := by
  unfold State.stbyLatch
  split
  · exact h.latchZ
  · exact h.modIslands
  · exact h.modIslands
  · exact h.modIslands

theorem State.tablesRise.setZen (h : s.tablesRise) {n v} : (s.setZen n v).tablesRise :=
  h.modIslands

theorem State.tablesRise.sleepSeen (h : s.tablesRise) {n} : (s.sleepSeen n).tablesRise :=
  .ite h h.modCore.withdrawN.withdrawF

theorem State.tablesRise.wakeSeen (h : s.tablesRise) {n} : (s.wakeSeen n).tablesRise :=
  .ite h h.modCore

end Sys2Proof.Machine
end

section
/-! SUPPORT. An access of the register port keeps the tables rising. -/

namespace Sys2Proof.Machine
variable {s : State}

/-! ### Flags -/

theorem State.tablesRise.mirrorHealth (h : s.tablesRise) : (s.mirrorHealth).tablesRise :=
  h.modIslands

/-! ### Register reads -/

theorem State.tablesRise.latchCounter (h : s.tablesRise) {f i} : (s.latchCounter f i).tablesRise := by
  unfold State.latchCounter
  dsimp only
  exact .ite h h.setCounter

/-! ### The register port (R33 to R73) -/

theorem State.tablesRise.recordPage (h : s.tablesRise) {f reason w} : (s.recordPage f reason w).tablesRise := by
  unfold State.recordPage
  dsimp only
  split
  · exact h.setFault
  · exact h.setFault.count.count.raise

theorem State.tablesRise.ok (h : s.tablesRise) {w} : (ok s w).s.tablesRise :=
  h

theorem State.tablesRise.refuse (h : s.tablesRise) {a byte reason} : (s.refuse a byte reason).s.tablesRise :=
  h.recordPage

theorem State.tablesRise.ackRead (h : s.tablesRise) {n fast pr} : (s.ackRead n fast pr).s.tablesRise := by
  unfold State.ackRead
  split
  · exact h.count.ok
  · extract_lets sram r t
    have hr : r.2.tablesRise := .ite_snd h.readPage h
    exact .ite_half (.ite_half hr.take hr.take.ok) (.ite hr.withdrawF hr.withdrawN)

theorem State.tablesRise.readHalf (h : s.tablesRise) {a byte where_} : (s.readHalf a byte where_).2.tablesRise := by
  unfold State.readHalf
  split
  · exact h
  · exact .ite_snd h.readPage h

theorem State.tablesRise.uncorr (h : s.tablesRise) : (uncorr s).s.tablesRise :=
  h

theorem State.tablesRise.readFrame (h : s.tablesRise) {a byte f view o} : (s.readFrame a byte f view o).s.tablesRise := by
  unfold State.readFrame
  extract_lets b r read w
  have hread : read.tablesRise := h.readHalf
  exact .ite_half h.refuse (.ite_half h.ackRead (.ite_half hread.uncorr (.ite_half hread.latchCounter.ok
    (.ite_half hread.ftFix.ok (.ok (.ite hread.askRead hread))))))

theorem State.tablesRise.readBox (h : s.tablesRise) {a byte n o} : (s.readBox a byte n o).s.tablesRise := by
  unfold State.readBox
  dsimp only
  split
  · exact h.ok
  · split
    · exact h.ok
    · exact h.ok
    · exact .ite_half h.readHalf.uncorr (.ite_half h.readHalf.askRead.ok h.readHalf.askRead.ok)

theorem State.tablesRise.samplePages (h : s.tablesRise) {n pr last} : (s.samplePages n pr last).2.tablesRise := by
  unfold State.samplePages
  exact State.tablesRise.foldl_snd (β := Bool) (fun _ _ h => State.tablesRise.readPage h) (p := (true, s)) h

theorem State.tablesRise.submit (h : s.tablesRise) {n w presence pr} : (s.submit n w presence pr).tablesRise := by
  unfold State.submit
  extract_lets written len r bad _ _ seen c _ queued
  have hwritten : written.tablesRise := h.setBox (Mailbox.setWord_rising (h.box_bytes n) 4 w)
  have hseen : seen.tablesRise := hwritten.samplePages.keep
  have hqueued : queued.tablesRise := hseen.setBoxHead
  exact .ite hqueued.count.finish (.ite hqueued.enqueue hqueued.setSubmitted)

theorem State.tablesRise.writeBox (h : s.tablesRise) {a byte n o w} : (s.writeBox a byte n o w).s.tablesRise := by
  unfold State.writeBox
  split
  · exact h.ok
  · split
    · exact h.count.ok
    · exact h.count.ok
    · extract_lets r written
      have hr : r.2.tablesRise := h.readPage
      have hwritten : written.tablesRise := hr.askUnit.wroteWhole
      split
      · exact hr.refuse
      · split
        · exact hwritten.submit.ok
        · exact .ok (hwritten.setBox (Mailbox.setWord_rising (hwritten.box_bytes n) o w))

theorem State.tablesRise.expireArm (h : s.tablesRise) {f} : (s.expireArm f).tablesRise := by
  unfold State.expireArm
  split
  · exact h
  · exact .ite h h.setArm.recordPage

theorem State.tablesRise.commitRuleset (h : s.tablesRise) {hh b} : (s.commitRuleset hh b).tablesRise := by
  unfold State.commitRuleset
  dsimp only
  exact .ite h.count.count (.emptyCaches (.markOld (h.count.count.keep)))

theorem State.tablesRise.commit (h : s.tablesRise) {f o v} : (s.commit f o v).tablesRise := by
  unfold State.commit
  extract_lets n dropped
  have hdropped : dropped.tablesRise := .ite h.drop h
  exact .ite h.commitRuleset (.ite h.modCore.recheck (.ite h.modCore.recheck (.ite h.modCore.recheck
    (.ite hdropped.drop hdropped))))

theorem State.tablesRise.guardWrite (h : s.tablesRise) {a byte f o w} : (s.guardWrite a byte f o w).s.tablesRise := by
  unfold State.guardWrite
  dsimp only
  split
  · exact .ite_half h.expireArm.refuse h.expireArm.setArm.ok
  · exact .ite_half h.expireArm.setArm.refuse (.ite_half h.expireArm.setArm.refuse h.expireArm.setArm.commit.ok)

theorem State.tablesRise.guardForm (h : s.tablesRise) {a byte f} : (s.guardForm a byte f).s.tablesRise :=
  h.expireArm.setArm.refuse

theorem State.tablesRise.swSet (h : s.tablesRise) {key host pr} : (s.swSet key host pr).tablesRise := by
  unfold State.swSet
  dsimp only
  exact .ite (.pend (.count (.ite_snd h.readPage h))) (.spillRec (.ite_snd h.readPage h))

theorem State.tablesRise.sgiSend (h : s.tablesRise) {a byte n w} : (s.sgiSend a byte n w).s.tablesRise := by
  unfold State.sgiSend
  dsimp only
  exact .ite_half h.refuse h.swSet.count.ok

theorem State.tablesRise.pendSet (h : s.tablesRise) {a byte n w} : (s.pendSet a byte n w).s.tablesRise := by
  unfold State.pendSet
  extract_lets x host r looked
  have hlooked : looked.tablesRise := h.ftRead
  exact .ite_half h.swSet.ok (.ite_half hlooked.refuse (.ite_half hlooked.spillRec.ok
    (.ite_half (.ite_half hlooked.pushLocal.ok (.ok hlooked.keep)) hlooked.swSet.ok)))

theorem State.tablesRise.eoi (h : s.tablesRise) {n fast w pr} : (s.eoi n fast w pr).tablesRise := by
  unfold State.eoi
  dsimp only
  split
  · exact .ite (.count (.count (.release (.ite_snd h.readPage h)))) h.event
  · exact h.event

theorem State.tablesRise.writeLock (h : s.tablesRise) {a byte f view w} : (s.writeLock a byte f view w).s.tablesRise := by
  unfold State.writeLock
  dsimp only
  exact .ite_half h.ok (.ite_half h.refuse (.ite_half (.ok (h.keep)) h.ok))

theorem State.tablesRise.formCounter (h : s.tablesRise) {key written} : (s.formCounter key written).tablesRise := by
  unfold State.formCounter
  dsimp only
  exact .ite (.keep (.ite (h.setCounter.keep) h.setCounter)) (.ite (h.setCounter.keep) h.setCounter)

theorem State.tablesRise.writeCounter (h : s.tablesRise) {f o w} : (s.writeCounter f o w).tablesRise := by
  unfold State.writeCounter
  dsimp only
  exact .ite h.formCounter h

theorem State.tablesRise.writePair (h : s.tablesRise) {f o d} : (s.writePair f o d).tablesRise := by
  unfold State.writePair
  dsimp only
  exact .ite h.formCounter h

theorem State.tablesRise.setGrpCfg (h : s.tablesRise) {g w} : (s.setGrpCfg g w).tablesRise :=
  h.modGroup

theorem State.tablesRise.setGrpHold (h : s.tablesRise) {g n} : (s.setGrpHold g n).tablesRise :=
  h.modGroup

theorem State.tablesRise.writeGroup (h : s.tablesRise) {a byte f view o w} : (s.writeGroup a byte f view o w).s.tablesRise := by
  unfold State.writeGroup
  dsimp only
  exact .ite_half (.ite_half h.refuse h.updatePage.setGrpCfg.ok) (.ite_half (.ite_half h.refuse h.updatePage.setGrpHold.ok) h.ok)

theorem State.tablesRise.spillConsumed (h : s.tablesRise) {v} : (s.spillConsumed v).tablesRise := by
  unfold State.spillConsumed
  dsimp only
  exact .ite h.setReg.setReg.count h.setReg

theorem State.tablesRise.latMaxWritten (h : s.tablesRise) {v} : (s.latMaxWritten v).tablesRise :=
  h.setReg

theorem State.tablesRise.spillWritten (h : s.tablesRise) {v} : (s.spillWritten v).tablesRise :=
  h.setReg.keep

theorem State.tablesRise.storeReg (h : s.tablesRise) {f o v} : (s.storeReg f o v).tablesRise :=
  .ite (.ite h.setReg.clearHosts h.setReg.recheck) (.ite h.latMaxWritten (.ite h.spillWritten (.ite h.spillConsumed
    (.ite h.setReg.linesChanged (.ite h.setReg.trimsChanged h.setReg)))))

theorem State.tablesRise.writeReg (h : s.tablesRise) {a byte f view o w} :
    (s.writeReg a byte f view o w).s.tablesRise := by
  unfold State.writeReg
  dsimp only
  split
  · exact h.ok
  · exact .ite_half h.ok (.ite_half h.refuse (.ite_half (.ite_half h.refuse (.ok (.setReg (.ite h.keep h))))
      (.ite_half (.ok h.keep) h.storeReg.ok)))

theorem State.tablesRise.holdCounter (h : s.tablesRise) {b : State} {key} : (b.holdCounter s key).tablesRise :=
  h.setCounter

theorem State.tablesRise.takeSnapshot (h : s.tablesRise) : (s.takeSnapshot).tablesRise := by
  unfold State.takeSnapshot
  dsimp only
  exact .ite h (.keep (.foldl (fun _ _ h => h.holdCounter) h))

theorem State.tablesRise.inject (h : s.tablesRise) {w} : (s.inject w).tablesRise := by
  unfold State.inject
  extract_lets act first
  have hact {t : State} (ht : t.tablesRise) (b : Bool) : (act t b).tablesRise := .ite ht.modWell (.ite ht.modWell ht)
  have hfirst : first.tablesRise := .ite (hact h _) h
  exact .ite (hact hfirst _) hfirst

theorem State.tablesRise.writeFrame (h : s.tablesRise) {a byte f view o w} : (s.writeFrame a byte f view o w).s.tablesRise := by
  unfold State.writeFrame
  dsimp only
  exact .ite_half (.ite_half h.guardForm h.guardWrite) (.ite_half h.writeLock (.ite_half h.ok (.ite_half
    (.ok (.ite h.writeCounter h)) (.ite_half h.ok (.ite_half
      (.ite_half h.modCore.recheck.ok (.ite_half h.modCore.recheck.ok (.ite_half h.ok (.ite_half h.eoi.ok (.ite_half h.eoi.ok
        (.ite_half h.sgiSend (.ite_half h.pendSet h.ok)))))))
      (.ite_half (.ok (.ite h.takeSnapshot h)) (.ite_half (.ite_half h.ok (.ite_half h.refuse h.inject.ok))
        (.ite_half h.writeGroup h.writeReg))))))))

theorem State.tablesRise.half (h : s.tablesRise) {a byte w} : (s.half a byte w).s.tablesRise := by
  unfold State.half
  split
  · exact h
  · exact .ite_half h.refuse h.ok
  · exact .ite_half h.writeBox h.readBox
  · exact .ite_half h.writeFrame h.readFrame

theorem State.tablesRise.answer (h : s.tablesRise) {code data} : (s.answer code data).tablesRise :=
  h.keep

theorem State.tablesRise.answerUnlessHeld (h : s.tablesRise) {code data} : (s.answerUnlessHeld code data).tablesRise := by
  unfold State.answerUnlessHeld
  dsimp only
  split
  · exact h.keep
  · exact h.answer

/-- What a half access did stands in the state of its result. -/
theorem State.tablesRise.halfAnswer {r : HalfResult} (h : r.s.tablesRise) : r.answer.tablesRise :=
  h.answerUnlessHeld

theorem State.tablesRise.holdRead (h : s.tablesRise) {a t} (e : s.holdRead a = some t) : t.tablesRise := by
  unfold State.holdRead at e
  split at e
  · split at e
    · cases e; exact h.keep
    · cases e
  · dsimp only at e
    split at e
    · cases e
    · cases e; exact h.keep
  · cases e

theorem State.tablesRise.pairWrite (h : s.tablesRise) {a} : (s.pairWrite a).tablesRise := by
  unfold State.pairWrite
  split
  · exact h.writePair
  · exact h

theorem State.tablesRise.answerPair (h : s.tablesRise) {code data} : (s.answerPair code data).tablesRise :=
  h.answerUnlessHeld

theorem State.tablesRise.keeperPass (h : s.tablesRise) {a} : (s.keeperPass a).tablesRise := by
  unfold State.keeperPass
  split
  · exact .ite (.ite h.commit h) h.half
  · exact h

theorem State.tablesRise.perform (h : s.tablesRise) {a} : (s.perform a).tablesRise := by
  unfold State.perform
  split
  · exact h.keeperPass
  · split
    · exact h.answer
    · split
      · exact h.answer
      · split
        · exact h.refuse.halfAnswer
        · split
          · exact h.refuse.halfAnswer
          · split
            · next t e =>
                split at e
                · cases e
                · exact h.holdRead e
            · split
              · exact h.answer
              · exact .ite h.half.halfAnswer (.ite h.pairWrite.answerPair (.ite h.guardForm.halfAnswer h.half.half.answerPair))

theorem State.tablesRise.endHold (h : s.tablesRise) : (s.endHold).tablesRise :=
  h.keep

theorem State.tablesRise.fenceAnswer (h : s.tablesRise) : (s.fenceAnswer).tablesRise := by
  unfold State.fenceAnswer
  split
  · exact .ite h h.endHold.answer
  · exact h

theorem State.tablesRise.fenceTimeout (h : s.tablesRise) : (s.fenceTimeout).tablesRise := by
  unfold State.fenceTimeout
  split
  · exact .ite h.endHold.answer h
  · exact h

theorem State.tablesRise.windowAnswer (h : s.tablesRise) {pr} : (s.windowAnswer pr).tablesRise := by
  unfold State.windowAnswer
  split
  · split
    · exact h
    · extract_lets charged id _ noted page r
      have hr : r.2.tablesRise := State.tablesRise.readPage (State.tablesRise.grantAt h.chargeMaint)
      exact .ite hr.endHold.answer hr.endHold.answer
  · exact h

theorem State.tablesRise.pendSetPlaced (h : s.tablesRise) : (s.pendSetPlaced).tablesRise := by
  unfold State.pendSetPlaced
  split
  · exact .ite h.pushLocal.endHold.answer h
  · exact h

end Sys2Proof.Machine
end

section
/-! SUPPORT. The commands of the Keeper keep the tables rising. -/

namespace Sys2Proof.Machine
variable {s : State}

/-! ### The commands on the tables -/

theorem State.tablesRise.cmdNop (h : s.tablesRise) : (s.cmdNop).tablesRise := by
  unfold State.cmdNop
  split
  · exact h
  · exact h.endRun

theorem State.tablesRise.cmdInfo (h : s.tablesRise) : (s.cmdInfo).tablesRise := by
  unfold State.cmdInfo
  dsimp only
  split
  · exact h
  · exact h.endRun

theorem State.tablesRise.cmdTokenDrop (h : s.tablesRise) : (s.cmdTokenDrop).tablesRise := by
  unfold State.cmdTokenDrop
  split
  · exact h
  · split
    · exact h.voidToken.endRun
    · exact h.endRun

theorem State.tablesRise.ftReads (h : s.tablesRise) {xs} : (s.ftReads xs).tablesRise :=
  .foldl (fun _ _ h => h.ftRead) h

theorem State.tablesRise.cmdFetch (h : s.tablesRise) {c} : (s.cmdFetch c).tablesRise := by
  have start : (State.cmdFetch.start s c).tablesRise := .request (.count h.keep)
  unfold State.cmdFetch
  split
  · exact .ite h start
  · exact start

theorem State.tablesRise.routeCisterns (h : s.tablesRise) {n : Nat} {r : Run} : (s.routeCisterns n r).tablesRise := by
  induction n generalizing r with
  | zero => exact h.setRun
  | succ n ih =>
    unfold State.routeCisterns
    split
    · exact .ite h.endCount h.reserveShadow
    · split
      · exact ih
      · split
        · exact ih
        · exact h.endCount
        · exact h.cmdFetch.setRun

theorem State.tablesRise.cmdRouteWrite (h : s.tablesRise) : (s.cmdRouteWrite).tablesRise := by
  unfold State.cmdRouteWrite
  dsimp only
  split
  · exact .ite (.endCount (.ite h.ftReads h)) (.routeCisterns (.ite h.ftReads h))
  · split
    · exact h.routeCisterns
    · exact h

theorem State.tablesRise.setFastEn (h : s.tablesRise) {x v} : (s.setFastEn x v).tablesRise :=
  h.setFt.recheck

theorem State.tablesRise.plainItem (h : s.tablesRise) {r} {write : List Byte → State → State}
    (hw : ∀ {b}, (write b s).tablesRise) : (s.plainItem r write).tablesRise := by
  unfold State.plainItem
  split
  · exact h.endCount
  · exact .ite h (.ite h.setRun (.ite hw.setRun.endCount hw.setRun))

theorem State.tablesRise.cmdFastWrite (h : s.tablesRise) : s.cmdFastWrite.tablesRise := by
  unfold State.cmdFastWrite
  split
  · extract_lets write st read
    have hread : read.tablesRise := .ite h.ftReads h
    exact .ite hread.endCount (hread.plainItem hread.setFastEn.count)
  · split
    · exact h.plainItem h.setFastEn.count
    · exact h

theorem State.tablesRise.groupItem (h : s.tablesRise) {i} : (s.groupItem i).tablesRise := by
  unfold State.groupItem
  dsimp only
  exact .ite (.setGrpHold (.ite h h.setGrpCfg)) (.ite h h.setGrpCfg)

theorem State.tablesRise.groupStep (h : s.tablesRise) {r pr} : (s.groupStep r pr).tablesRise := by
  unfold State.groupStep
  split
  · extract_lets rd written next
    have hrd : rd.2.tablesRise := h.readPage
    have hwritten : written.tablesRise := hrd.groupItem.wroteWhole.unlock
    exact .ite (.ite hrd.unlock.setRun.endCount h) (.ite h (.ite hwritten.setRun.endCount hwritten.setRun))
  · exact h

theorem State.tablesRise.cmdGroupWrite (h : s.tablesRise) {pages} : (s.cmdGroupWrite pages).tablesRise := by
  unfold State.cmdGroupWrite
  dsimp only
  split
  · exact .ite h.endCount h.setRun
  · split
    · exact h.groupStep
    · exact h

theorem State.tablesRise.askRekey (h : s.tablesRise) {c v} : (s.askRekey c v).tablesRise := by
  unfold State.askRekey
  dsimp only
  exact .ite (.setHash (.ite h.setHash h)) (.ite h.setHash h)

theorem State.tablesRise.cmdRekey (h : s.tablesRise) : (s.cmdRekey).tablesRise := by
  unfold State.cmdRekey
  dsimp only
  split
  · split
    · exact h.endZero
    · next t e => exact .ite (h.enterGroup e).endZero (h.enterGroup e).askRekey.askWords
  · split
    · exact .ite h (.ite h.setRun h.endRun)
    · exact h

theorem State.tablesRise.cmdRightsWrite (h : s.tablesRise) : (s.cmdRightsWrite).tablesRise := by
  unfold State.cmdRightsWrite
  dsimp only
  split
  · exact h
  · exact .ite h.endCount h.reserveShadow

/-! ### The commands on cisterns -/

theorem State.tablesRise.ownerPass (h : s.tablesRise) {n : Nat} {r : Run} {t} (e : s.ownerPass n r = .ended t) :
    t.tablesRise := by
  induction n generalizing r with
  | zero => cases e
  | succ n ih =>
    unfold State.ownerPass at e
    split at e
    · cases e
    · split at e
      · cases e
      · split at e
        · exact ih e
        · cases e; exact h.endCount
        · cases e; exact h.cmdFetch.setRun

theorem State.tablesRise.cisternStart (h : s.tablesRise) {op} {go : State → Run → State}
    (hgo : ∀ {r}, (go s r).tablesRise) : (s.cisternStart op go).tablesRise := by
  unfold State.cisternStart
  extract_lets owners
  have howners (r : Run) : (owners r).tablesRise := by
    dsimp only [owners]
    split
    · next t e => exact h.ownerPass e
    · exact hgo
  split
  · exact .ite h.endCount (howners _)
  · split
    · exact howners _
    · exact h

theorem State.tablesRise.cisternNext (h : s.tablesRise) {r} : (s.cisternNext r).tablesRise := by
  unfold State.cisternNext
  dsimp only
  exact .ite h.setRun.endCount h.setRun

theorem State.tablesRise.leaveBuffer (h : s.tablesRise) {c x} : (s.leaveBuffer c x).tablesRise := by
  unfold State.leaveBuffer
  dsimp only
  exact .ite h (h.keep)

theorem State.tablesRise.openEntry (h : s.tablesRise) {c x r} : (s.openEntry c x r).tablesRise := by
  unfold State.openEntry
  dsimp only
  split
  · exact .request (.touch (.opened (.setCached (.ite h.leaveBuffer h))))
  · exact .opened (.setCached (.ite h.leaveBuffer h))

theorem State.tablesRise.openItem (h : s.tablesRise) {r} : (s.openItem r).tablesRise := by
  unfold State.openItem
  dsimp only
  split
  · exact h.endCount
  · split
    · exact h.openEntry.cisternNext
    · split
      · next t e => exact (h.claimEntry.of_snd e).setRun.endCount
      · next _ t e => exact (h.claimEntry.of_snd e).openEntry.cisternNext

theorem State.tablesRise.openFetches (h : s.tablesRise) {r} : (s.openFetches r).tablesRise := by
  unfold State.openFetches
  dsimp only
  split
  · exact .ite h.setRun.endCount h.openItem
  · split
    · exact .setRun (.cmdFetch (h.keep))
    · split
      · exact h
      · split
        · exact h
        · exact h.setRun
        · exact h.setRun.endCount
        · exact h.setRun.endCount

theorem State.tablesRise.cmdOpen (h : s.tablesRise) : s.cmdOpen.tablesRise := by
  unfold State.cmdOpen
  split
  · exact h.openFetches
  · split
    · exact h.openItem
    · exact h.cisternStart h.openFetches

theorem State.tablesRise.closeBegin (h : s.tablesRise) {c x} : (s.closeBegin c x).tablesRise :=
  h.setCached.fireDue

theorem State.tablesRise.closeStep (h : s.tablesRise) {r} : (s.closeStep r).tablesRise := by
  unfold State.closeStep
  dsimp only
  split
  · exact h.endCount
  · split
    · exact .ite h h.cisternNext
    · split
      · split
        · exact h.cisternNext
        · split
          · next t e => exact (h.startFetch.of_snd e).setRun
          · next t e => exact (h.startFetch.of_snd e).setRun
      · split
        · exact .ite h.closeBegin.setRun (.ite h h.updateCached.setCached.request.setRun)
        · exact h.removeEntry.cisternNext
        · exact .ite h.removeEntry.cisternNext h.setCached.setRun
        · exact h.setRun

theorem State.tablesRise.cmdClose (h : s.tablesRise) : s.cmdClose.tablesRise := by
  unfold State.cmdClose
  split
  · exact h.closeStep
  · exact h.cisternStart h.closeStep

theorem State.tablesRise.syncStep (h : s.tablesRise) {r} : (s.syncStep r).tablesRise := by
  unfold State.syncStep
  split
  · exact h.endCount
  · extract_lets c
    have hremoved : ((s.removeEntry c).cisternNext r).tablesRise := h.removeEntry.cisternNext
    split
    · exact h.cisternNext
    · exact .ite h.setCached.setRun (.ite (.ite h (.ite h.setCached.request.setRun hremoved)) (.ite h hremoved))

theorem State.tablesRise.cmdSync (h : s.tablesRise) : s.cmdSync.tablesRise := by
  unfold State.cmdSync
  split
  · exact h.syncStep
  · exact h.cisternStart h.syncStep

theorem State.tablesRise.flushOne (h : s.tablesRise) {c} : (s.flushOne c).tablesRise := by
  unfold State.flushOne
  split
  · exact .ite h.setCached.fireDue h
  · exact h

theorem State.tablesRise.cmdFlush (h : s.tablesRise) : s.cmdFlush.tablesRise := by
  unfold State.cmdFlush
  split
  · exact h.plainItem h.flushOne
  · exact h.cisternStart (h.plainItem h.flushOne)

/-! ### Scrub and integrity -/

theorem State.tablesRise.setWalker (h : s.tablesRise) {store w} : (s.setWalker store w).tablesRise :=
  h.keep

theorem State.tablesRise.walkerTick (h : s.tablesRise) {store} : (s.walkerTick store).tablesRise := by
  unfold State.walkerTick
  dsimp only
  exact .ite h.setWalker h

theorem State.tablesRise.walkerStep (h : s.tablesRise) {store} : (s.walkerStep store).tablesRise := by
  unfold State.walkerStep
  dsimp only
  exact .ite h.setWalker.count h.setWalker

theorem State.tablesRise.scrubStep (h : s.tablesRise) : (s.scrubStep).tablesRise := by
  unfold State.scrubStep
  split
  · exact .ite h.setRun h
  · exact h

theorem State.tablesRise.scrubbed (h : s.tablesRise) {l n usable corrected heavy} :
    (s.scrubbed l n usable corrected heavy).tablesRise := by
  unfold State.scrubbed
  dsimp only
  exact .ite (.scrubStep (h.keep)) h.walkerStep

theorem State.tablesRise.scrubVerdict (h : s.tablesRise) {l n} : (s.scrubVerdict l n).tablesRise := by
  unfold State.scrubVerdict
  dsimp only
  exact .ite (h.readPage.keep) (.scrubbed (.ite (.breakPage (h.readPage.keep)) (h.readPage.keep)))

theorem State.tablesRise.scrubEdges (h : s.tablesRise) : (s.scrubEdges).tablesRise := by
  unfold State.scrubEdges
  dsimp only
  refine .foldl (fun _ _ h => ?_) h
  split
  · split
    · exact h
    · split
      · exact .ite h.scrubVerdict h
      · exact .ite (.scrubbed (.rewriteEpoch (h.keep))) h
  · exact h

theorem State.tablesRise.scrubAccess (h : s.tablesRise) {store bank pr} : (s.scrubAccess store bank pr).tablesRise := by
  unfold State.scrubAccess
  dsimp only
  exact .ite h (.ite (.count (h.chargeMaint.keep)) (.setWalker (.count (h.chargeMaint.keep))))

theorem State.tablesRise.rebuild (h : s.tablesRise) {store page} : (s.rebuild store page).tablesRise := by
  unfold State.rebuild
  dsimp only
  exact .ite (.count (.unpoison (h.keep))) h

theorem State.tablesRise.beginReencode (h : s.tablesRise) {stores t olds} : (s.beginReencode stores t olds).tablesRise := by
  unfold State.beginReencode
  dsimp only
  split
  · exact h.keep
  · exact h.keep

theorem State.tablesRise.storeEncoded (h : s.tablesRise) {j} : (s.storeEncoded j).tablesRise := by
  unfold State.storeEncoded
  dsimp only
  split
  · refine .endStrength ?_
    refine .beginReencode ?_
    split
    · exact .ite h.setRun h
    · exact h
  · refine .beginReencode ?_
    split
    · exact .ite h.setRun h
    · exact h

theorem State.tablesRise.pageEncoded (h : s.tablesRise) {j} : (s.pageEncoded j).tablesRise := by
  unfold State.pageEncoded
  dsimp only
  split
  · exact h.count.storeEncoded
  · split
    · exact .ite (.setRun (h.count.keep)) (h.count.keep)
    · exact h.count.keep

theorem State.tablesRise.reencodePage (h : s.tablesRise) {pr} : (s.reencodePage pr).tablesRise := by
  unfold State.reencodePage
  dsimp only
  split
  · exact .ite h (.ite h (.pageEncoded (.ite h.readPage.rewriteEpoch.unlock.breakPage h.readPage.rewriteEpoch.unlock)))
  · exact h

theorem State.tablesRise.cmdSnapshot (h : s.tablesRise) : (s.cmdSnapshot).tablesRise := by
  unfold State.cmdSnapshot
  dsimp only
  split
  · exact h
  · exact h.takeSnapshot.endRun

theorem State.tablesRise.scrubOn (h : s.tablesRise) {r} : (s.scrubOn r).tablesRise := by
  unfold State.scrubOn
  dsimp only
  split
  · exact h.endZero
  · exact .ite h.setRun (.endRun (h.setRun.keep))

theorem State.tablesRise.cmdScrub (h : s.tablesRise) : (s.cmdScrub).tablesRise := by
  unfold State.cmdScrub
  dsimp only
  split
  · split
    · exact h.endZero
    · next t e => exact .ite (h.enterGroup e).endRun (.setRun ((h.enterGroup e).keep))
  · split
    · exact h.scrubOn
    · exact h

theorem State.tablesRise.cmdStrength (h : s.tablesRise) : (s.cmdStrength).tablesRise := by
  unfold State.cmdStrength
  dsimp only
  split
  · exact h
  · split
    · exact h.endZero
    · split
      · exact h.endZero
      · split
        · exact h.endZero
        · split
          · exact h.endZero
          · next t e => 
              split
              · exact (h.enterGroup e).endStrength
              · split
                · exact (h.enterGroup e).setRun.keep
                · exact (h.enterGroup e).setRun.beginReencode

/-! ### Refills and windows -/

theorem State.tablesRise.setVaultRoute (h : s.tablesRise) {n r} : (s.setVaultRoute n r).tablesRise := by
  unfold State.setVaultRoute
  dsimp only
  exact .recheck (.ite (.setZen (.setFt (h.keep))) (.pairDue (.setZen (.setFt (h.keep)))))

theorem State.tablesRise.loadVaults (h : s.tablesRise) : (s.loadVaults).tablesRise :=
  .foldl (fun _ _ h => h.setVaultRoute) h

theorem State.tablesRise.resetRegs (h : s.tablesRise) : (s.resetRegs).tablesRise := by
  unfold State.resetRegs
  refine .foldl (fun _ _ h => ?_) h
  split
  · exact .ite h h.storeReg
  · exact h

theorem State.tablesRise.fillStores (h : s.tablesRise) : s.fillStores.tablesRise := by
  unfold State.fillStores
  extract_lets others keep wells _ routes _ emptied clear fast _ cleared epochs
  have hemptied : emptied.tablesRise := State.tablesRise.keep (s := wells) h.modWell.modWell
  have hepochs : epochs.tablesRise := .foldl (fun _ _ h => h.setEpoch.setEpoch) hemptied.keep
  exact .foldl (fun _ _ h => h.setGrpCfg.setGrpHold) hepochs

theorem State.tablesRise.clearFastEn (h : s.tablesRise) : (s.clearFastEn).tablesRise :=
  h.keep

theorem State.tablesRise.resetRulesets (h : s.tablesRise) : (s.resetRulesets).tablesRise :=
  h.keep

theorem State.tablesRise.refillConfig (h : s.tablesRise) : (s.refillConfig).tablesRise :=
  h.fillStores.clearFastEn.emptyCaches.resetRegs.resetRulesets.recheck

theorem State.tablesRise.undoApply (h : s.tablesRise) {i} : (s.undoApply i).tablesRise :=
  have cleared {t : State} (ht : t.tablesRise) :
      (let u := if i.filledOfficers then { t with keeper.officers := [] } else t
      { u with startup.image := none, startup.restoreJournal := false }).tablesRise :=
    .keep (.ite ht.keep ht)
  cleared (.refillConfig h.keep)

theorem State.tablesRise.tidyImage (h : s.tablesRise) : (s.tidyImage).tablesRise := by
  unfold State.tidyImage
  dsimp only
  split
  · exact h
  · exact .ite h h.undoApply

theorem State.tablesRise.discardCache (h : s.tablesRise) : s.discardCache.tablesRise :=
  .foldl (fun _ _ h => h.spillRec) (h.setCache rfl)

theorem State.tablesRise.factoryBegin (h : s.tablesRise) : (s.factoryBegin).tablesRise :=
  h.keep

theorem State.tablesRise.factoryBurned (h : s.tablesRise) : (s.factoryBurned).tablesRise :=
  h.keep

theorem State.tablesRise.factoryReset (h : s.tablesRise) {w} : (s.factoryReset w).tablesRise :=
  have cleared {t : State} (ht : t.tablesRise) :
      (let t := { t with pump.bootId := bootOf w, startup.factoryStep := 0 }
      let u := if t.locked fFuse (some 1) then t
        else { t with clock.dcStaged := 0#20, clock.slowPend := true, clock.dcAt := some t.clock.edge }
      u.count fLife 11).tablesRise :=
    .count (.ite ht.keep (.keep ht.keep))
  cleared h.refillConfig.loadVaults.discardCache

/-! ### Identity, stage and approval -/

theorem State.tablesRise.stageNow (h : s.tablesRise) {g} : (s.stageNow g).tablesRise :=
  h.keep

theorem State.tablesRise.toEngine (h : s.tablesRise) {r lasts} : (s.toEngine r lasts).tablesRise := by
  unfold State.toEngine
  dsimp only
  exact .enqueue (h.keep)

theorem State.tablesRise.cmdStage (h : s.tablesRise) : (s.cmdStage).tablesRise := by
  unfold State.cmdStage
  dsimp only
  split
  · exact .ite h.endZero h.askWords
  · split
    · exact .ite h.toEngine h.stageNow.endRun
    · exact h

theorem State.tablesRise.stageValidated (h : s.tablesRise) {e} : (s.stageValidated e).tablesRise := by
  unfold State.stageValidated
  dsimp only
  exact .ite h.endEngine h.stageNow.endEngine

theorem State.tablesRise.cmdStageStatus (h : s.tablesRise) : (s.cmdStageStatus).tablesRise := by
  unfold State.cmdStageStatus
  split
  · exact h
  · split
    · exact h.endRun
    · exact h.endRun

theorem State.tablesRise.cmdStageCancel (h : s.tablesRise) : (s.cmdStageCancel).tablesRise := by
  unfold State.cmdStageCancel
  split
  · exact h
  · split
    · exact .ite h.endStaged.count.endRun h.endRun
    · exact h.endRun

theorem State.tablesRise.stageExpire (h : s.tablesRise) : (s.stageExpire).tablesRise := by
  unfold State.stageExpire
  split
  · exact .ite h.endStaged.count h
  · exact h

theorem State.tablesRise.answerHead (h : s.tablesRise) {e status} : (s.answerHead e status).tablesRise :=
  h.endEngine

theorem State.tablesRise.approveHead (h : s.tablesRise) : s.approveHead.tablesRise := by
  unfold State.approveHead
  split
  · exact h
  · split
    · exact h
    · extract_lets c _ running st
      have hrunning : running.tablesRise := h.setBoxHead
      split
      · exact h
      · split
        · exact hrunning.endEngine
        · split
          · exact .ite hrunning.dequeue.count.finish hrunning.dequeue.finish
          · exact .ite hrunning.answerHead hrunning.keep

theorem State.tablesRise.startReencode (h : s.tablesRise) {mask t} : (s.startReencode mask t).tablesRise := by
  unfold State.startReencode
  dsimp only
  split
  · exact h.keep
  · exact .beginReencode (h.keep)

theorem State.tablesRise.commitEffect (h : s.tablesRise) {g} : (s.commitEffect g).tablesRise := by
  unfold State.commitEffect
  dsimp only
  exact .ite h.setVaultRoute (.ite h.keep (.ite h.keep (.ite h.factoryBegin h.startReencode)))

theorem State.tablesRise.commitStaged (h : s.tablesRise) {e g} : (s.commitStaged e g).tablesRise := by
  unfold State.commitStaged
  extract_lets _ _ told done
  have htold : told.tablesRise := State.tablesRise.event h.keep
  have hdone : done.tablesRise := htold.commitEffect
  exact .ite h.voidStaged.answerHead (.ite hdone.keep hdone.endEngine)

theorem State.tablesRise.approvalDone (h : s.tablesRise) {e} : (s.approvalDone e).tablesRise := by
  unfold State.approvalDone
  dsimp only
  split
  · exact h.answerHead
  · exact .ite h.answerHead (.ite h.voidStaged.answerHead (.ite (.endEngine (h.keep)) h.commitStaged))

theorem State.tablesRise.approvalVerified (h : s.tablesRise) : (s.approvalVerified).tablesRise := by
  unfold State.approvalVerified
  split
  · exact h
  · split
    · exact .ite h.stageExpire.approvalDone h
    · exact h

theorem State.tablesRise.factoryReturn (h : s.tablesRise) : (s.factoryReturn).tablesRise := by
  unfold State.factoryReturn
  split
  · exact .ite h.endEngine h
  · exact h

theorem State.tablesRise.cmdCommission (h : s.tablesRise) : (s.cmdCommission).tablesRise := by
  unfold State.cmdCommission
  dsimp only
  split
  · exact h
  · exact .ite h.endZero h.toEngine

theorem State.tablesRise.commissionDone (h : s.tablesRise) {e presence} : (s.commissionDone e presence).tablesRise := by
  unfold State.commissionDone
  dsimp only
  exact .ite h.endEngine (.endEngine (.count (h.keep)))

theorem State.tablesRise.cmdOfficerList (h : s.tablesRise) : (s.cmdOfficerList).tablesRise := by
  unfold State.cmdOfficerList
  split
  · exact h
  · exact h.endRun

theorem State.tablesRise.beginDigest (h : s.tablesRise) {r} : (s.beginDigest r).tablesRise := by
  unfold State.beginDigest
  dsimp only
  exact .setRun (h.keep)

theorem State.tablesRise.digestPages (h : s.tablesRise) {found} : (s.digestPages found).2.tablesRise := by
  unfold State.digestPages
  exact State.tablesRise.foldl_snd (β := Bool) (fun _ _ h => .ite_snd h (State.tablesRise.readPage h)) (p := (true, s)) h

theorem State.tablesRise.digestEnd (h : s.tablesRise) {r found b t} (e : s.digestEnd r found = some (b, t)) :
    t.tablesRise := by
  unfold State.digestEnd at e
  split at e
  · cases e
  · split at e
    · cases e; exact h.count
    · exact h.digestPages.of_snd (Option.some.inj e)

theorem State.tablesRise.attestRead (h : s.tablesRise) {r found} : (s.attestRead r found).tablesRise := by
  unfold State.attestRead
  dsimp only
  split
  · exact h
  · next t e => exact .askWords ((h.digestEnd e).keep)
  · next t e => exact (h.digestEnd e).endZero

theorem State.tablesRise.attestNonce (h : s.tablesRise) {r} : (s.attestNonce r).tablesRise := by
  unfold State.attestNonce
  dsimp only
  split
  · split
    · exact h.toEngine
    · exact h.keep
  · exact h

theorem State.tablesRise.cmdAttest (h : s.tablesRise) {found} : (s.cmdAttest found).tablesRise := by
  unfold State.cmdAttest
  split
  · exact .ite h.endZero h.beginDigest
  · split
    · exact h.attestRead
    · split
      · exact h.attestNonce
      · exact h

theorem State.tablesRise.attestSigned (h : s.tablesRise) {e} : (s.attestSigned e).tablesRise := by
  unfold State.attestSigned
  dsimp only
  split
  · exact h.endEngine
  · exact h.keep

theorem State.tablesRise.attestWord (h : s.tablesRise) {e w} : (s.attestWord e w).tablesRise := by
  unfold State.attestWord
  dsimp only
  split
  · exact h.keep
  · split
    · exact h.keep
    · exact h.keep

theorem State.tablesRise.cmdCertRead (h : s.tablesRise) : (s.cmdCertRead).tablesRise := by
  unfold State.cmdCertRead
  split
  · exact h
  · exact .ite h.endZero h.endRun

theorem State.tablesRise.cmdSha (h : s.tablesRise) : (s.cmdSha).tablesRise := by
  unfold State.cmdSha
  split
  · exact h
  · exact h.endRun

theorem State.tablesRise.cmdConfigDigest (h : s.tablesRise) {found} : (s.cmdConfigDigest found).tablesRise := by
  unfold State.cmdConfigDigest
  split
  · exact .ite h.beginDigest h.endRun
  · split
    · split
      · exact h
      · next t e => exact (h.digestEnd e).endRun
      · next t e => exact (h.digestEnd e).endRun
    · exact h

/-! ### Service commands -/

theorem State.tablesRise.cmdRearm (h : s.tablesRise) {pins} : (s.cmdRearm pins).tablesRise := by
  unfold State.cmdRearm
  split
  · exact h
  · extract_lets named ns cleared unseen
    have hunseen : unseen.tablesRise := .foldl (fun _ _ h => h.setPair) h.modIslands
    exact .ite h.endRun (.endRun (.ite hunseen hunseen.count))

theorem State.tablesRise.maskPorts (h : s.tablesRise) {v} : (s.maskPorts v).tablesRise := by
  unfold State.maskPorts
  dsimp only
  exact .foldl (fun _ _ h => .ite h.discardNow.modPort.event h.modPort) h

theorem State.tablesRise.cmdStandby (h : s.tablesRise) : (s.cmdStandby).tablesRise := by
  unfold State.cmdStandby
  split
  · exact h
  · exact .ite h.endRun h.maskPorts.setRun

theorem State.tablesRise.standbyNow (h : s.tablesRise) : (s.standbyNow).tablesRise := by
  unfold State.standbyNow
  dsimp only
  exact .mirrorHealth (.count (.keep (.modIslands (.foldl (fun _ _ h => h.withdrawN.withdrawF) h))))

theorem State.tablesRise.drainDone (h : s.tablesRise) : (s.drainDone).tablesRise := by
  unfold State.drainDone
  split
  · exact h
  · exact .ite h.voidStaged.standbyNow.endRun h

theorem State.tablesRise.drainTimeout (h : s.tablesRise) : (s.drainTimeout).tablesRise := by
  unfold State.drainTimeout
  split
  · exact h
  · exact .ite h.maskPorts.endRun h

theorem State.tablesRise.testFailed (h : s.tablesRise) : (s.testFailed).tablesRise :=
  h.keep

theorem State.tablesRise.cmdSelfTest (h : s.tablesRise) {passed} : (s.cmdSelfTest passed).tablesRise := by
  unfold State.cmdSelfTest
  dsimp only
  split
  · exact h
  · exact .ite h.endZero (.toEngine (.ite h.keep h))

theorem State.tablesRise.selfTestDone (h : s.tablesRise) {e} : (s.selfTestDone e).tablesRise := by
  unfold State.selfTestDone
  dsimp only
  exact .ite h (.ite h.endEngine h.endEngine.testFailed)

theorem State.tablesRise.engineDone (h : s.tablesRise) {pin} : (s.engineDone pin).tablesRise := by
  unfold State.engineDone
  dsimp only
  split
  · exact h
  · split
    · exact h
    · exact .ite h.stageValidated (.ite (.commissionDone (h.keep)) (.ite h.attestSigned (.ite h.selfTestDone h)))

theorem State.tablesRise.cmdLifecycle (h : s.tablesRise) {pin} : (s.cmdLifecycle pin).tablesRise := by
  unfold State.cmdLifecycle
  dsimp only
  split
  · exact h
  · exact .ite (.endZero (h.keep)) (.setRun (h.keep))

theorem State.tablesRise.tapReset (h : s.tablesRise) : (s.tapReset).tablesRise :=
  h.keep

theorem State.tablesRise.lifeBurned (h : s.tablesRise) : (s.lifeBurned).tablesRise := by
  unfold State.lifeBurned
  dsimp only
  split
  · exact .ite (.endRun (.ite (.tapReset (h.keep)) (h.keep))) (.ite (.tapReset (h.keep)) (h.keep))
  · exact .ite (.tapReset (h.keep)) (h.keep)

theorem State.tablesRise.programDone (h : s.tablesRise) {clean} : (s.programDone clean).tablesRise := by
  unfold State.programDone
  split
  · exact h
  · split
    · exact h
    · extract_lets _ _ burnt
      have hburnt : burnt.tablesRise := h.burnCopy.keep
      exact .ite hburnt (.ite hburnt.lifeBurned (.ite hburnt.factoryBurned hburnt))

theorem State.tablesRise.senseAgain (h : s.tablesRise) {l} : (s.senseAgain l).2.2.tablesRise :=
  h.drift.resense.keep

theorem State.tablesRise.cmdResense (h : s.tablesRise) {l} : (s.cmdResense l).tablesRise := by
  unfold State.cmdResense
  split
  · exact h.setRun
  · split
    · exact h
    · exact .ite h h.senseAgain.endRun

theorem State.tablesRise.resenseTick (h : s.tablesRise) {l} : (s.resenseTick l).tablesRise :=
  .ite (.ite h.senseAgain.keep h) (.ite h.keep h)

theorem State.tablesRise.cmdTwinStatus (h : s.tablesRise) : (s.cmdTwinStatus).tablesRise := by
  unfold State.cmdTwinStatus
  dsimp only
  split
  · exact h
  · exact h.endRun

theorem State.tablesRise.cmdSwap (h : s.tablesRise) : (s.cmdSwap).tablesRise := by
  unfold State.cmdSwap
  dsimp only
  split
  · exact h
  · exact .ite h.endZero (.ite h.endZero (.setRun (h.keep)))

theorem State.tablesRise.swapLost (h : s.tablesRise) : (s.swapLost).tablesRise := by
  unfold State.swapLost
  dsimp only
  split
  · exact h
  · split
    · exact .ite (.endZero (h.keep)) (h.keep)
    · exact h.keep

/-! ### Images -/

theorem State.tablesRise.imageFail (h : s.tablesRise) {restore status} : (s.imageFail restore status).tablesRise := by
  unfold State.imageFail
  dsimp only
  refine .endZero ?_
  split
  · refine .event ?_
    refine .keep ?_
    split
    · exact .ite h.undoApply (h.keep)
    · exact h
  · refine .keep ?_
    split
    · exact .ite h.undoApply (h.keep)
    · exact h

theorem State.tablesRise.imageRefuse (h : s.tablesRise) {restore status} : (s.imageRefuse restore status).tablesRise := by
  unfold State.imageRefuse
  dsimp only
  exact .endZero (h.keep)

theorem State.tablesRise.imageOk (h : s.tablesRise) {restore slot gen len} : (s.imageOk restore slot gen len).tablesRise := by
  unfold State.imageOk
  dsimp only
  exact .endRun (.count (h.keep))

theorem State.tablesRise.setImage (h : s.tablesRise) {i} : (s.setImage i).tablesRise :=
  h.keep

theorem State.tablesRise.imageAsk (h : s.tablesRise) {c i} : (s.imageAsk c i).tablesRise :=
  .ite h.setImage h.setImage.request

theorem State.tablesRise.saveChosen (h : s.tablesRise) {r i} : (s.saveChosen r i).tablesRise := by
  unfold State.saveChosen
  dsimp only
  exact .ite h.imageFail h.setImage.askWords

theorem State.tablesRise.saveNext (h : s.tablesRise) {r i} : (s.saveNext r i).tablesRise := by
  unfold State.saveNext
  split
  · exact h.saveChosen
  · exact h.imageAsk

theorem State.tablesRise.saveSeal (h : s.tablesRise) {r i words} : (s.saveSeal r i words).tablesRise := by
  unfold State.saveSeal
  dsimp only
  exact .imageAsk (.setRun (h.keep))

theorem State.tablesRise.saveLine (h : s.tablesRise) {r i} : (s.saveLine r i).tablesRise := by
  unfold State.saveLine
  dsimp only
  exact .ite h.imageOk (.ite h.imageFail h.imageAsk)

theorem State.tablesRise.pageEntry (h : s.tablesRise) {rights e} : (s.pageEntry rights e).tablesRise := by
  unfold State.pageEntry
  dsimp only
  exact .ite h.keep (.setRoute h.keep)

theorem State.tablesRise.pageWrite (h : s.tablesRise) {rights page b t} (e : s.pageWrite rights page b = some t) :
    t.tablesRise := by
  unfold State.pageWrite at e
  dsimp only at e
  split at e
  · obtain ⟨_, e⟩ := Option.ite_none_left_eq_some.mp e
    have written := State.tablesRise.foldl (fun s e (h : s.tablesRise) => h.pageEntry (rights := rights) (e := e))
      (l := s.pageChanges rights page b) h.dropReserved
    obtain rfl := Option.some.inj e
    exact .ite written.unpoison.setEpoch.unlock.setRun written.unpoison.setEpoch.unlock.setRun.emptyCaches.recheck
  · cases e

theorem State.tablesRise.fastRestore (h : s.tablesRise) {k b} : (s.fastRestore k b).tablesRise := by
  unfold State.fastRestore
  dsimp only
  exact .foldl (fun _ _ h => .ite h h.setFastEn) h

theorem State.tablesRise.groupRestore (h : s.tablesRise) {g b} : (s.groupRestore g b).tablesRise := by
  unfold State.groupRestore
  dsimp only
  exact .ite h.setGrpCfg.setGrpHold.unpoison h.setGrpCfg.setGrpHold

theorem State.tablesRise.officerRestore (h : s.tablesRise) {i b} : (s.officerRestore i b).1.tablesRise := by
  unfold State.officerRestore
  split
  · exact h
  · exact h.keep

theorem State.tablesRise.keeperWrite (h : s.tablesRise) {off v} : (s.keeperWrite off v).tablesRise :=
  h.keep

theorem State.tablesRise.applyUnit (h : s.tablesRise) {i t j} (e : s.applyUnit i = .on t j) : t.tablesRise := by
  unfold State.applyUnit at e
  dsimp only at e
  split at e
  · cases e; exact h.fastRestore
  · split at e
    · split at e
      · next u hu => cases e; exact h.pageWrite hu
      · cases e
    · split at e
      · split at e
        · cases e
        · cases e; exact h.groupRestore
      · split at e
        · split at e
          · cases e
          · cases e; exact h.officerRestore
        · split at e
          · cases e
          · cases e; exact h.keeperWrite

theorem State.tablesRise.applyStep (h : s.tablesRise) {i t j} (e : s.applyStep i = .on t j) : t.tablesRise := by
  unfold State.applyStep at e
  split at e
  · split at e
    · cases e
    · split at e
      · cases e; exact h
      · cases e
  · split at e
    · cases e
    · split at e
      · cases e
      · exact h.applyUnit e

theorem State.tablesRise.applyAll (h : s.tablesRise) {n : Nat} {i j : Image} {t b} (e : s.applyAll n i = some (t, j, b)) :
    t.tablesRise := by
  induction n generalizing s i with
  | zero => cases e; exact h
  | succ n ih =>
    unfold State.applyAll at e
    split at e
    · next u k hu => exact ih (h.applyStep hu) e
    · cases e; exact h
    · cases e; exact h
    · cases e

theorem State.tablesRise.applyOn (h : s.tablesRise) {r i} : (s.applyOn r i).tablesRise := by
  unfold State.applyOn
  split
  · exact h.imageFail
  · next t _ _ e =>
    have ht : t.tablesRise := h.applyAll e
    exact .ite ht.setImage.pageTurn (.ite ht.imageAsk (.ite ht.setImage (.ite ht.imageOk ht.imageFail)))

theorem State.tablesRise.applyLine (h : s.tablesRise) {r i data} : (s.applyLine r i data).tablesRise := by
  unfold State.applyLine
  dsimp only
  exact .ite h.applyOn h.applyOn

theorem State.tablesRise.applyBegin (h : s.tablesRise) {r i} : (s.applyBegin r i).tablesRise := by
  unfold State.applyBegin
  dsimp only
  exact .imageAsk (h.keep)

theorem State.tablesRise.restoreNext (h : s.tablesRise) {r i} : (s.restoreNext r i).tablesRise := by
  unfold State.restoreNext
  split
  · exact h.imageFail
  · exact .ite h.imageFail h.imageAsk

theorem State.tablesRise.imageHeader (h : s.tablesRise) {r i data} : (s.imageHeader r i data).tablesRise := by
  unfold State.imageHeader
  dsimp only
  exact .ite h.imageAsk (.ite h.restoreNext h.saveNext)

theorem State.tablesRise.imageAuth (h : s.tablesRise) {r i data} : (s.imageAuth r i data).tablesRise := by
  unfold State.imageAuth
  dsimp only
  exact .ite h.imageAsk (.ite (.ite h.applyBegin h.restoreNext) h.saveNext)

theorem State.tablesRise.stopSave (h : s.tablesRise) {i} : (s.stopSave i).tablesRise := by
  unfold State.stopSave
  dsimp only
  split
  · exact h
  · split
    · exact .imageFail (h.keep)
    · exact .setImage (h.keep)

theorem State.tablesRise.noteChange (h : s.tablesRise) : (s.noteChange).tablesRise := by
  unfold State.noteChange
  split
  · exact h
  · exact .ite h.setImage.stopSave h

theorem State.tablesRise.imageAnswer (h : s.tablesRise) {ok data} : (s.imageAnswer ok data).tablesRise := by
  unfold State.imageAnswer
  dsimp only
  split
  · exact h.keep
  · split
    · exact h
    · split
      · exact h.imageFail
      · split
        · exact h.imageHeader
        · exact h.imageAuth
        · exact h.saveLine
        · exact h.applyLine

theorem State.tablesRise.imageResponse (h : s.tablesRise) {tag ok data} : (s.imageResponse tag ok data).tablesRise :=
  h.answered fun h => h.imageAnswer

theorem State.tablesRise.imageStart (h : s.tablesRise) {restore r} : (s.imageStart restore r).tablesRise := by
  unfold State.imageStart
  dsimp only
  split
  · exact h.imageRefuse
  · split
    · exact h.imageRefuse
    · split
      · exact h.imageRefuse
      · next t e => 
          split
          · refine .imageRefuse ?_
            split
            · exact .ite (h.enterGroup e).undoApply (h.enterGroup e)
            · exact (h.enterGroup e)
          · refine .imageAsk ?_
            refine .setRun ?_
            split
            · exact .ite (h.enterGroup e).undoApply (h.enterGroup e)
            · exact (h.enterGroup e)

theorem State.tablesRise.imageOn (h : s.tablesRise) {r i} : (s.imageOn r i).tablesRise :=
  .ite h (.ite h.applyOn h.imageAsk)

theorem State.tablesRise.cmdImageSave (h : s.tablesRise) : (s.cmdImageSave).tablesRise := by
  unfold State.cmdImageSave
  split
  · exact h.imageStart
  · split
    · exact h.saveSeal
    · split
      · exact .ite h h.imageOn
      · exact h

theorem State.tablesRise.cmdImageRestore (h : s.tablesRise) : (s.cmdImageRestore).tablesRise := by
  unfold State.cmdImageRestore
  split
  · exact h.imageStart
  · split
    · exact .ite h.imageOn h
    · exact h

theorem State.tablesRise.randomTimeout (h : s.tablesRise) : (s.randomTimeout).tablesRise := by
  unfold State.randomTimeout
  dsimp only
  exact .ite (h.wordsTimeout.keep) h.wordsTimeout

theorem State.tablesRise.imageCut (h : s.tablesRise) : (s.imageCut).tablesRise := by
  unfold State.imageCut
  dsimp only
  split
  · exact .ite h.keep h
  · exact h

end Sys2Proof.Machine
end

section
/-! SUPPORT. The twin wells, the outbound master, the resets and a clock edge keep the tables rising. -/

namespace Sys2Proof.Machine
variable {s : State}

/-! ### The twin wells -/

theorem State.tablesRise.checkpoint (h : s.tablesRise) {vecA vecB} : (s.checkpoint vecA vecB).tablesRise := by
  unfold State.checkpoint
  dsimp only
  exact .ite h (.ite h.modWell.modWell (.ite h.modWell.modWell h.modWell))

theorem State.tablesRise.dropStaging (h : s.tablesRise) : (s.dropStaging).tablesRise :=
  h.keep

theorem State.tablesRise.repairReturns (h : s.tablesRise) {status} : (s.repairReturns status).tablesRise := by
  unfold State.repairReturns
  split
  · exact .ite h.endRun h
  · exact h

theorem State.tablesRise.stopRepair (h : s.tablesRise) {fail} : (s.stopRepair fail).tablesRise :=
  h.modWell.dropStaging.keep

theorem State.tablesRise.failRepair (h : s.tablesRise) {fail status} : (s.failRepair fail status).tablesRise := by
  unfold State.failRepair
  dsimp only
  exact .repairReturns (h.stopRepair.keep)

theorem State.tablesRise.tidyRepair (h : s.tablesRise) : (s.tidyRepair).tablesRise := by
  unfold State.tidyRepair
  dsimp only
  exact .ite h h.stopRepair

theorem State.tablesRise.declareDivergent (h : s.tablesRise) {b} : (s.declareDivergent b).tablesRise :=
  h.event.keep

theorem State.tablesRise.holdsNow (h : s.tablesRise) : (s.holdsNow).tablesRise := by
  unfold State.holdsNow
  dsimp only
  split
  · exact .ite (h.modWell.keep) h
  · exact h

theorem State.tablesRise.failFabric (h : s.tablesRise) : (s.failFabric).tablesRise := by
  unfold State.failFabric
  dsimp only
  exact .swapLost (h.keep)

theorem State.tablesRise.actTrigger (h : s.tablesRise) {cause} : (s.actTrigger cause).tablesRise := by
  unfold State.actTrigger
  extract_lets _ taken noted aborted
  have htaken : taken.tablesRise := h.keep
  have hnoted {t : State} (ht : t.tablesRise) (o : Nat) : (noted o t).tablesRise := ht.keep
  have haborted : aborted.tablesRise := .ite htaken.failRepair htaken
  exact .ite (hnoted haborted 2).failFabric (.ite (.ite (hnoted htaken 0).declareDivergent.failRepair htaken)
    (.ite (.ite (hnoted htaken 0).failRepair (.ite (hnoted htaken 0).declareDivergent.swapLost htaken)) htaken))

theorem State.tablesRise.triggersAct (h : s.tablesRise) : (s.triggersAct).tablesRise := by
  unfold State.triggersAct
  split
  · exact h
  · exact .ite h h.actTrigger

theorem State.tablesRise.linkLost (h : s.tablesRise) : (s.linkLost).tablesRise :=
  .ite h.trigger (.ite h.failRepair h)

theorem State.tablesRise.frameArrive (h : s.tablesRise) {toB noise} : (s.frameArrive toB noise).tablesRise := by
  unfold State.frameArrive
  dsimp only
  exact .ite h (.ite h.linkLost (.ite h.modWell (.ite h.linkLost h.modWell.count)))

theorem State.tablesRise.trusted (h : s.tablesRise) : (s.trusted).tablesRise := by
  unfold State.trusted
  dsimp only
  split
  · exact .ite (.repairReturns (.event (h.keep))) h
  · exact h

theorem State.tablesRise.swapNow (h : s.tablesRise) : (s.swapNow).tablesRise := by
  unfold State.swapNow
  dsimp only
  split
  · exact h
  · split
    · exact h.swapLost
    · split
      · exact .ite (.endRun (.count (h.keep))) (.count (h.keep))
      · exact .count (h.keep)

theorem State.tablesRise.sigCompare (h : s.tablesRise) : (s.sigCompare).tablesRise := by
  unfold State.sigCompare
  extract_lets l m _ compared
  have hcompared : compared.tablesRise := State.tablesRise.count h.keep
  exact .ite h (.ite hcompared.trusted.swapNow (.ite hcompared.trigger.swapLost hcompared.trigger))

theorem State.tablesRise.heartbeatLoss (h : s.tablesRise) {b} : (s.heartbeatLoss b).tablesRise := by
  unfold State.heartbeatLoss
  dsimp only
  exact .ite h.modWell.count.linkLost h

theorem State.tablesRise.decideAt (h : s.tablesRise) {t} : (s.decideAt t).tablesRise :=
  h.keep

theorem State.tablesRise.reports (h : s.tablesRise) {b healthy} : (s.reports b healthy).tablesRise := by
  unfold State.reports
  dsimp only
  exact .ite h.modWell.decideAt h.modWell

theorem State.tablesRise.silentNow (h : s.tablesRise) {b} : (s.silentNow b).tablesRise := by
  unfold State.silentNow
  split
  · exact .ite h.reports h
  · exact h

theorem State.tablesRise.leadSilent (h : s.tablesRise) {quiet} : (s.leadSilent quiet).tablesRise :=
  .ite h.silentNow.trigger h

theorem State.tablesRise.mirrorSilent (h : s.tablesRise) {quiet} : (s.mirrorSilent quiet).tablesRise :=
  .ite h.silentNow.trigger h

theorem State.tablesRise.linesLow (h : s.tablesRise) : (s.linesLow).tablesRise :=
  .foldl (fun _ _ h => h.modCore) h

theorem State.tablesRise.freeze (h : s.tablesRise) : (s.freeze).tablesRise := by
  unfold State.freeze
  dsimp only
  split
  · exact h
  · exact .ite h (h.modWell.modWell.linesLow.keep)

theorem State.tablesRise.selfReport (h : s.tablesRise) {b c} : (s.selfReport b c).tablesRise := by
  unfold State.selfReport
  split
  · exact h
  · exact .ite h h.reports

theorem State.tablesRise.selfDeadline (h : s.tablesRise) : (s.selfDeadline).tablesRise := by
  unfold State.selfDeadline
  split
  · exact h
  · exact .ite h h.decideAt

theorem State.tablesRise.decideNow (h : s.tablesRise) {f t} : (s.decideNow f t).tablesRise := by
  unfold State.decideNow
  extract_lets _ l heir promoted fault _ _ _ _ noted told _ decided
  have hnoted : noted.tablesRise := h.keep
  have htold : told.tablesRise := .ite hnoted hnoted.event
  have hdecided : decided.tablesRise := htold.keep
  exact .ite hdecided.failFabric (.ite hdecided.count.declareDivergent hdecided.declareDivergent)

theorem State.tablesRise.replayOne (h : s.tablesRise) {j} : (s.replayOne j).tablesRise := by
  unfold State.replayOne
  dsimp only
  exact .count (.foldl (fun _ _ h => h.modCore) (.setInt (.ite h.freeSlot h)))

theorem State.tablesRise.replayNow (h : s.tablesRise) : (s.replayNow).tablesRise := by
  unfold State.replayNow
  dsimp only
  split
  · split
    · exact .ite h (.foldl (fun _ _ h => h.replayOne) (h.keep))
    · exact h
  · exact h

theorem State.tablesRise.failoverPhases (h : s.tablesRise) : s.failoverPhases.tablesRise := by
  unfold State.failoverPhases
  extract_lets decided
  have hdecided : decided.tablesRise := by
    dsimp only [decided]
    split
    · split
      · exact .ite h.decideNow h
      · exact h
    · exact h
  split
  · split
    · exact .ite hdecided.keep hdecided
    · exact hdecided
  · exact hdecided

theorem State.tablesRise.openRounds (h : s.tablesRise) : (s.openRounds).tablesRise :=
  .foldl (fun _ _ h => h.modCore) h

theorem State.tablesRise.replay (h : s.tablesRise) : (s.replay).tablesRise :=
  h.openRounds.keep

theorem State.tablesRise.prepareRewrites (h : s.tablesRise) {freeze} : (s.prepareRewrites freeze).tablesRise :=
  h.keep

theorem State.tablesRise.redrive (h : s.tablesRise) : (s.redrive).tablesRise := by
  unfold State.redrive
  dsimp only
  exact .foldl (fun _ _ h => h.modCore) h

theorem State.tablesRise.unfreeze (h : s.tablesRise) : (s.unfreeze).tablesRise := by
  unfold State.unfreeze
  dsimp only
  split
  · exact h
  · split
    · exact h
    · exact .ite h (.swapLost (.redrive (.ite (.prepareRewrites (.replay (h.keep))) (h.keep))))

theorem State.tablesRise.startAttempt (h : s.tablesRise) {phase slots base} : (s.startAttempt phase slots base).tablesRise :=
  h.modWell.count.keep

theorem State.tablesRise.repairStart (h : s.tablesRise) {r powerGood} : (s.repairStart r powerGood).tablesRise := by
  unfold State.repairStart
  extract_lets base size
  refine .ite h.endZero (.ite h.endZero (.ite h.endZero ?_))
  split
  · exact h.endZero
  · next t e =>
    extract_lets stopped m powered started _ repairing
    have ht : t.tablesRise := h.enterGroup e
    have hstopped : stopped.tablesRise := .ite ht.stopRepair ht
    have hrepairing : repairing.tablesRise := hstopped.modWell.modWell.keep
    exact .ite hstopped.modWell.endZero hrepairing.startAttempt.setRun

theorem State.tablesRise.cmdRepair (h : s.tablesRise) {powerGood} : (s.cmdRepair powerGood).tablesRise := by
  unfold State.cmdRepair
  split
  · exact h.repairStart
  · split
    · split
      · exact h.setRun
      · exact h.repairReturns
    · exact h

theorem State.tablesRise.setRepair (h : s.tablesRise) {r} : (s.setRepair r).tablesRise :=
  h.keep

theorem State.tablesRise.digestMatch (h : s.tablesRise) {agree} : (s.digestMatch agree).tablesRise := by
  unfold State.digestMatch
  split
  · extract_lets heard wells
    have hwells : wells.tablesRise := h.modWell.modWell
    exact .ite h (.ite h.failRepair (.setRepair hwells.keep))
  · exact h

theorem State.tablesRise.repairWord (h : s.tablesRise) {r w} : (s.repairWord r w).tablesRise := by
  unfold State.repairWord
  dsimp only
  exact .ite h.setRepair h.setRepair

theorem State.tablesRise.repairStarved (h : s.tablesRise) : (s.repairStarved).tablesRise := by
  unfold State.repairStarved
  split
  · exact .ite h.failRepair h
  · exact h

theorem State.tablesRise.chunkStage (h : s.tablesRise) : (s.chunkStage).tablesRise := by
  unfold State.chunkStage
  dsimp only
  split
  · split
    · exact h
    · exact .setRepair (h.unlock.keep)
  · exact h

theorem State.tablesRise.stagingAnswer (h : s.tablesRise) {k ok data} : (s.stagingAnswer k ok data).tablesRise := by
  unfold State.stagingAnswer
  dsimp only
  split
  · exact .ite h (.ite h.failRepair (.ite h.setRepair (.ite h.keep h)))
  · exact h

theorem State.tablesRise.tagFailed (h : s.tablesRise) {r} : (s.tagFailed r).tablesRise := by
  unfold State.tagFailed
  dsimp only
  exact .ite (.failRepair (h.count.keep)) (.setRepair (.keep (.dropStaging (h.count.keep))))

theorem State.tablesRise.chunkPoison (h : s.tablesRise) {r slot} : (s.chunkPoison r slot).tablesRise := by
  unfold State.chunkPoison
  dsimp only
  exact .foldl (fun _ _ h => .ite h h.modWell) h

theorem State.tablesRise.chunkOpen (h : s.tablesRise) : (s.chunkOpen).tablesRise := by
  unfold State.chunkOpen
  dsimp only
  split
  · split
    · exact h
    · exact .ite h (.ite h.chunkPoison.tagFailed h.chunkPoison.setRepair)
  · exact h

theorem State.tablesRise.refillDone (h : s.tablesRise) : (s.refillDone).tablesRise := by
  unfold State.refillDone
  split
  · split
    · exact .ite h.startAttempt h
    · exact h
  · exact h

theorem State.tablesRise.forwarded (h : s.tablesRise) {store page} : (s.forwarded store page).tablesRise := by
  unfold State.forwarded
  dsimp only
  split
  · split
    · exact h
    · exact .ite h h.modWell.count.setRepair
  · exact h

theorem State.tablesRise.join (h : s.tablesRise) : (s.join).tablesRise := by
  unfold State.join
  dsimp only
  split
  · exact .ite h (.setRepair (h.modWell.modWell.modWell.modIslands.keep))
  · exact h

theorem State.tablesRise.powerGone (h : s.tablesRise) {b} : (s.powerGone b).tablesRise := by
  unfold State.powerGone
  dsimp only
  exact .ite h.modWell.failRepair h.modWell

theorem State.tablesRise.watchdogExpires (h : s.tablesRise) : (s.watchdogExpires).tablesRise :=
  .ite h.imageCut.watchdog h

theorem State.tablesRise.randomExpires (h : s.tablesRise) : (s.randomExpires).tablesRise :=
  h.randomTimeout.repairStarved

/-! ### The outbound master -/

theorem State.tablesRise.accessFailed (h : s.tablesRise) {k cause} : (s.accessFailed k cause).tablesRise := by
  unfold State.accessFailed
  split
  · exact h.imageAnswer
  · exact h.stagingAnswer
  · exact h.failPump

theorem State.tablesRise.countIssued (h : s.tablesRise) {k} : (s.countIssued k).tablesRise :=
  .ite h h.count

theorem State.tablesRise.issue (h : s.tablesRise) {q} : (s.issue q).tablesRise := by
  unfold State.issue
  dsimp only
  split
  · exact h.count.accessFailed
  · split
    · refine .count ?_
      split
      · exact .ite (.count (.countIssued (h.keep))) (.countIssued (h.keep))
      · exact .countIssued (h.keep)
    · split
      · exact .ite (.count (.countIssued (h.keep))) (.countIssued (h.keep))
      · exact .countIssued (h.keep)

theorem State.tablesRise.takeTier2 (h : s.tablesRise) {w q t} (e : s.takeTier2 w = some (q, t)) : t.tablesRise := by
  unfold State.takeTier2 at e
  split at e
  · cases e; exact h.keep
  · split at e
    · split at e
      · cases e; exact h.keep
      · cases e
    · split at e
      · cases e; exact h.keep
      · split at e
        · cases e; exact h.setCached
        · cases e

theorem State.tablesRise.grantRewrite (h : s.tablesRise) {q rest} : (s.grantRewrite q rest).tablesRise := by
  unfold State.grantRewrite
  dsimp only
  exact .issue (.ite (.count (h.keep)) (h.keep))

theorem State.tablesRise.grantTier2 (h : s.tablesRise) : (s.grantTier2).tablesRise := by
  unfold State.grantTier2
  dsimp only
  split
  · exact h
  · split
    · exact h
    · next _ t e => exact .issue (.arbCharge (.ite (h.takeTier2 e).count (h.takeTier2 e)))

theorem State.tablesRise.outboundGrant (h : s.tablesRise) : (s.outboundGrant).tablesRise := by
  unfold State.outboundGrant
  dsimp only
  split
  · exact h.grantRewrite
  · split
    · exact .issue (h.keep)
    · exact .ite h.grantTier2 h

theorem State.tablesRise.grantOutbound (h : s.tablesRise) : (s.grantOutbound).tablesRise :=
  h.noteChange.outboundGrant

theorem State.tablesRise.requestTaken (h : s.tablesRise) : (s.requestTaken).tablesRise := by
  unfold State.requestTaken
  dsimp only
  split
  · exact h
  · split
    · exact h.keep
    · exact h.keep

theorem State.tablesRise.lineAnswer (h : s.tablesRise) {tag ok} : (s.lineAnswer tag ok).tablesRise := by
  unfold State.lineAnswer
  split
  · exact .ite (h.answered fun h => h.stagingAnswer) h.lineResponse
  · exact h.lineResponse

theorem State.tablesRise.slotAnswer (h : s.tablesRise) {tag ok data} : (s.slotAnswer tag ok data).tablesRise := by
  unfold State.slotAnswer
  split
  · exact .ite (h.answered fun h => h.stagingAnswer) h.imageResponse
  · exact h.imageResponse

theorem State.tablesRise.outboundTimeout (h : s.tablesRise) {tag} : (s.outboundTimeout tag).tablesRise := by
  unfold State.outboundTimeout
  dsimp only
  split
  · exact h
  · split
    · exact h
    · exact .ite h (.accessFailed (.count (h.keep)))

theorem State.tablesRise.lateAnswer (h : s.tablesRise) {tag} : (s.lateAnswer tag).tablesRise := by
  unfold State.lateAnswer
  split
  · exact .ite h.freeTag h
  · exact h

theorem State.tablesRise.strayResponse (h : s.tablesRise) {tag read} : (s.strayResponse tag read).tablesRise := by
  unfold State.strayResponse
  split
  · exact .ite h.stray h
  · exact h.stray

theorem State.tablesRise.whenSeen (h : s.tablesRise) {ago} {f : State → State} (hf : (f s).tablesRise) :
    (s.whenSeen ago f).tablesRise :=
  .ite hf h

theorem State.tablesRise.applyAnswer (h : s.tablesRise) {i} : (s.applyAnswer i).tablesRise := by
  unfold State.applyAnswer
  split
  · exact h.level1Response
  · exact h.descriptorResponse
  · exact h.controlResponse
  · exact h.headResponse
  · exact h.lineAnswer
  · exact h.producerResponse
  · exact h.lateAnswer
  · exact h.strayResponse
  · exact h.slotAnswer
  · exact h.maskPort
  · exact h.unmaskPort
  · exact h.sleepSeen
  · exact h.wakeSeen
  · exact h

theorem State.tablesRise.response (h : s.tablesRise) {i} : (s.response i).tablesRise := by
  unfold State.response
  dsimp only
  exact .ite h (.ite h.keep h.applyAnswer)

theorem State.tablesRise.pinSeen (h : s.tablesRise) {ago i} : (s.pinSeen ago i).tablesRise :=
  .ite h (h.whenSeen h.response)

theorem State.tablesRise.resume (h : s.tablesRise) : (s.resume).tablesRise := by
  unfold State.resume
  dsimp only
  exact .ite h.unfreeze (.foldl (fun _ _ h => h.applyAnswer) (h.unfreeze.keep))

/-! ### The sweep of the fast table -/

theorem State.tablesRise.stopMarked (h : s.tablesRise) {status} : (s.stopMarked status).tablesRise :=
  .ite h.stopReencode (.ite h.dropReserved.imageFail h.failRepair)

theorem State.tablesRise.lockOverrun (h : s.tablesRise) : (s.lockOverrun).tablesRise := by
  unfold State.lockOverrun
  dsimp only
  split
  · exact .ite h (.stopMarked (h.unlock.event.keep))
  · exact h

theorem State.tablesRise.scrubAgain (h : s.tablesRise) {l} : (s.scrubAgain l).tablesRise := by
  unfold State.scrubAgain
  dsimp only
  split
  · exact .ite h h.setWalker
  · exact h

theorem State.tablesRise.afterBreak (h : s.tablesRise) {l} : (s.afterBreak l).tablesRise := by
  unfold State.afterBreak
  dsimp only
  split
  · exact h.keep
  · split
    · exact h.stopMarked
    · split
      · split
        · exact h.dropReserved.endCount
        · exact h
      · exact h.scrubAgain

theorem State.tablesRise.breakLock (h : s.tablesRise) {l} : (s.breakLock l).tablesRise := by
  unfold State.breakLock
  dsimp only
  exact .afterBreak (h.unlock.count.keep)

theorem State.tablesRise.breakRow (h : s.tablesRise) {rights} : (s.breakRow rights).tablesRise := by
  unfold State.breakRow
  dsimp only
  exact .ite (h.setHash.count.keep) h

theorem State.tablesRise.breakLocks (h : s.tablesRise) : (s.breakLocks).tablesRise := by
  unfold State.breakLocks
  extract_lets held ended broken
  have hended : ended.tablesRise := .foldl (fun _ _ h => h.breakLock) h
  have hbroken : broken.tablesRise := hended.breakRow.breakRow
  exact .ite hbroken (State.tablesRise.count hbroken.keep)

theorem State.tablesRise.sweep (h : s.tablesRise) : (s.sweep).tablesRise := by
  unfold State.sweep
  dsimp only
  exact .ite h (.ite (.breakLocks (.clearHosts (h.keep))) (.clearHosts (h.keep)))

theorem State.tablesRise.zSeen (h : s.tablesRise) {n} : (s.zSeen n).tablesRise := by
  unfold State.zSeen
  dsimp only
  exact .ite h (.ite h.setPair h.setPair.count.clearHosts.breakLocks)

theorem State.tablesRise.zSets (h : s.tablesRise) {d} : (s.zSets d).tablesRise := by
  unfold State.zSets
  dsimp only
  refine .foldl (fun _ _ h => ?_) h
  split
  · exact .ite h (.keep (.pend (h.setPair.keep)))
  · exact h

/-! ### Start-up and the resets (R403, R404) -/

theorem State.tablesRise.failStep (h : s.tablesRise) {b} : (s.failStep b).tablesRise := by
  unfold State.failStep
  dsimp only
  exact .ite h.failRepair (.ite (h.modWell.keep) h.modWell)

theorem State.tablesRise.beginKat (h : s.tablesRise) : (s.beginKat).tablesRise := by
  unfold State.beginKat
  dsimp only
  exact .ite h (h.keep)

theorem State.tablesRise.sweptPage (h : s.tablesRise) {store page r} : (s.sweptPage store page r).tablesRise := by
  unfold State.sweptPage
  extract_lets _ _ _ _ _ _ _ _ _ _ counted inA inB
  have hcounted : counted.tablesRise := .ite h.countErr h
  have hinA : inA.tablesRise := .ite hcounted.poisonIn hcounted
  have hinB : inB.tablesRise := .ite hinA.poisonIn hinA
  exact .ite hinB.countPoison hinB

theorem State.tablesRise.sweepInactive (h : s.tablesRise) {page} : (s.sweepInactive page).tablesRise := by
  obtain ⟨_, ints, _⟩ := id h
  exact .count (.unpoison (h.setInts (rising_filter _ ints)))

theorem State.tablesRise.sweptPoison (h : s.tablesRise) {key} : (s.sweptPoison key).tablesRise := by
  unfold State.sweptPoison
  dsimp only
  exact .ite h (.ite h.sweepInactive (.ite h.breakPage (.ite h.keep h)))

theorem State.tablesRise.sweptWhole (h : s.tablesRise) : (s.sweptWhole).tablesRise := by
  unfold State.sweptWhole
  dsimp only
  exact .modWell (.modWell (h.keep))

theorem State.tablesRise.warmReads (h : s.tablesRise) {found} : (s.warmReads found).tablesRise := by
  unfold State.warmReads
  extract_lets named stored listed swept
  have hlisted : listed.tablesRise := .foldl (fun _ _ h => h.sweptPage) h
  have hswept : swept.tablesRise := .foldl (fun _ _ h => h.sweptPage) hlisted
  exact .foldl (fun _ _ h => .foldl (fun _ _ h => h.sweptPage) h) hswept

theorem State.tablesRise.warmSweep (h : s.tablesRise) {found} : (s.warmSweep found).tablesRise := by
  unfold State.warmSweep
  dsimp only
  exact .foldl (fun _ _ h => h.sweptPoison) h.countBy.warmReads.sweptWhole

theorem State.tablesRise.stepDone (h : s.tablesRise) {b ok found} : (s.stepDone b ok found).tablesRise := by
  unfold State.stepDone
  extract_lets step sensed swept next moved
  have hsensed : sensed.tablesRise := .ite h.senseFuses h
  have hswept : swept.tablesRise := .ite hsensed.warmSweep hsensed
  exact .ite h (.ite h.failStep (.ite hswept.modWell.beginKat hswept.modWell))

theorem State.tablesRise.stepTimeout (h : s.tablesRise) {b} : (s.stepTimeout b).tablesRise := by
  unfold State.stepTimeout
  dsimp only
  exact .ite h.failStep h

theorem State.tablesRise.powerOn : s.powerOn.tablesRise :=
  State.tablesRise.reset.keep

theorem State.tablesRise.powerFall (h : s.tablesRise) {b} : (s.powerFall b).tablesRise :=
  .ite h (.ite h.powerGone .powerOn)

theorem State.tablesRise.release0 (h : s.tablesRise) {goodA goodB} : (s.release0 goodA goodB).tablesRise := by
  unfold State.release0
  extract_lets up wells clocked
  have hwells : wells.tablesRise := h.modWell.modWell
  have hclocked : clocked.tablesRise := hwells.keep
  exact .ite h hclocked.keep

theorem Pump.afterWarm_cache_rising {p : Pump} (h : rising 0 p.cache = true) : rising 0 p.afterWarm.cache = true :=
  rising_filterMap (fun e e' he => by
    obtain ⟨x, _, rfl⟩ := Option.map_eq_some_iff.mp he
    rfl) h

theorem groupsAfterWarm_rising {t : Tbl Group} (h : rising 0 t = true) : rising 0 (groupsAfterWarm t) = true :=
  rising_filterMap (fun e e' he => by
    dsimp only at he
    split at he
    · cases he
    · cases he; rfl) h

theorem intsAfterWarm_rising {t : Tbl IntState} (h : rising 0 t = true) : rising 0 (intsAfterWarm t) = true :=
  rising_filterMap (fun e e' he => by
    dsimp only at he
    split at he
    · cases he; rfl
    · cases he) h

/-- A warm reset keeps of the INTIDs, groups, cache entries and pairs some entries, each at its number. -/
theorem State.tablesRise.warmed (h : s.tablesRise) : s.warmed.tablesRise := by
  unfold State.warmed
  extract_lets r t
  have ht : t.tablesRise := .ite h.modWell h
  clear_value t
  obtain ⟨_, ints, _, _, groups, _, _, cache, pairs, _⟩ := ht
  exact ⟨rfl, intsAfterWarm_rising ints, rfl, rfl, groupsAfterWarm_rising groups, rfl, rfl, Pump.afterWarm_cache_rising cache,
    rising_filterMap (fun e e' he => by
      cases (Option.ite_none_right_eq_some.mp he).2
      rfl) pairs, rfl, rfl, List.forall_mem_nil _⟩

theorem State.tablesRise.warmReset (h : s.tablesRise) {lowFor} : (s.warmReset lowFor).tablesRise :=
  .ite h h.warmed

theorem State.tablesRise.aonLoss (h : s.tablesRise) : (s.aonLoss).tablesRise :=
  h.keep

theorem State.tablesRise.pairUp (h : s.tablesRise) {agree} : (s.pairUp agree).tablesRise := by
  unfold State.pairUp
  extract_lets l promoted both kept _ led _ paired held fresh wells _ compared
  have hled : led.tablesRise := h.keep
  have hpaired : paired.tablesRise := .ite hled.keep (.ite hled hled.keep)
  have hheld : held.tablesRise := .ite hpaired.modWell hpaired
  have hcompared : compared.tablesRise := State.tablesRise.keep (s := wells) hheld.modWell.modWell
  exact .ite hcompared.count.count hcompared

theorem State.tablesRise.startTimers (h : s.tablesRise) : s.startTimers.tablesRise := by
  unfold State.startTimers
  extract_lets e go rt rg _ walkers _ _ started windows bounded
  have hstarted : started.tablesRise := h.keep
  clear_value started
  have hbounded : bounded.tablesRise := .foldl (fun _ _ h => h.boundary) hstarted.setWindow
  clear_value bounded
  exact hbounded.keep

theorem State.tablesRise.startSampling (h : s.tablesRise) : (s.startSampling).tablesRise :=
  .foldl (fun _ _ h => h.setWire) h

theorem State.tablesRise.wakeActions (h : s.tablesRise) : s.wakeActions.tablesRise := by
  unfold State.wakeActions
  extract_lets i woken _ caused set paired
  have hcaused : caused.tablesRise := .ite (.count h.keep) h
  have hset : set.tablesRise := .ite hcaused (.foldl (fun _ _ h => .ite h (by
    split
    · exact h.localOrDrop
    · exact h.pend)) hcaused)
  have hpaired : paired.tablesRise := .ite hset (.foldl (fun _ _ h => .ite h.setPair h) hset)
  exact hpaired.modIslands

theorem State.tablesRise.becomeReady (h : s.tablesRise) {agree} : (s.becomeReady agree).tablesRise := by
  unfold State.becomeReady
  extract_lets warm word paired _ unapplied _ loaded timed _ ready _ done
  have hpaired : paired.tablesRise := h.pairUp
  clear_value paired
  have hunapplied : unapplied.tablesRise := by
    dsimp only [unapplied]
    split
    · exact hpaired.undoApply
    · exact hpaired.keep
  clear_value unapplied
  have hloaded : loaded.tablesRise := .ite hunapplied.keep hunapplied.loadVaults
  clear_value loaded
  have htimed : timed.tablesRise := hloaded.startTimers.startSampling
  clear_value timed
  have hready : ready.tablesRise := htimed.keep
  clear_value ready
  have hdone : done.tablesRise := .ite hready.keep hready.keep
  exact .ite h hdone.wakeActions

theorem State.tablesRise.endKat (h : s.tablesRise) {fall} : (s.endKat fall).tablesRise :=
  h.keep

theorem State.tablesRise.katWord (h : s.tablesRise) {w} : (s.katWord w).tablesRise := by
  unfold State.katWord
  dsimp only
  exact .ite h (h.keep)

theorem State.tablesRise.katFalls (h : s.tablesRise) : (s.katFalls).tablesRise :=
  .ite h.endKat h

theorem State.tablesRise.drawWord (h : s.tablesRise) {w} : (s.drawWord w).tablesRise := by
  unfold State.drawWord
  dsimp only
  exact .ite h.keep (.ite h.keep (.ite h.keep h.keep))

theorem State.tablesRise.giveWord (h : s.tablesRise) {w} : (s.giveWord w).tablesRise := by
  unfold State.giveWord
  dsimp only
  split
  · exact h.drawWord
  · split
    · exact h.factoryReset.factoryReturn
    · split
      · exact h
      · split
        · exact h.keep
        · split
          · exact h.keep
          · split
            · exact h.repairWord
            · split
              · exact h
              · split
                · exact h.attestWord
                · split
                  · exact .ite h.keep h
                  · exact h

theorem State.tablesRise.rndWord (h : s.tablesRise) {w health} : (s.rndWord w health).tablesRise := by
  unfold State.rndWord
  dsimp only
  exact .ite h.keep (.ite (.katWord h.keep) (.ite h.keep (.giveWord h.keep)))

theorem State.tablesRise.katTimeout (h : s.tablesRise) : (s.katTimeout).tablesRise := by
  unfold State.katTimeout
  dsimp only
  split
  · exact h
  · exact .ite h (.ite h.endKat (.foldl (fun _ _ h => .ite h.failStep h) h.endKat))

theorem State.tablesRise.sclkTo (h : s.tablesRise) {last} : (s.sclkTo last).tablesRise :=
  h.keep

theorem State.tablesRise.sclkEdge (h : s.tablesRise) : (s.sclkEdge).tablesRise :=
  .ite h.sclkTo h

theorem State.tablesRise.sclkPast (h : s.tablesRise) {e} : (s.sclkPast e).tablesRise :=
  .ite h.sclkTo h

theorem State.tablesRise.flipInt (h : s.tablesRise) {key m} : (s.flipInt key m).tablesRise :=
  .ite h h.modInt

theorem State.tablesRise.flipFast (h : s.tablesRise) {n m} : (s.flipFast n m).tablesRise :=
  h.modCore

theorem State.tablesRise.voteFlops (h : s.tablesRise) {us cell} : (s.voteFlops us cell).tablesRise := by
  unfold State.voteFlops
  extract_lets a b c m fix
  have hfix {t : State} (ht : t.tablesRise) (store core intid : Nat) : (fix store core intid t).tablesRise :=
    .ite ht.voteFixed (.ite ht.voteFixed (.ite ht.voteFixed ht))
  split
  · exact h
  · exact hfix h.flipInt _ _ _
  · exact hfix h.flipInt _ _ _
  · exact hfix (.ite h h.flipFast) _ _ _

theorem State.tablesRise.upset (h : s.tablesRise) {u} : (s.upset u).tablesRise := by
  unfold State.upset
  dsimp only
  split
  · exact h.setFt
  · exact h

theorem State.tablesRise.fastSweep (h : s.tablesRise) {upsets} : (s.fastSweep upsets).tablesRise := by
  unfold State.fastSweep
  extract_lets struck voted i fixed
  have hstruck : struck.tablesRise := .foldl (fun _ _ h => h.upset) h
  have hvoted : voted.tablesRise := .foldl (fun _ _ h => h.voteFlops) hstruck
  exact .ite hvoted hvoted.ftFix.keep

theorem State.tablesRise.tapEdge (h : s.tablesRise) {tms tdi trstN code} : (s.tapEdge tms tdi trstN code).tablesRise := by
  unfold State.tapEdge
  dsimp only
  exact .ite h.tapReset (h.keep)

/-! ### A clock edge and the time between two commands (R20, R22) -/

theorem State.tablesRise.digestIdle (h : s.tablesRise) {n last : Nat} : (State.digestIdle n last s).tablesRise := by
  induction n generalizing s with
  | zero => exact h
  | succ n ih =>
    unfold State.digestIdle
    exact .ite h (ih (.grantKeeper h.keep))

theorem State.tablesRise.keeperIdle (h : s.tablesRise) {d} : (s.keeperIdle d).tablesRise := by
  unfold State.keeperIdle
  dsimp only
  exact .foldl (fun _ _ h => .grantKeeper (h.keep)) h.digestIdle

theorem State.tablesRise.tidy (h : s.tablesRise) : (s.tidy).tablesRise := by
  unfold State.tidy
  dsimp only
  exact .ite h.tidyImage.noteChange.tidyRepair.pendSetPlaced.settle h.tidyImage.noteChange.tidyRepair

theorem State.tablesRise.unitRounds (h : s.tablesRise) {n m last : Nat} : (State.unitRounds n m last s).tablesRise := by
  induction n generalizing s with
  | zero => exact h
  | succ n ih =>
    unfold State.unitRounds
    extract_lets g dp _ t
    have ht : t.tablesRise := .unitRound h.keep
    exact .ite h (ih ht.keep)

theorem State.tablesRise.unitsIdle (h : s.tablesRise) {d} : (s.unitsIdle d).tablesRise :=
  .ite h (.foldl (fun _ _ h => h.unitRounds) h)

theorem State.tablesRise.arbsIdle (h : s.tablesRise) : (s.arbsIdle).tablesRise := by
  unfold State.arbsIdle
  dsimp only
  exact .foldl (fun _ _ h => .ite h.dropArb h.restArb) h

theorem State.tablesRise.locksIdle (h : s.tablesRise) : (s.locksIdle).tablesRise :=
  h.keep

theorem State.tablesRise.planeIdle (h : s.tablesRise) {d} : (s.planeIdle d).tablesRise := by
  unfold State.planeIdle
  dsimp only
  exact .ite h h.ftWriteBack.loadSlots.decodeAll.arbsIdle.sluiceIdle.wakesIdle.unitsIdle.keeperIdle

theorem State.tablesRise.span (h : s.tablesRise) {dt} : (s.span dt).tablesRise := by
  unfold State.span
  extract_lets d dp e idled _ moved acted
  have hidled : idled.tablesRise := h.sclkPast.planeIdle.zSets
  clear_value idled
  have hmoved : moved.tablesRise := hidled.keep
  clear_value moved
  have hacted : acted.tablesRise := hmoved.failoverPhases.replayNow.holdsNow.triggersAct.scrubEdges
  clear_value acted
  exact hacted.locksIdle.measureAll.settle

theorem State.tablesRise.wrapsOut (h : s.tablesRise) : (s.wrapsOut).tablesRise :=
  .ite h (.settle (h.keep))

theorem State.tablesRise.edgeEnds (h : s.tablesRise) : (s.edgeEnds).tablesRise :=
  .settle (.pairsNow (.katFalls (.wrapsOut (.wrapsOut (h.keep)))))

theorem State.tablesRise.spans (h : s.tablesRise) {n last : Nat} : (State.spans n last s).tablesRise := by
  induction n generalizing s with
  | zero => exact h.span
  | succ n ih =>
    unfold State.spans
    exact .ite h.span (ih h.span.pairsNow.settle)

theorem State.tablesRise.advance (h : s.tablesRise) {dt} : (s.advance dt).tablesRise := by
  unfold State.advance
  dsimp only
  exact .ite h (.ite h.span (.span (.mark (.ite h.edgeEnds.sclkPast h.edgeEnds.sclkPast.spans.pairsNow.settle))))

theorem State.tablesRise.pass (h : s.tablesRise) {a} : (s.pass a).tablesRise := by
  unfold State.pass
  dsimp only
  exact .settle (.perform (h.keep))

theorem State.tablesRise.drain (h : s.tablesRise) {n last : Nat} : (State.drain n last s).tablesRise := by
  induction n generalizing s with
  | zero => exact h
  | succ n ih =>
    unfold State.drain
    split
    · exact h
    · exact .ite h (.ite h.advance (ih (.pass h.advance.keep)))

theorem State.tablesRise.elapse (h : s.tablesRise) {dt} : (s.elapse dt).tablesRise :=
  h.tidy.drain.advance.settle

theorem State.tablesRise.offer (h : s.tablesRise) {a} : (s.offer a).tablesRise := by
  unfold State.offer
  dsimp only
  exact .ite h.answer (.ite h (.ite h.keep (.ite (h.elapse.keep) h.elapse.pass)))

/-! ### The settling of fabric events -/

theorem State.tablesRise.boundaryDue (h : s.tablesRise) {kind} : (s.boundaryDue kind).tablesRise :=
  .ite h.boundary h

theorem State.tablesRise.holdEnds (h : s.tablesRise) {g} : (s.holdEnds g).tablesRise :=
  .ite h.modGroup h

end Sys2Proof.Machine
end

section
/-! SUPPORT. Every form of a command keeps the tables rising, and so does every command (R22). -/

namespace Sys2Proof.Machine
variable {s : State}

theorem State.tablesRise.left (h : s.tablesRise) {t : State} : (t.left s).tablesRise :=
  (State.tablesRise.settle h).keep

theorem State.tablesRise.always (h : s.tablesRise) {dt : Nat} {f : State → State} {t : State} (e : s.always dt f = .next t)
    (hf : (s.elapse dt).tablesRise → (f (s.elapse dt)).tablesRise) : t.tablesRise := by
  cases e
  exact (hf h.elapse).left

theorem State.tablesRise.clockedBy (h : s.tablesRise) {dt : Nat} {f : State → State} {t : State}
    (e : s.clockedBy dt f = .next t) (hf : (s.elapse dt).tablesRise → (f (s.elapse dt)).tablesRise) : t.tablesRise :=
  h.always e fun h => .ite h (hf h)

theorem State.tablesRise.serviceBy (h : s.tablesRise) {dt : Nat} {f : State → State} {t : State}
    (e : s.serviceBy dt f = .next t) (hf : (s.elapse dt).tablesRise → (f (s.elapse dt)).tablesRise) : t.tablesRise :=
  h.always e fun h => .ite h (hf h)

theorem State.tablesRise.readyBy (h : s.tablesRise) {dt : Nat} {f : State → State} {t : State}
    (e : s.readyBy dt f = .next t) (hf : (s.elapse dt).tablesRise → (f (s.elapse dt)).tablesRise) : t.tablesRise :=
  h.always e fun h => .ite (hf h) h

theorem State.tablesRise.plane (h : s.tablesRise) {dt : Nat} {f : State → State} {t : State}
    (e : s.plane dt f = .next t) (hf : (s.elapse dt).tablesRise → (f (s.elapse dt)).tablesRise) : t.tablesRise :=
  h.always e fun h => .ite (hf h) h

theorem State.tablesRise.keeperBy (h : s.tablesRise) {dt : Nat} {f : State → State} {t : State}
    (e : s.keeperBy dt f = .next t) (hf : (s.elapse dt).tablesRise → (f (s.elapse dt)).tablesRise) : t.tablesRise :=
  h.always e fun h => .ite (hf h) (.ite (.ite (hf h) (hf h).keep) h)

theorem State.tablesRise.portAccess (h : s.tablesRise) {dt : Nat} {a : Access} {t : State}
    (e : s.portAccess dt a = .next t) : t.tablesRise :=
  h.always e fun h => h.offer

theorem State.tablesRise.idle (h : s.tablesRise) {dt : Nat} {t : State} (e : s.idle dt = .next t) : t.tablesRise := by
  cases e
  exact h.elapse.left

theorem State.tablesRise.mailboxSubmit (h : s.tablesRise) {dt host mb wide data presence page} {t : State}
    (e : execMailboxSubmit dt host mb wide data presence page s = .next t) : t.tablesRise := by
  unfold execMailboxSubmit at e
  extract_lets a at e
  clear_value a
  exact State.tablesRise.always h e fun h => h.offer

theorem State.tablesRise.exec (h : s.tablesRise) {c : Instr} {t : State} (e : Machine.exec c s = .next t) : t.tablesRise := by
  cases c <;> dsimp only [Machine.exec] at e
  case registerWrite | pageLockWrite | guardArm | coreMaskCommit | privClassCommit | actDropN | actDropF | rulesetSwap
       | counterWrite | counterLoRead | snapReq | dbFenceRead | windowRead | windowWrite | mailboxWrite | ackN | ackF
       | eoiN | eoiF | sgiSend | pendSet | spillCtrlWrite | spillConsumedWrite | grpCfgWrite | grpHoldWrite
       | trimUserWrite | slowRegWrite | twinInject | ftRead =>
    exact h.portAccess e
  case guardTimeout => exact h.clockedBy e fun h => h.expireArm
  case dbFenceAnswer => exact h.serviceBy e fun h => h.fenceAnswer
  case dbFenceTimeout => exact h.serviceBy e fun h => h.fenceTimeout
  case windowReadAnswer => exact h.serviceBy e fun h => h.windowAnswer
  case mailboxSubmit => exact h.mailboxSubmit e
  case doorbellAccept => exact h.clockedBy e fun h => h.acceptN
  case doorbellLookup => exact h.plane e fun h => h.lookupRound
  case doorbellEffect => exact h.plane e fun h => h.effectN
  case fastDoorbellAccept => exact h.clockedBy e fun h => h.acceptF
  case fastDoorbellEffect => exact h.plane e fun h => h.effectF
  case dbResponse => exact h.plane e fun h => h.respond
  case portMask | portUnmask | coreSleepSeen | coreWakeSeen => exact h.always e fun h => h.pinSeen
  case shadowReserve => exact h.plane e fun h => h.shadowReserve
  case shadowRelease => exact h.plane e fun h => h.releaseShadow
  case routeItemWrite => exact h.plane e fun h => h.routeItem
  case rightsItemWrite => exact h.plane e fun h => h.rightsItem
  case lockOverrun => exact h.plane e fun h => h.lockOverrun
  case monitorWindowClose => exact h.plane e fun h => h.monitorClose
  case rekeyStart => exact h.plane e fun h => h.rekeyStart
  case migrationRowTick => exact h.plane e fun h => h.rowTick
  case migrationRowWrite => exact h.plane e fun h => h.rowWrite
  case targetRound => exact h.plane e fun h => h.targetRound
  case windowBoundary => exact h.plane e fun h => h.boundaryDue
  case trickleHoldEnd => exact h.plane e fun h => h.holdEnds
  case fastRound => exact h.plane e fun h => h.fastRound
  case levelInputChange => exact h.always e fun h => h.wireChange
  case levelFilterEdge => exact h.readyBy e fun h => h.wireFilter
  case levelSet => exact h.readyBy e fun h => h.levelSet
  case discTamper => exact h.readyBy e fun h => h.pairsNow.discTamper
  case vaultSet => exact h.readyBy e fun h => h.pairsNow.vaultSet
  case vaultSweep => exact h.readyBy e fun h => h.pairsNow.sweep
  case zeroizeLatchSet => exact h.always e fun h => h.asyncZ
  case zlatchSeen => exact h.readyBy e fun h => .ite h.zSeen h
  case stbyLatchSet => exact h.always e fun h => h.stbyLatch
  case cisternAppend => exact h.plane e fun h => h.cisternAppend
  case level1Response | descriptorResponse | controlBlockResponse | headReadResponse | lineWriteResponse
       | producerWriteResponse | outboundLateAnswer | omStrayResponse | imageSlotResponse =>
    exact h.always e fun h => h.response
  case floatPoll => exact h.plane e fun h => h.floatPoll
  case holdRefresh => exact h.plane e fun h => h.holdRefresh
  case holdLimitExpire => exact h.plane e fun h => h.holdLimit
  case coalTimerExpire => exact h.plane e fun h => h.coalTimer
  case outboundGrant => exact h.plane e fun h => h.grantOutbound
  case omRequestTaken => exact h.plane e fun h => h.requestTaken
  case outboundTimeout => exact h.plane e fun h => h.outboundTimeout
  case spillwayAppend => exact h.plane e fun h => h.spillAppend
  case mailboxRound => exact h.plane e fun h => h.mailboxRound
  case keeperServicePoint => exact h.plane e fun h => h.servicePoint
  case engineOpDone => exact h.plane e fun h => h.engineDone
  case watchdogExpire => exact h.plane e fun h => h.watchdogExpires
  case keeperRestartDone => exact h.readyBy e fun h => h.restartDone
  case tokenExpire => exact h.readyBy e fun h => h.expireToken
  case randomWaitTimeout => exact h.plane e fun h => h.randomExpires
  case commandResume => exact h.plane e fun h => h.commandResume
  case nop => exact h.keeperBy e fun h => h.cmdNop
  case keeperInfo => exact h.keeperBy e fun h => h.cmdInfo
  case tokenDrop => exact h.keeperBy e fun h => h.cmdTokenDrop
  case standbyEnter => exact h.keeperBy e fun h => h.cmdStandby
  case standbyDrainDone => exact h.plane e fun h => h.drainDone
  case standbyDrainTimeout => exact h.plane e fun h => h.drainTimeout
  case vaultRearm => exact h.keeperBy e fun h => h.cmdRearm
  case routeWrite => exact h.keeperBy e fun h => h.cmdRouteWrite
  case fastWrite => exact h.keeperBy e fun h => h.cmdFastWrite
  case groupWrite => exact h.keeperBy e fun h => h.cmdGroupWrite
  case routeRekey => exact h.keeperBy e fun h => h.cmdRekey
  case rightsWrite => exact h.keeperBy e fun h => h.cmdRightsWrite
  case cisternOpen => exact h.keeperBy e fun h => h.cmdOpen
  case cisternClose => exact h.keeperBy e fun h => h.cmdClose
  case cisternSync => exact h.keeperBy e fun h => h.cmdSync
  case cisternFlush => exact h.keeperBy e fun h => h.cmdFlush
  case snapshot => exact h.keeperBy e fun h => h.cmdSnapshot
  case scrub => exact h.keeperBy e fun h => h.cmdScrub
  case strengthSet => exact h.keeperBy e fun h => h.cmdStrength
  case imageSave => exact h.keeperBy e fun h => h.cmdImageSave
  case imageRestore => exact h.keeperBy e fun h => h.cmdImageRestore
  case stage => exact h.keeperBy e fun h => h.cmdStage
  case approve => exact h.plane e fun h => h.approveHead
  case approvalVerified => exact h.plane e fun h => h.approvalVerified
  case stageStatus => exact h.keeperBy e fun h => h.cmdStageStatus
  case stageCancel => exact h.keeperBy e fun h => h.cmdStageCancel
  case stageExpire => exact h.readyBy e fun h => h.stageExpire
  case commission => exact h.keeperBy e fun h => h.cmdCommission
  case officerList => exact h.keeperBy e fun h => h.cmdOfficerList
  case attest => exact h.keeperBy e fun h => h.cmdAttest
  case certRead => exact h.keeperBy e fun h => h.cmdCertRead
  case sha256 => exact h.keeperBy e fun h => h.cmdSha
  case configDigest => exact h.keeperBy e fun h => h.cmdConfigDigest
  case twinStatus => exact h.keeperBy e fun h => h.cmdTwinStatus
  case repair => exact h.keeperBy e fun h => h.cmdRepair
  case twinSwap => exact h.keeperBy e fun h => h.cmdSwap
  case selfTest => exact h.keeperBy e fun h => h.cmdSelfTest
  case lifecycleAdvance => exact h.keeperBy e fun h => h.cmdLifecycle
  case fuseResense => exact h.keeperBy e fun h => h.cmdResense
  case fuseResenseTick => exact h.readyBy e fun h => h.resenseTick
  case fuseProgramDone => exact h.clockedBy e fun h => h.programDone
  case scrubWalkerTick => exact h.plane e fun h => h.walkerTick
  case scrubAccess => exact h.plane e fun h => h.scrubAccess
  case pageRebuild => exact h.plane e fun h => h.rebuild
  case reencodePage => exact h.plane e fun h => h.reencodePage
  case checkpoint => exact h.plane e fun h => h.checkpoint
  case twinFrameArrive => exact h.plane e fun h => h.frameArrive
  case sigCompare => exact h.plane e fun h => h.sigCompare
  case hbLoss => exact h.plane e fun h => h.heartbeatLoss
  case leadSilent => exact h.readyBy e fun h => h.leadSilent
  case mirrorSilent => exact h.readyBy e fun h => h.mirrorSilent
  case failoverFreeze => exact h.plane e fun h => h.freeze
  case selfCheckReport => exact h.readyBy e fun h => h.selfReport
  case selfCheckDeadline => exact h.readyBy e fun h => h.selfDeadline
  case failoverResume => exact h.readyBy e fun h => h.resume
  case repairDigestMatch => exact h.plane e fun h => h.digestMatch
  case repairChunkStage => exact h.plane e fun h => h.chunkStage
  case repairChunkOpen => exact h.plane e fun h => .ite h h.chunkOpen
  case forwardedWrite => exact h.plane e fun h => h.forwarded
  case repairJoin => exact h.plane e fun h => h.join
  case pwrGoodFall => exact h.clockedBy e fun h => h.powerFall
  case powerOnReset => exact h.always e fun _ => .powerOn
  case porstRelease => exact h.always e fun h => h.release0
  case warmReset => exact h.always e fun h => h.warmReset
  case aonSupplyLoss => exact h.always e fun h => h.aonLoss
  case startupStepDone =>
    refine h.clockedBy e fun h => ?_
    split
    · exact h.stepDone
    · exact h.stepDone
  case startupStepTimeout => exact h.clockedBy e fun h => h.stepTimeout
  case ready => exact h.clockedBy e fun h => h.becomeReady
  case rndWord => exact h.clockedBy e fun h => h.rndWord
  case rndKatTimeout => exact h.clockedBy e fun h => h.katTimeout
  case sclkEdge => exact h.clockedBy e fun h => h.sclkEdge
  case repairRefillDone => exact h.plane e fun h => h.refillDone
  case fastTableSweep => exact h.plane e fun h => h.fastSweep
  case tapTckEdge => exact h.always e fun h => h.tapEdge

end Sys2Proof.Machine
end

section
open Sys2Proof Sys2Proof.Machine

/-- Settles O3: each state operation that a step is built of keeps each table rising, since a table is written only by
inserting one entry, by filtering it or by clearing it. -/
theorem everyStepKeepsTheTablesRising : Obligations.EveryStepKeepsTheTablesRising := by
  intro s t h e
  unfold step at e
  split at e
  · exact h.idle e
  · exact State.tablesRise.exec h.keep e
end

section
/-! SUPPORT. What the acceptance edge of a doorbell does on either channel (R112, R126, R136, R137). -/

namespace Sys2Proof.Machine
variable {u : State} {p : Nat} {data : DWord} {rid : BitVec 16} {np : Bool}

/-- A ready normal channel takes one doorbell at an edge. -/
theorem State.acceptN_ready (h : (u.port p).normal.any (fun d => decide (d.acc = u.clock.dp)) = false)
    (hr : u.readyN p = true) :
    u.acceptN p data rid np =
      if np then ((u.enter p (u.doorbell p data rid np) false np).count (fPort p) 3).count (fPort p) 5
      else (u.enter p (u.doorbell p data rid np) false np).count (fPort p) 3 := by
  simp [State.acceptN, h, hr]

theorem State.acceptN_refuses (h : (u.port p).normal.any (fun d => decide (d.acc = u.clock.dp)) = false)
    (hr : u.readyN p = false) : u.acceptN p data rid np = u.refuses p := by
  simp [State.acceptN, h, hr]

/-- The doorbell as the fast channel takes it: its verdict and owner are those of the state before the edge. -/
def State.fastDoorbell (u : State) (p : Nat) (data : DWord) (rid : BitVec 16) (np : Bool) : Doorbell :=
  { u.doorbell p data rid np with
    verdict := u.sampled.fastVerdict (u.doorbell p data rid np)
    owner := BitVec.ofNat 6 (u.sampled.fastHost (u.doorbell p data rid np)) }

/-- The state in which a ready fast channel has taken a doorbell, but for its non-posted count. -/
def State.enteredF (u : State) (p : Nat) (d : Doorbell) (data : DWord) : State :=
  (if dbIntid data < 4096 then (u.enter p d true false).ftFix false (dbIntid data) else u.enter p d true false).count (fPort p) 4

/-- A ready fast channel takes one doorbell at an edge. -/
theorem State.acceptF_ready (h : (u.port p).fast.any (fun d => decide (d.acc = u.clock.dp)) = false)
    (hr : u.readyF p = true) :
    u.acceptF p data rid np =
      if np then (u.enteredF p (u.fastDoorbell p data rid np) data).count (fPort p) 10
      else u.enteredF p (u.fastDoorbell p data rid np) data := by
  simp only [State.acceptF, h, hr, State.enteredF, State.fastDoorbell, Bool.false_eq_true, if_false, if_true]

theorem State.acceptF_refuses (h : (u.port p).fast.any (fun d => decide (d.acc = u.clock.dp)) = false)
    (hr : u.readyF p = false) : u.acceptF p data rid np = u.refuses p := by
  simp [State.acceptF, h, hr]

/-- An offer to an unmasked port that is not ready is backpressure. -/
theorem State.refuses_counts (hf : u.frozen = false) (hm : (u.sampled.port p).isMasked = false) :
    u.refuses p = u.count (fPort p) 8 := by
  simp [State.refuses, hf, hm]

theorem State.refuses_ignored (h : u.frozen = true ∨ (u.sampled.port p).isMasked = true) : u.refuses p = u := by
  simp [State.refuses, h]

theorem exec_doorbellAccept {s : State} {dt : Nat} {port : BitVec 4} (hu : s.elapse dt = u)
    (hc : u.startup.inReset = false) (hp : port.toNat = p) :
    exec (.doorbellAccept dt port data rid np) s = .next (s.left (u.acceptN p data rid np)) := by
  subst hu hp
  exact State.clockedBy_on (f := fun s => s.acceptN port.toNat data rid np) hc

theorem exec_fastDoorbellAccept {s : State} {dt : Nat} {port : BitVec 4} (hu : s.elapse dt = u)
    (hc : u.startup.inReset = false) (hp : port.toNat = p) :
    exec (.fastDoorbellAccept dt port data rid np) s = .next (s.left (u.acceptF p data rid np)) := by
  subst hu hp
  exact State.clockedBy_on (f := fun s => s.acceptF port.toNat data rid np) hc

end Sys2Proof.Machine
end

section
open Sys2Proof Sys2Proof.Machine

/-- Settles O20, from what a ready channel takes and what one that is not ready counts. -/
theorem doorbellsAreAcceptedIntoTheirFifo : Obligations.DoorbellsAreAcceptedIntoTheirFifo := by
  refine ⟨?_, ?_⟩
  · intro s u w dt port data rid np p d hu hc hp hacc hd
    rw [exec_doorbellAccept hu hc hp]
    subst hd
    refine ⟨?_, ?_, ?_⟩
    · intro hr hw
      rw [State.acceptN_ready hacc hr]
      subst hw
      rfl
    · intro hr hf hm
      rw [State.acceptN_refuses hacc hr, State.refuses_counts hf hm]
    · intro hr hq
      rw [State.acceptN_refuses hacc hr, State.refuses_ignored hq]
  · intro s u v w dt port data rid np p d e hu hc hp hacc he hd
    rw [exec_fastDoorbellAccept hu hc hp]
    subst he hd
    refine ⟨?_, ?_, ?_⟩
    · intro hr hv hw
      rw [State.acceptF_ready hacc hr]
      subst hv hw
      rfl
    · intro hr hf hm
      rw [State.acceptF_refuses hacc hr, State.refuses_counts hf hm]
    · intro hr hq
      rw [State.acceptF_refuses hacc hr, State.refuses_ignored hq]
end

section
/-! SUPPORT. What an asynchronous pin does once the synchroniser's depth has passed (R24, R126, R103, R360). -/

namespace Sys2Proof.Machine
variable {u : State} {ago : Nat} {i : Instr}

/-- A capture is seen once the synchroniser's depth has passed. -/
theorem State.pinSeen_seen (hc : u.startup.inReset = false) (hd : u.depth ≤ ago + 1) (hf : u.frozen = false) :
    u.pinSeen ago i = u.applyAnswer i := by
  simp [State.pinSeen, State.whenSeen, State.response, hc, hd, hf]

/-- A capture seen in a failover freeze waits for the resume edge. -/
theorem State.pinSeen_frozen (hc : u.startup.inReset = false) (hd : u.depth ≤ ago + 1) (hf : u.frozen = true) :
    u.pinSeen ago i = { u with twin.answers := u.twin.answers ++ [i] } := by
  simp [State.pinSeen, State.whenSeen, State.response, hc, hd, hf]

theorem State.pinSeen_early (hd : ago + 1 < u.depth) : u.pinSeen ago i = u := by
  simp [State.pinSeen, State.whenSeen, Nat.not_le.mpr hd]

theorem State.maskPort_powered {p : Nat} (h : (u.port p).pwrOk = true) :
    u.maskPort p = ((u.discardNow p).modPort p fun x => { x.discardAll with pwrOk := false }).event (fPort p) 11 135 := by
  simp [State.maskPort, h]

theorem State.maskPort_masked {p : Nat} (h : (u.port p).pwrOk = false) : u.maskPort p = u := by
  simp [State.maskPort, h]

theorem State.sleepSeen_awake {n : Nat} (h : (u.core n).asleep = false) :
    u.sleepSeen n = ((u.modCore n fun c => { c with asleep := true }).withdrawN n).withdrawF n := by
  simp [State.sleepSeen, h]

theorem State.sleepSeen_asleep {n : Nat} (h : (u.core n).asleep = true) : u.sleepSeen n = u := by
  simp [State.sleepSeen, h]

theorem State.wakeSeen_asleep {n : Nat} (h : (u.core n).asleep = true) :
    u.wakeSeen n = u.modCore n fun c =>
      { c with asleep := false, fromN := max c.fromN (u.clock.dp + 1), fromF := max c.fromF (u.clock.dp + 1) } := by
  simp [State.wakeSeen, h]

theorem State.wakeSeen_awake {n : Nat} (h : (u.core n).asleep = false) : u.wakeSeen n = u := by
  simp [State.wakeSeen, h]

end Sys2Proof.Machine
end

section
open Sys2Proof Sys2Proof.Machine

/-- Settles O24: each of the four commands is its pin's capture, seen, frozen or early. -/
theorem portPowerAndCoreSleepMaskTheirSide : Obligations.PortPowerAndCoreSleepMaskTheirSide := by
  refine ⟨?_, ?_⟩
  · intro s u v dt port ago p hu hc hp hv
    have mask : exec (.portMask dt ⟨port, ago⟩) s = .next (s.left (u.pinSeen ago (.portMask dt ⟨port, ago⟩))) := by
      rw [← hu]; rfl
    have unmask : exec (.portUnmask dt ⟨port, ago⟩) s = .next (s.left (u.pinSeen ago (.portUnmask dt ⟨port, ago⟩))) := by
      rw [← hu]; rfl
    have hdiscard : u.discardNow p = v := hv
    rw [mask, unmask]
    refine ⟨fun hd hf => ?_, fun hd hf => ?_, fun hd => ?_⟩
    · simp only [State.pinSeen_seen hc hd hf, State.applyAnswer, hp]
      refine ⟨fun hon => ?_, fun hoff => ?_, rfl⟩
      · rw [State.maskPort_powered hon, hdiscard]; rfl
      · rw [State.maskPort_masked hoff]
    · simp only [State.pinSeen_frozen hc hd hf, and_self]
    · simp only [State.pinSeen_early hd, and_self]
  · intro s u dt core ago n hu hc hn
    have sleep : exec (.coreSleepSeen dt ⟨core, ago⟩) s =
        .next (s.left (u.pinSeen ago (.coreSleepSeen dt ⟨core, ago⟩))) := by
      rw [← hu]; rfl
    have wake : exec (.coreWakeSeen dt ⟨core, ago⟩) s =
        .next (s.left (u.pinSeen ago (.coreWakeSeen dt ⟨core, ago⟩))) := by
      rw [← hu]; rfl
    rw [sleep, wake]
    refine ⟨fun hd hf => ?_, fun hd hf => ?_, fun hd => ?_⟩
    · simp only [State.pinSeen_seen hc hd hf, State.applyAnswer, hn]
      refine ⟨fun h => ?_, fun h => ?_, fun h => ?_, fun h => ?_⟩
      · rw [State.sleepSeen_awake h]
      · rw [State.sleepSeen_asleep h]
      · rw [State.wakeSeen_asleep h]
      · rw [State.wakeSeen_awake h]
    · simp only [State.pinSeen_frozen hc hd hf, and_self]
    · simp only [State.pinSeen_early hd, and_self]
end

section
/-! SUPPORT. The conflict monitor of a store, and a rekey and its rows (R159 to R166). -/

namespace Sys2Proof.Machine
variable {u : State} {rights : Bool}

/-- A window of the monitor is 1 250 000 edges (R159). -/
theorem monWindow_eq : Config.monWindow = 1250000 := rfl

theorem State.monitorClose_early (h : u.clock.dp < (u.hash rights).windowAt + 1250000) : u.monitorClose rights = u := by
  simp [State.monitorClose, Config.monWindow, h]

/-- Both thresholds of the monitor are passed by the window that the store's hash closes. -/
def monitorTriggers (c : Hash) (ctrl : Word) : Bool :=
  decide (atLeast1 (bits ctrl 7 0) * Config.monWindow ≤ look 0 c.sat (hotBank c.sat) * 256) &&
    decide (c.reads * 256 < atLeast1 (bits ctrl 15 8) * 16 * Config.monWindow)

/-- The thresholds with the window's 1 250 000 edges, and its accesses at most 16 an edge (R159). -/
theorem monitorTriggers_eq (c : Hash) (ctrl : Word) :
    monitorTriggers c ctrl =
      (decide (atLeast1 (bits ctrl 7 0) * 1250000 ≤ look 0 c.sat (hotBank c.sat) * 256) &&
        decide (c.reads * 256 < atLeast1 (bits ctrl 15 8) * 20000000)) := by
  rw [Bool.eq_iff_iff]
  simp only [monitorTriggers, Bool.and_eq_true, decide_eq_true_eq]
  simp only [monWindow_eq, Nat.mul_assoc, Nat.reduceMul]

/-- The record of the window that the store's hash closes. -/
def monitorWord (c : Hash) (ctrl : Word) : Word :=
  0x80000000#32 ||| flag32 30 (monitorTriggers c ctrl) ||| at32 24 (hotBank c.sat) |||
    at32 16 (share (look 0 c.sat (hotBank c.sat)) Config.monWindow) ||| at32 8 (share c.reads (16 * Config.monWindow))

theorem monitorWord_eq (c : Hash) (ctrl : Word) :
    monitorWord c ctrl =
      0x80000000#32 ||| flag32 30 (monitorTriggers c ctrl) ||| at32 24 (hotBank c.sat) |||
        at32 16 (share (look 0 c.sat (hotBank c.sat)) 1250000) ||| at32 8 (share c.reads 20000000) := by
  simp only [monitorWord, Config.monWindow, Nat.reduceMul]

/-- The closing window asks for a rekey. -/
def State.monitorStarts (b : State) (rights : Bool) : Bool :=
  monitorTriggers (b.hash rights) (b.reg fRoute 0x24) && bit (b.reg fRoute 0x20) (if rights then 1 else 0) &&
    !(b.hash rights).migActive && b.spaced (b.hash rights)

/-- The hash of a store once its window is closed: what the window counted before the edge is recorded and taken off. -/
def State.monitorClosed (u : State) (rights : Bool) : Hash :=
  let h := u.hash rights
  let c := u.sampled.hash rights
  { h with
    sat := (List.range 16).foldl (fun t i => ins 0 t i (look 0 h.sat i - look 0 c.sat i)) []
    reads := h.reads - c.reads
    windowAt := u.clock.dp
    reqPend := h.reqPend || u.sampled.monitorStarts rights
    monLast := monitorWord c (u.sampled.reg fRoute 0x24) }

theorem ite_bnot {α : Type} (b : Bool) (x y : α) : (if !b then x else y) = if b then y else x := by
  cases b <;> rfl

theorem State.monitorClose_due (hr : u.running = true) (h : (u.hash rights).windowAt + 1250000 ≤ u.clock.dp) :
    u.monitorClose rights =
      if monitorTriggers (u.sampled.hash rights) (u.sampled.reg fRoute 0x24) then
        if u.sampled.monitorStarts rights then (u.setHash rights (u.monitorClosed rights)).event fRoute 12 136
        else ((u.setHash rights (u.monitorClosed rights)).event fRoute 12 136).count fRoute 13
      else u.setHash rights (u.monitorClosed rights) := by
  have hclosing : decide (u.clock.dp < (u.hash rights).windowAt + Config.monWindow) = false :=
    decide_eq_false (by rw [monWindow_eq]; omega)
  unfold State.monitorClose
  dsimp only
  rw [if_neg (by simp [hr, hclosing])]
  dsimp only [State.monitorClosed, State.monitorStarts, monitorTriggers, monitorWord]
  rw [ite_bnot]
  rfl

theorem State.rekeyStart_on (hr : u.running = true) (hk : u.keeperAlive = true) (hready : (u.hash rights).keyReady = true)
    (hask : (u.hash rights).reqPend = true ∨ (u.hash rights).asked = true) (hidle : (u.hash rights).migActive = false) :
    u.rekeyStart rights = (u.setHash rights
      { u.hash rights with
        migActive := true, migRow := 0, tickAt := u.clock.dp, baseTick := u.clock.dp, baseRow := 0, reserved := false,
        reqPend := false, asked := false, keyReady := false, spacedAt := u.slowMark, since := u.slowMark }).count
        fRoute (if rights then 10 else 9) := by
  simp [State.rekeyStart, hr, hk, hready, hask, hidle]

theorem State.rekeyStart_off (h : (u.hash rights).keyReady = false ∨ (u.hash rights).migActive = true ∨ u.keeperAlive = false ∨
    (u.hash rights).reqPend = false ∧ (u.hash rights).asked = false) : u.rekeyStart rights = u := by
  rcases h with h | h | h | ⟨h, h'⟩
  · simp [State.rekeyStart, h]
  · simp [State.rekeyStart, h]
  · simp [State.rekeyStart, h]
  · simp [State.rekeyStart, h, h']

theorem State.rowTick_on (hr : u.running = true) (ha : (u.hash rights).migActive = true)
    (hres : (u.hash rights).reserved = false) (ht : (u.hash rights).tickAt ≤ u.clock.dp) :
    u.rowTick rights = u.setHash rights { u.hash rights with reserved := true, tickAt := u.clock.dp } := by
  simp [State.rowTick, hr, ha, hres, ht]

theorem State.rowTick_off (h : (u.hash rights).migActive = false ∨ (u.hash rights).reserved = true ∨
    u.clock.dp < (u.hash rights).tickAt) : u.rowTick rights = u := by
  rcases h with h | h | h
  · simp [State.rowTick, h]
  · simp [State.rowTick, h]
  · simp [State.rowTick, Nat.not_le.mpr h]

/-- The state in which the pages of the migration's row stand under the fresh key and are counted. -/
def State.rowRewritten (u : State) (rights : Bool) (pages : List PageRead) : State :=
  let h := u.hash rights
  let m := if rights then 1 else 0
  let d := bankHash h.migRow (if h.sel then h.key1 else h.key0) ^^^ bankHash h.migRow (if h.sel then h.key0 else h.key1)
  let held := (List.range 16).foldl (fun g b => ins none g (bankArb rights b) (some u.clock.dp)) u.sluice.grants
  let moved := State.modWell (State.modWell { (u.readRow m h.migRow pages).2 with sluice.grants := held } false
    fun x => { x with poison := movePoison x.poison m h.migRow d }) true
    fun x => { x with poison := movePoison x.poison m h.migRow d }
  ((List.range 16).foldl (fun (x : State) b => (x.setEpoch m (h.migRow * 16 + b) (!h.sel)).wroteWhole m (h.migRow * 16 + b))
    moved).count fRoute 11

theorem State.rowWrite_early {pages : List PageRead}
    (h : u.clock.dp < writeEdge (u.rowGrant rights) (u.readRow ((if rights then 1 else 0)) (u.hash rights).migRow pages).1) :
    u.rowWrite rights pages = u := by
  simp [State.rowWrite, h]

/-- A row that may be written is rewritten, and the next row or the migration's end follows. -/
theorem State.rowWrite_due {pages : List PageRead} (hr : u.running = true) (ha : (u.hash rights).migActive = true)
    (hres : (u.hash rights).reserved = true)
    (h : writeEdge (u.rowGrant rights) (u.readRow ((if rights then 1 else 0)) (u.hash rights).migRow pages).1 ≤ u.clock.dp) :
    u.rowWrite rights pages =
      if (u.hash rights).migRow = 1023 then
        ((u.rowRewritten rights pages).setHash rights
          { u.hash rights with
            sel := !(u.hash rights).sel, gen := (u.hash rights).gen + 1, migActive := false, migRow := 0,
            reserved := false }).event fRoute 15 137
      else
        (u.rowRewritten rights pages).setHash rights
          { u.hash rights with
            migRow := (u.hash rights).migRow + 1, reserved := false
            tickAt := max ((u.hash rights).baseTick + ((u.hash rights).migRow + 1 - (u.hash rights).baseRow) *
              (u.rowRewritten rights pages).sampled.pace) ((u.rowRewritten rights pages).clock.dp + 1) } := by
  have hdue : decide (u.clock.dp < writeEdge (u.rowGrant rights)
      (u.readRow (if rights then 1 else 0) (u.hash rights).migRow pages).1) = false :=
    decide_eq_false (Nat.not_lt.mpr h)
  unfold State.rowWrite
  dsimp only
  rw [if_neg (by simp [hr, ha, hres, hdue])]
  dsimp only [State.rowRewritten]

end Sys2Proof.Machine
end

section
open Sys2Proof Sys2Proof.Machine

/-- Settles O27: the monitor's window, the rekey's start, the row's tick and the row's write, each due and not due. -/
theorem monitorsRekeyAndMigrateTheStores : Obligations.MonitorsRekeyAndMigrateTheStores := by
  refine ⟨?_, ?_, ?_⟩
  · intro s u b dt rights h h' c hot trig starts ctrl hu hr hb hh hc hctrl hhot
    have close : exec (.monitorWindowClose dt rights) s = .next (s.left (u.monitorClose rights)) := by
      subst hu; exact State.plane_on (f := fun s => s.monitorClose rights) hr
    subst hb hh hc hctrl hhot
    rw [close]
    refine ⟨fun hearly => ?_, fun hdue htrig hstarts hh' => ?_⟩
    · rw [State.monitorClose_early hearly]
    · rw [State.monitorClose_due hr hdue]
      rw [← monitorTriggers_eq] at htrig
      subst htrig
      rw [← monitorWord_eq] at hh'
      subst hstarts hh'
      rfl
  · intro s u dt rights h hu hr hh
    have start : exec (.rekeyStart dt rights) s = .next (s.left (u.rekeyStart rights)) := by
      subst hu; exact State.plane_on (f := fun s => s.rekeyStart rights) hr
    have tick : exec (.migrationRowTick dt rights) s = .next (s.left (u.rowTick rights)) := by
      subst hu; exact State.plane_on (f := fun s => s.rowTick rights) hr
    subst hh
    rw [start, tick]
    refine ⟨fun hk hready hask hidle => ?_, fun hoff => ?_, fun ha hres ht => ?_, fun hoff => ?_⟩
    · rw [State.rekeyStart_on hr hk hready hask hidle]
    · rw [State.rekeyStart_off hoff]
    · rw [State.rowTick_on hr ha hres ht]
    · rw [State.rowTick_off hoff]
  · intro s u v w dt rights pages h m row d held hu hr hh hm hrow ha hres hv hd hheld hw
    have write : exec (.migrationRowWrite dt rights pages) s = .next (s.left (u.rowWrite rights pages)) := by
      subst hu; exact State.plane_on (f := fun s => s.rowWrite rights pages) hr
    subst hh hm hrow hv hd hheld hw
    rw [write]
    refine ⟨fun hearly => ?_, fun hdue => ?_⟩
    · rw [State.rowWrite_early hearly]
    · rw [State.rowWrite_due hr ha hres hdue]
      refine ⟨fun hnext => ?_, fun hlast => ?_⟩
      · rw [if_neg hnext]
        dsimp only [State.rowRewritten]
      · rw [if_pos hlast]
        dsimp only [State.rowRewritten]
end

section
/-! SUPPORT. The set of a level input three edges after its filtered level (R83, R233, R458), and the
end of a vault pair's disagreement (R268, R279). -/

namespace Sys2Proof.Machine
variable {u : State} {i n : Nat}

/-- A line that was not asserted three edges ago, or is already served at this edge, sets nothing. -/
theorem State.levelSet_idle (h : u.lineUp i (u.clock.edge - 3) = false ∨ look none u.levels.levelSetAt i = some u.clock.edge) :
    u.levelSet i = u := by
  unfold State.levelSet
  exact if_pos (by rcases h with h | h <;> simp [h])

/-- The state in which the line is served at this edge and its fast-table entry voted. -/
def State.lineServed (u : State) (i : Nat) : State :=
  State.ftFix { u with levels.levelSetAt := ins none u.levels.levelSetAt i (some u.clock.edge) } false (72 + i)

section
variable (hi : i < 56) (he : 3 ≤ u.clock.edge) (hup : u.lineUp i (u.clock.edge - 3) = true)
  (hlast : look none u.levels.levelSetAt i ≠ some u.clock.edge)
include hi he hup hlast

theorem levelSet_guard : ¬ (i ≥ 56 ∨ u.clock.edge < 3 ∨ look none u.levels.levelSetAt i = some u.clock.edge ∨
    (!u.lineUp i (u.clock.edge - 3)) = true) := by
  simp [hup, hlast, hi, he]

theorem State.levelSet_pends (hm : u.sampled.mirrorCistern (72 + i) = none) :
    u.levelSet i = (u.lineServed i).pend (72 + i) (.level (lineStart (u.wire i).fil (u.clock.edge - 3))) := by
  unfold State.levelSet
  dsimp only
  rw [if_neg (levelSet_guard hi he hup hlast), hm]
  rfl

/-- The first set since a rise makes its record. -/
theorem State.levelSet_records {c : Nat} (hm : u.sampled.mirrorCistern (72 + i) = some c)
    (hfresh : ∀ l, look none u.levels.levelSetAt i = some l → l < lineStart (u.wire i).fil (u.clock.edge - 3) + 3) :
    u.levelSet i = (u.lineServed i).localOrDrop c (madeRec (72 + i) 0x0D 0) := by
  unfold State.levelSet
  dsimp only
  rw [if_neg (levelSet_guard hi he hup hlast), hm]
  refine if_pos ?_
  split
  · next l hl => exact decide_eq_true (hfresh l hl)
  · rfl

theorem State.levelSet_recorded {c l : Nat} (hm : u.sampled.mirrorCistern (72 + i) = some c)
    (hl : look none u.levels.levelSetAt i = some l) (hold : lineStart (u.wire i).fil (u.clock.edge - 3) + 3 ≤ l) :
    u.levelSet i = u.lineServed i := by
  unfold State.levelSet
  dsimp only
  rw [if_neg (levelSet_guard hi he hup hlast), hm, hl]
  exact if_neg (by simpa using hold)

end

section
variable {k : Nat} (hk : (u.pair n).since = some k)
include hk

/-- Short of DISC edges, out of service or tampered already, a disagreement changes nothing. -/
theorem State.discTamper_idle
    (h : u.inService n = false ∨ (u.pair n).tamper = true ∨ u.clock.edge - k + 1 < u.discLimit) : u.discTamper n = u := by
  unfold State.discTamper
  dsimp only
  rw [hk]
  refine if_neg ?_
  rintro ⟨hs, ht, hd, -⟩
  rcases h with h | h | h
  · simp [h] at hs
  · simp [h] at ht
  · omega

variable (hs : u.inService n = true) (ht : (u.pair n).tamper = false) (hd : u.discLimit ≤ u.clock.edge - k + 1)
  (hle : k ≤ u.clock.edge)
include hs ht hd hle

theorem State.discTamper_taken (hne : u.pairA n ≠ u.pairB n) :
    u.discTamper n =
      { ((u.setPair n { u.pair n with tamper := true }).count fLevel 7).setP n true with
        levels.discLast := discWord n (u.setPair n { u.pair n with tamper := true }).discLimit true (u.pair n).firstB } := by
  unfold State.discTamper
  dsimp only
  rw [hk]
  dsimp only
  rw [if_pos ⟨hs, by simp [ht], hd, hle⟩, if_neg hne]

theorem State.discTamper_short (heq : u.pairA n = u.pairB n) :
    u.discTamper n =
      ((u.discShort n (u.clock.edge - k)).setPair n { u.pair n with since := none }).setP n
        ((u.discShort n (u.clock.edge - k)).pairA n) := by
  unfold State.discTamper
  dsimp only
  rw [hk]
  dsimp only
  rw [if_pos ⟨hs, by simp [ht], hd, hle⟩, if_pos heq]

end

end Sys2Proof.Machine
end

section
open Sys2Proof Sys2Proof.Machine

/-- Settles O31: a line's set by its route before the edge, and a disagreement by the wires at its limit. -/
theorem levelsAndDiscrepanciesSet : Obligations.LevelsAndDiscrepanciesSet := by
  refine ⟨?_, ?_⟩
  · intro s u t dt line i rise hu hr hline hi he hrise
    have set : exec (.levelSet dt line) s = .next (s.left (u.levelSet i)) := by
      subst hu hline; exact State.readyBy_on (f := fun s => s.levelSet line.toNat) hr
    subst hrise
    rw [set]
    refine ⟨fun hidle => ?_, fun hup hlast ht => ?_⟩
    · rw [State.levelSet_idle hidle]
    · subst ht
      refine ⟨fun hm => ?_, fun c hm => ⟨fun hfresh => ?_, fun l hl hold => ?_⟩⟩
      · rw [State.levelSet_pends hi he hup hlast hm]; rfl
      · rw [State.levelSet_records hi he hup hlast hm hfresh]; rfl
      · rw [State.levelSet_recorded hi he hup hlast hm hl hold]; rfl
  · intro s u t dt pair n k p hu hr hpair hp hk hle
    have tamper : exec (.discTamper dt pair) s = .next (s.left (u.discTamper n)) := by
      subst hu hpair; exact State.readyBy_on (f := fun s => s.pairsNow.discTamper pair.toNat) hr
    subst hp
    rw [tamper]
    refine ⟨fun hidle => ?_, fun hs ht hd hne hres => ?_, fun hs ht hd heq hres => ?_⟩
    · rw [State.discTamper_idle hk hidle]
    · rw [State.discTamper_taken hk hs ht hd hle hne, hres]
    · rw [State.discTamper_short hk hs ht hd hle heq, hres]
end

section
/-! SUPPORT. The zeroize latches and the standby latches of the two islands (R270, R273, R277, R286). -/

namespace Sys2Proof.Machine
variable {u t : State} {n ago : Nat}

/-- Setting zeroize latches counts the rise of ZEROIZE_REQ that it makes while clocked. -/
theorem State.latchZ_eq {f : Island → Byte} (ht : u.modIslands (fun i => { i with z := i.z ||| f i }) = t) :
    u.latchZ f = if u.zeroize = false ∧ t.zeroize = true ∧ u.clocked = true then t.count fStandby 6 else t := by
  have hc : t.clocked = u.clocked := by rw [← ht]; rfl
  unfold State.latchZ
  dsimp only
  rw [ht, hc]
  simp [and_assoc]

theorem State.latchZ_none {f : Island → Byte} (hA : f u.levels.islandA = 0#8) (hB : f u.levels.islandB = 0#8) :
    u.latchZ f = u := by
  have hsame : u.modIslands (fun i => { i with z := i.z ||| f i }) = u := by
    simp [State.modIslands, hA, hB]
  rw [State.latchZ_eq hsame]
  exact if_neg fun h => absurd (h.1.symm.trans h.2.1) (by decide)

theorem State.zSeen_idle (h : u.inService n = false ∨ (u.pair n).seen = true ∨ u.zLatched n = false) : u.zSeen n = u := by
  unfold State.zSeen
  exact if_pos (by rcases h with h | h | h <;> simp [h])

section
variable (hs : u.inService n = true) (hseen : (u.pair n).seen = false) (hz : u.zLatched n = true)
include hs hseen hz

/-- A latch not yet seen of a pair already asserted is only taken as seen. -/
theorem State.zSeen_asserted (hp : (u.pair n).p = true) :
    u.zSeen n = u.setPair n { u.pair n with seen := true, zAt := none } := by
  unfold State.zSeen
  dsimp only
  rw [if_neg (by simp [hs, hseen, hz]), if_pos hp, if_pos hp]

/-- A latch not yet seen acts as one edge with P_n asserted. -/
theorem State.zSeen_edge (hp : (u.pair n).p = false) :
    u.zSeen n =
      ((u.setPair n { u.pair n with seen := true, zAt := some u.clock.edge }).count fLevel 5).clearHosts.breakLocks := by
  have hp' : ¬ (u.pair n).p = true := by simp [hp]
  unfold State.zSeen
  dsimp only
  rw [if_neg (by simp [hs, hseen, hz]), if_neg hp', if_neg hp']

end

/-- The synchroniser's depth having passed, a latch is seen. -/
theorem exec_zlatchSeen {s : State} {dt : Nat} {pair : BitVec 3} (hu : s.elapse dt = u) (hr : u.startup.ready = true)
    (hp : pair.toNat = n) :
    exec (.zlatchSeen dt ⟨pair, ago⟩) s = .next (s.left (if u.depth ≤ ago then u.zSeen n else u)) := by
  subst hu hp
  exact State.readyBy_on (f := fun s => if s.depth ≤ ago then s.zSeen pair.toNat else s) hr

section
variable (hA : u.levels.islandA.standby = true) (hB : u.levels.islandB.standby = true)
include hA hB

/-- Both islands in standby: a change of the islands that each makes in standby is made in both. -/
theorem State.modIslands_standby (f : Island → Island) :
    u.modIslands (fun i => if i.standby then f i else i) = u.modIslands f := by
  simp [State.modIslands, hA, hB]

end

section
variable (hA : u.levels.islandA.standby = false) (hB : u.levels.islandB.standby = false)
include hA hB

theorem State.modIslands_awake (f : Island → Island) : u.modIslands (fun i => if i.standby then f i else i) = u := by
  simp [State.modIslands, hA, hB]

/-- Islands that are not in standby latch nothing. -/
theorem State.stbyLatch_awake (source : StbySource) : u.stbyLatch source = u := by
  cases source with
  | zeroize n => exact State.latchZ_none (by simp [hA]) (by simp [hB])
  | discrepancy n => rw [State.stbyLatch, State.modIslands_awake hA hB]
  | level l => rw [State.stbyLatch, State.modIslands_awake hA hB]
  | wake => rw [State.stbyLatch, State.modIslands_awake hA hB]

end

end Sys2Proof.Machine
end

section
open Sys2Proof Sys2Proof.Machine

/-- Settles O33: the asynchronous latch, its sight by the clocked side, and the standby latches of both islands. -/
theorem standbyLatchesHoldTheirSources : Obligations.StandbyLatchesHoldTheirSources := by
  refine ⟨?_, ?_⟩
  · intro s u t dt pair n hu hn
    refine ⟨fun ht => ?_, fun ago hr hd hs hseen hz => ?_, fun ago hr hidle => ?_⟩
    · have latch : exec (.zeroizeLatchSet dt pair) s = .next (s.left (u.asyncZ n)) := by
        subst hu hn; rfl
      rw [latch, State.asyncZ, State.latchZ_eq (f := fun i => i.zen &&& BitVec.ofNat 8 (2 ^ n)) (t := t) ht]
      simp [State.clocked]
    · rw [exec_zlatchSeen hu hr hn, if_pos hd]
      refine ⟨fun hp => ?_, fun hp => ?_⟩
      · rw [State.zSeen_asserted hs hseen hz hp]
      · rw [State.zSeen_edge hs hseen hz hp]
    · rw [exec_zlatchSeen hu hr hn]
      rcases hidle with hearly | hidle
      · rw [if_neg (Nat.not_le.mpr hearly)]
      · rw [State.zSeen_idle hidle, ite_self]
  · intro s u t dt n line a b hu ha hb ht
    have latch (source : StbySource) : exec (.stbyLatchSet dt source) s = .next (s.left (u.stbyLatch source)) := by
      subst hu; rfl
    subst ha hb
    refine ⟨fun hA hB => ⟨?_, ?_, ?_, ?_⟩, fun hA hB source => ?_⟩
    · rw [latch, State.stbyLatch, State.latchZ_eq (t := t) (by simp [State.modIslands, hA, hB, ← ht])]
    · rw [latch, State.stbyLatch, State.modIslands_standby hA hB]
      rfl
    · rw [latch, State.stbyLatch, State.modIslands_standby hA hB]
      rfl
    · rw [latch, State.stbyLatch, State.modIslands_standby hA hB]
      rfl
    · rw [latch, State.stbyLatch_awake hA hB]
end

section
/-! SUPPORT. What the resets and the loss of the always-on supply leave (R21, R272, R286, R403, R404). -/

namespace Sys2Proof.Machine
variable {u : State}

/-- A command that leaves no event raised answers the state it makes, with the queue it found. -/
theorem State.always_silent (s : State) (dt : Nat) {f : State → State} (h : (f (s.elapse dt)).raised = []) :
    s.always dt f = .next { f (s.elapse dt) with pending := s.pending } := by
  rw [State.always_eq, State.left_of_raised_nil s h]

/-- The islands of a block in reset go through a power-on reset as they are. -/
theorem State.powerOn_islands_inReset (h : u.startup.inReset = true) :
    u.powerOn.levels.islandA = u.levels.islandA ∧ u.powerOn.levels.islandB = u.levels.islandB := by
  simp [State.powerOn, h]

/-- The islands of a clocked block keep its last HEALTH and FAULT word over a power-on reset. -/
theorem State.powerOn_islands_clocked (h : u.startup.inReset = false) :
    u.powerOn.levels.islandA = { u.levels.islandA with health := u.health, fault := u.faultOut } ∧
    u.powerOn.levels.islandB = { u.levels.islandB with health := u.health, fault := u.faultOut } := by
  simp [State.powerOn, h, State.mirrorHealth, State.modIslands]

/-- What a power-on reset keeps of the rest of a state. -/
theorem State.powerOn_keeps :
    u.powerOn.fuses.array = u.fuses.array ∧ u.powerOn.fuses.shadow = u.fuses.array ∧ u.powerOn.twin.leadB = u.twin.leadB ∧
    u.powerOn.levels.wakeCause = u.levels.wakeCause ∧ u.powerOn.tap = u.tap := by
  unfold State.powerOn
  split <;> exact ⟨rfl, rfl, rfl, rfl, rfl⟩

/-- The release of a power-on reset with a well powered, but for the kind of start-up. -/
theorem State.release0_done {goodA goodB : Bool} (h : u.startup.inReset = true) (hg : (goodA || goodB) = true) :
    ∃ t : State, u.release0 goodA goodB = t ∧ t.startup.inReset = false ∧ t.clock = Clock.reset ∧
      t.startup.kind = (if u.wakePend then .wakeUp else .powerOn) ∧
      (∀ b, (t.well b).power = (if b then goodB else goodA) ∧ (t.well b).held = !(if b then goodB else goodA) ∧
        (t.well b).step = if (if b then goodB else goodA) then 1 else 0) ∧
      t.fuses = u.fuses ∧ t.levels = u.levels ∧ t.front = u.front := by
  refine ⟨_, rfl, ?_⟩
  unfold State.release0
  rw [if_neg (by simp [h, hg])]
  refine ⟨rfl, rfl, rfl, fun b => ?_, rfl, rfl, rfl⟩
  cases b
  · exact ⟨rfl, rfl, rfl⟩
  · exact ⟨rfl, rfl, rfl⟩

theorem State.release0_ignored {goodA goodB : Bool} (h : u.startup.inReset = false ∨ (goodA || goodB) = false) :
    u.release0 goodA goodB = u := by
  unfold State.release0
  exact if_pos (by rcases h with h | h <;> simp [h])

theorem State.warmReset_ignored {lowFor : Nat} (h : lowFor < 8 ∨ u.startup.inReset = true ∨ u.levels.stbyOk = true ∨
    (u.twin.fabricFault = true ∧ u.startup.ready = false)) : u.warmReset lowFor = u := by
  unfold State.warmReset
  exact if_pos (by rcases h with h | h | h | ⟨h, h'⟩ <;> simp [*])

theorem State.warmReset_taken {lowFor : Nat} (hl : 8 ≤ lowFor) (hr : u.startup.inReset = false) (hs : u.levels.stbyOk = false)
    (hf : u.twin.fabricFault = false ∨ u.startup.ready = true) : u.warmReset lowFor = u.warmed := by
  unfold State.warmReset
  exact if_neg (by rcases hf with hf | hf <;> simp [hr, hs, hf, hl])

@[simp] theorem Pump.afterWarm_bootId (p : Pump) : p.afterWarm.bootId = p.bootId := rfl

/-- The stores, the registers and the rest that a warm reset keeps. -/
theorem State.warmed_keeps :
    u.warmed.gate.rights = u.gate.rights ∧ u.warmed.gate.setB = u.gate.setB ∧
    u.warmed.integrity.strength = u.integrity.strength ∧ u.warmed.routes.entries = u.routes.entries ∧
    u.warmed.routes.vault = u.routes.vault ∧ u.warmed.routes.fast = u.routes.fast ∧
    u.warmed.routes.rt = u.routes.rt.afterWarm ∧ u.warmed.routes.rg = u.routes.rg.afterWarm ∧
    u.warmed.ints = intsAfterWarm u.ints ∧ u.warmed.integrity.journal = u.integrity.journal ∧
    u.warmed.keeper.officers = u.keeper.officers ∧ u.warmed.pump.bootId = u.pump.bootId ∧
    u.warmed.levels.islandA = u.levels.islandA ∧ u.warmed.levels.islandB = u.levels.islandB ∧
    u.warmed.fuses.array = u.fuses.array ∧ u.warmed.front.regs = u.front.regs.filter fun e => keptRegister e.1 := by
  unfold State.warmed
  split <;> simp

end Sys2Proof.Machine
end

section
open Sys2Proof Sys2Proof.Machine

/-- Settles O58: each reset taken and ignored, from what it keeps. -/
theorem resetsLeaveWhatTheyKeep : Obligations.ResetsLeaveWhatTheyKeep := by
  intro s u dt hu
  subst hu
  refine ⟨?_, fun goodA goodB => ⟨fun hr hg => ?_, fun h => ?_⟩, fun lowFor h => ?_, fun lowFor hl hr hs hf => ?_, rfl⟩
  · refine ⟨_, State.always_silent s dt (f := State.powerOn) rfl, rfl, rfl, rfl, rfl, rfl, rfl, rfl, rfl, rfl, rfl, rfl, rfl, ?_⟩
    obtain ⟨harray, hshadow, hlead, hwake, htap⟩ := State.powerOn_keeps (u := s.elapse dt)
    exact ⟨harray, hshadow, rfl, hlead, hwake, State.powerOn_islands_inReset, State.powerOn_islands_clocked, htap, rfl⟩
  · obtain ⟨t, ht, hrest⟩ := State.release0_done hr hg
    exact ⟨t, by rw [← ht]; rfl, hrest⟩
  · have release : exec (.porstRelease dt goodA goodB) s = .next (s.left ((s.elapse dt).release0 goodA goodB)) := rfl
    rw [release, State.release0_ignored h]
  · have warm : exec (.warmReset dt lowFor) s = .next (s.left ((s.elapse dt).warmReset lowFor)) := rfl
    rw [warm, State.warmReset_ignored h]
  · have warm : exec (.warmReset dt lowFor) s = .next (s.left (s.elapse dt).warmed) := by
      rw [← State.warmReset_taken hl hr hs hf]
      rfl
    refine ⟨_, warm.trans (by rw [State.left_of_raised_nil s (t := (s.elapse dt).warmed) rfl]), rfl, rfl, rfl, rfl, ?_⟩
    obtain ⟨hrights, hsetB, hstrength, hentries, hvault, hfast, hrt, hrg, hints,
      hjournal, hofficers, hboot, hislandA, hislandB, harray, hregs⟩ := State.warmed_keeps (u := s.elapse dt)
    exact ⟨hrights, hsetB, hstrength, hentries, hvault, hfast, hrt, hrg, hints,
      hjournal, hofficers, hboot, hislandA, hislandB, harray, hregs, rfl, rfl, rfl⟩
end

section
/-! SUPPORT. The random wire: who takes a word, and how the known-answer exchange ends (R306, R407, R426, R443, R444). -/

namespace Sys2Proof.Machine
variable {u : State} {w : DWord}

/-- The state that takes a word offered in good health. -/
def State.heard (u : State) : State := { u with levels.rndHealth := true }

theorem State.rndWord_unhealthy : u.rndWord w false = { u with levels.rndHealth := false } := rfl

theorem State.rndWord_kat {e : Nat} (hc : u.startup.inReset = false) (he : u.startup.rndTest = some e) :
    u.rndWord w true = u.heard.katWord w := by
  simp [State.rndWord, State.heard, hc, he]

theorem State.rndWord_given (hc : u.startup.inReset = false) (he : u.startup.rndTest = none)
    (hq : u.startup.rndQuiet ≤ u.clock.edge) : u.rndWord w true = u.heard.giveWord w := by
  simp [State.rndWord, State.heard, hc, he, Nat.not_lt.mpr hq]

theorem State.katWord_kept (h : u.startup.katWords.length < 4) :
    u.katWord w = { u with startup.katWords := u.startup.katWords ++ [w] } :=
  if_neg (by omega)

theorem State.katWord_full (h : u.startup.katWords.length = 4) : u.katWord w = u := if_pos h

/-- The exchange is over an edge after its fourth word, and no word is taken for 16 edges more. -/
theorem State.katFalls_full (he : u.startup.rndTest.isSome = true) (hl : u.startup.katWords.length = 4) :
    u.katFalls = { u with startup.rndTest := none, startup.rndQuiet := u.clock.edge + 17 } := by
  simp [State.katFalls, he, hl, State.endKat]

theorem State.katFalls_short (hl : u.startup.katWords.length ≠ 4) : u.katFalls = u := by
  simp [State.katFalls, hl]

/-! ### The users of a word -/

/-- A start-up that draws has every word. -/
theorem State.giveWord_draws (h : u.drawWants = true) : u.giveWord w = u.drawWord w := by
  simp [State.giveWord, h]

section
variable (hr : u.running = true)
include hr

/-- No start-up of a running plane draws. -/
theorem State.drawWants_running : u.drawWants = false := by
  simp [State.drawWants, State.ready_of_running hr]

variable (hstep : u.startup.factoryStep = 0)
include hstep

theorem State.giveWord_routes (hk : u.keeperAlive = true) (hrt : u.routes.rt.wantsKey = true) :
    u.giveWord w = { u with routes.rt := u.routes.rt.loadKey w } := by
  simp [State.giveWord, State.drawWants_running hr, hr, hstep, hk, hrt]

variable (hrt : u.routes.rt.wantsKey = false)
include hrt

theorem State.giveWord_rights (hk : u.keeperAlive = true) (hrg : u.routes.rg.wantsKey = true) :
    u.giveWord w = { u with routes.rg := u.routes.rg.loadKey w } := by
  simp [State.giveWord, State.drawWants_running hr, hr, hstep, hk, hrt, hrg]

/-- With no store and no repair waiting, the command that draws has the word. -/
theorem State.giveWord_command {r : Run} (hg : u.keeperGoes = true) (hrg : u.routes.rg.wantsKey = false)
    (hrepair : u.repairWants = none) (hretry : u.retryWants = none) (hrun : u.keeper.run = some r) (hp : r.phase = .random) :
    u.giveWord w = { u with keeper.words := u.keeper.words ++ [w] } := by
  simp [State.giveWord, State.drawWants_running hr, hr, hstep, hrt, hrg, hrepair, hg, hretry, hrun, hp]

end

theorem State.factoryStep_of_keeperGoes (h : u.keeperGoes = true) : u.startup.factoryStep = 0 := by
  simp only [State.keeperGoes, Bool.and_eq_true, decide_eq_true_eq] at h
  exact h.2

/-- A warm start-up draws the seed alone, and a power-on has it as its third word. -/
theorem State.drawWord_seed (h : u.startup.kind = .warm ∨ u.startup.drawn.length = 2) :
    u.drawWord w = { u with startup.drawn := u.startup.drawn ++ [w], sluice.seed := w } :=
  if_pos h

section
variable (hk : u.startup.kind ≠ .warm)
include hk

theorem State.drawWord_routes (hn : u.startup.drawn.length = 0) :
    u.drawWord w = { u with startup.drawn := u.startup.drawn ++ [w], routes.rt.key0 := w } := by
  simp [State.drawWord, hk, hn]

theorem State.drawWord_rights (hn : u.startup.drawn.length = 1) :
    u.drawWord w = { u with startup.drawn := u.startup.drawn ++ [w], routes.rg.key0 := w } := by
  simp [State.drawWord, hk, hn]

theorem State.drawWord_bootId (hn : u.startup.drawn.length = 3) :
    u.drawWord w = { u with startup.drawn := u.startup.drawn ++ [w], pump.bootId := bootOf w } := by
  simp [State.drawWord, hk, hn]

end

/-! ### The limit of the known-answer exchange -/

section
variable {b : Bool}

@[simp] theorem State.well_setWell_same (x : Well) : (u.setWell b x).well b = x := by
  cases b <;> rfl

@[simp] theorem State.well_setWell_other (x : Well) : (u.setWell b x).well (!b) = u.well (!b) := by
  cases b <;> rfl

/-- Before READY a failed step fails its well, and with the other one failed the fabric. -/
theorem State.failStep_before (h : u.startup.ready = false) :
    u.failStep b =
      if (u.modWell b fun x => { x with failed := x.step }).bothFailed then
        { u.modWell b fun x => { x with failed := x.step } with twin.fabricFault := true }
      else u.modWell b fun x => { x with failed := x.step } := by
  simp [State.failStep, h]

theorem State.failStep_startup (h : u.startup.ready = false) : (u.failStep b).startup = u.startup := by
  rw [State.failStep_before h]
  split
  · exact State.modWell_startup u b _
  · exact State.modWell_startup u b _

theorem State.failStep_failed (h : u.startup.ready = false) : ((u.failStep b).well b).failed = (u.well b).step := by
  have hwell : ((u.modWell b fun x => { x with failed := x.step }).well b).failed = (u.well b).step := by
    rw [State.modWell, State.well_setWell_same]
  rw [State.failStep_before h]
  split
  · exact hwell
  · exact hwell

theorem State.failStep_other (h : u.startup.ready = false) : (u.failStep b).well (!b) = u.well (!b) := by
  have hwell : (u.modWell b fun x => { x with failed := x.step }).well (!b) = u.well (!b) := State.well_setWell_other _
  rw [State.failStep_before h]
  split
  · exact hwell
  · exact hwell

/-- A well that stands in step 9 fails with the exchange. -/
def State.failKat (u : State) (b : Bool) : State :=
  if (u.well b).starting && decide ((u.well b).step = 9) then u.failStep b else u

theorem State.failKat_startup (h : u.startup.ready = false) : (u.failKat b).startup = u.startup := by
  unfold State.failKat
  split
  · exact State.failStep_startup h
  · rfl

theorem State.failKat_other (h : u.startup.ready = false) : (u.failKat b).well (!b) = u.well (!b) := by
  unfold State.failKat
  split
  · exact State.failStep_other h
  · rfl

theorem State.failKat_failed (h : u.startup.ready = false) (hs : (u.well b).starting = true) (hn : (u.well b).step = 9) :
    ((u.failKat b).well b).failed = 9 := by
  rw [State.failKat, if_pos (by simp [hs, hn]), State.failStep_failed h, hn]

end

theorem State.katTimeout_none (h : u.startup.rndTest = none) : u.katTimeout = u := by
  simp [State.katTimeout, h]

section
variable {e : Nat} (he : u.startup.rndTest = some e)
include he

theorem State.katTimeout_early (h : u.clock.edge < e + 1250000) : u.katTimeout = u := by
  simp [State.katTimeout, he, h]

variable (hl : u.startup.katWords.length ≠ 4) (h : e + 1250000 ≤ u.clock.edge)
include hl h

theorem State.katTimeout_ready (hr : u.startup.ready = true) : u.katTimeout = u.endKat u.clock.edge := by
  simp [State.katTimeout, he, hl, Nat.not_lt.mpr h, State.endKat, hr]

theorem State.katTimeout_before (hr : u.startup.ready = false) :
    u.katTimeout = ((u.endKat u.clock.edge).failKat false).failKat true := by
  have hguard : ¬ (u.clock.edge < e + 1250000 ∨ u.startup.katWords.length = 4) := by omega
  have hready : ¬ (u.endKat u.clock.edge).startup.ready = true := by simp [State.endKat, hr]
  simp only [State.katTimeout, he, if_neg hguard, if_neg hready]
  rfl

end

/-- Every well that waits for the answers fails at the exchange's limit. -/
theorem State.failKat_both {b : Bool} (h : u.startup.ready = false) (hs : (u.well b).starting = true)
    (hn : (u.well b).step = 9) : (((u.failKat false).failKat true).well b).failed = 9 := by
  have hr : (u.failKat false).startup.ready = false := by rw [State.failKat_startup h, h]
  cases b with
  | false => exact (congrArg Well.failed (State.failKat_other (b := true) hr)).trans (State.failKat_failed h hs hn)
  | true =>
    have hsame : (u.failKat false).well true = u.well true := State.failKat_other (b := false) h
    exact State.failKat_failed hr (by rw [hsame, hs]) (by rw [hsame, hn])

end Sys2Proof.Machine
end

section
/-! SUPPORT. The SCLK edge and the controller of the test port (R21, R47, R426). -/

namespace Sys2Proof.Machine
variable {u : State}

theorem State.sclkEdge_off (h : u.clock.edge % Config.sclk ≠ 0 ∨ u.clock.edge < u.clock.nextSclk) : u.sclkEdge = u :=
  if_neg (by omega)

theorem State.sclkEdge_on (h : u.clock.edge % Config.sclk = 0) (hn : u.clock.nextSclk ≤ u.clock.edge) :
    u.sclkEdge = u.sclkTo u.clock.edge :=
  if_pos ⟨h, hn⟩

/-- The SCLK edge of the present edge samples the state before it, and changes the clock alone. -/
theorem State.sclkTo_edge :
    (u.sclkTo u.clock.edge).clock.ticks = u.clock.ticks + ((u.clock.edge - u.clock.nextSclk) / Config.sclk + 1) ∧
    (u.sclkTo u.clock.edge).clock.sclkCount =
      u.clock.sclkCount + BitVec.ofNat 32 ((u.clock.edge - u.clock.nextSclk) / Config.sclk + 1) ∧
    (u.sclkTo u.clock.edge).clock.dcWindow = u.sampled.clock.dcStaged ∧
    (u.sclkTo u.clock.edge).clock.slowPend = (u.clock.slowPend && decide (u.clock.dcAt = some u.clock.edge)) ∧
    (u.sclkTo u.clock.edge).clock.nextSclk = u.clock.edge + Config.sclk ∧
    { u.sclkTo u.clock.edge with clock := u.clock } = u := by
  refine ⟨rfl, rfl, ?_, rfl, rfl, rfl⟩
  simp [State.sclkTo]

/-- Shifting moves no instruction. -/
theorem State.tapShift_inForce (tdi : Bool) : (u.tapShift tdi).inForce = u.tap.inForce := by
  unfold State.tapShift
  dsimp only
  split
  · split <;> rfl
  · split
    · split <;> rfl
    · split
      · rfl
      · split <;> rfl

theorem State.tapShift_tdo_quiet {tdi : Bool} (hdr : u.tap.state ≠ 4) (hir : u.tap.state ≠ 11) :
    (u.tapShift tdi).tdo = none := by
  unfold State.tapShift
  dsimp only
  split
  · split <;> rfl
  · split <;> rfl

/-- The first bit that Shift-IR shifts out is 1. -/
theorem State.tapShift_tdo_first {tdi : Bool} (hs : u.tap.state = 11) (hi : u.tap.irShift = 0) :
    (u.tapShift tdi).tdo = some true := by
  simp [State.tapShift, hs, hi]

theorem State.tapShift_idcode {tdi : Bool} (hs : u.tap.state = 3) (hc : u.tapActs = .idcode) :
    (u.tapShift tdi).shift = BitVec.ofNat 32 ((u.fuse fwIdcode).getD 0) := by
  simp [State.tapShift, hs, hc]

/-- The instruction in force after an edge that moves the controller to a state. -/
def tapForce (next : Nat) (code force : TapCode) : TapCode :=
  if next = 0 then .idcode else if next = 15 then code else force

/-- A TCK edge with TRST_N high shifts in its state and moves the controller. -/
theorem State.tapEdge_clocked (tms tdi : Bool) (code : TapCode) :
    u.tapEdge tms tdi true code =
      { u with tap := { u.tapShift tdi with
        state := tapNext u.tap.state tms
        inForce := tapForce (tapNext u.tap.state tms) code (u.tapShift tdi).inForce } } := rfl

end Sys2Proof.Machine
end

section
open Sys2Proof Sys2Proof.Machine

/-- Settles O60: who takes each random word, how its exchange ends, the SCLK edge and the TCK edge. -/
theorem randomSlowAndTestPortEdges : Obligations.RandomSlowAndTestPortEdges := by
  intro s u dt hu
  have tap (tms tdi trstN : Bool) (code : TapCode) :
      exec (.tapTckEdge dt tms tdi trstN code) s = .next (s.left (u.tapEdge tms tdi trstN code)) := by
    subst hu; rfl
  refine ⟨fun hc => ?_, fun tms tdi code => ?_, fun tms tdi code => ?_⟩
  · have word (w : DWord) (health : Bool) : exec (.rndWord dt w health) s = .next (s.left (u.rndWord w health)) := by
      subst hu; exact State.clockedBy_on (f := fun s => s.rndWord w health) hc
    have kat : exec (.rndKatTimeout dt) s = .next (s.left u.katTimeout) := by
      subst hu; exact State.clockedBy_on hc
    have sclk : exec (.sclkEdge dt) s = .next (s.left u.sclkEdge) := by
      subst hu; exact State.clockedBy_on hc
    refine ⟨fun w => ?_, fun w e he hl => ?_, fun w e he hl => ?_, ⟨State.katFalls_full, State.katFalls_short⟩,
      fun he hq => ?_,
      fun he => ?_, fun e he hl => ⟨fun h => ?_, fun h hr => ?_, fun h hr => ?_⟩, fun h => ?_, fun n h hle hn => ?_⟩
    · rw [word, State.rndWord_unhealthy]
    · rw [word, State.rndWord_kat hc he, State.katWord_kept (u := u.heard) hl]
      rfl
    · rw [word, State.rndWord_kat hc he, State.katWord_full (u := u.heard) hl]
      rfl
    · have given (w : DWord) : exec (.rndWord dt w true) s = .next (s.left (u.heard.giveWord w)) := by
        rw [word, State.rndWord_given hc he hq]
      refine ⟨fun w v hd hv => ?_, fun w hr hk hstep hrt => ?_, fun w hr hk hstep hrt hrg => ?_,
        fun w r hr hg hrt hrg hrepair hretry hrun hp => ?_⟩
      · have drawn : exec (.rndWord dt w true) s = .next (s.left (u.heard.drawWord w)) := by
          rw [given, State.giveWord_draws (u := u.heard) hd]
        subst hv
        rw [drawn]
        refine ⟨fun h => ?_, fun hk hn => ?_, fun hk hn => ?_, fun hk hn => ?_⟩
        · rw [State.drawWord_seed (u := u.heard) h]
          rfl
        · rw [State.drawWord_routes (u := u.heard) hk hn]
          rfl
        · rw [State.drawWord_rights (u := u.heard) hk hn]
          rfl
        · rw [State.drawWord_bootId (u := u.heard) hk hn]
          rfl
      · rw [given, State.giveWord_routes (u := u.heard) hr hstep hk hrt]
        rfl
      · rw [given, State.giveWord_rights (u := u.heard) hr hstep hrt hk hrg]
        rfl
      · rw [given, State.giveWord_command (u := u.heard) hr (State.factoryStep_of_keeperGoes hg) hrt
          hg hrg hrepair hretry hrun hp]
        rfl
    · rw [kat, State.katTimeout_none he]
    · rw [kat, State.katTimeout_early he h]
    · rw [kat, State.katTimeout_ready he hl h hr]
      rfl
    · have hready : (u.endKat u.clock.edge).startup.ready = false := hr
      have hready' : ((u.endKat u.clock.edge).failKat false).startup.ready = false := by
        rw [State.failKat_startup hready, hready]
      have hstartup : (((u.endKat u.clock.edge).failKat false).failKat true).startup = (u.endKat u.clock.edge).startup := by
        rw [State.failKat_startup hready', State.failKat_startup hready]
      refine ⟨u.katTimeout, kat, ?_⟩
      rw [State.katTimeout_before he hl h hr]
      refine ⟨?_, ?_, fun b hs hn => ?_⟩
      · rw [hstartup]; rfl
      · rw [hstartup]; rfl
      · exact State.failKat_both hready hs hn
    · rw [sclk, State.sclkEdge_off h]
    · subst hn
      refine ⟨u.sclkEdge, sclk, ?_⟩
      rw [State.sclkEdge_on h hle]
      exact State.sclkTo_edge
  · rw [tap]
    rfl
  · refine ⟨u.tapEdge tms tdi true code, tap tms tdi true code, ?_⟩
    rw [State.tapEdge_clocked]
    refine ⟨rfl, rfl, fun h h' => ?_, fun h => ?_, fun h => ?_, fun hs hi => ?_,
      fun hdr hir => ?_, fun hs hcode => ?_⟩
    · simp [tapForce, h, h', State.tapShift_inForce]
    · simp [tapForce, h]
    · simp [tapForce, h]
    · exact State.tapShift_tdo_first hs hi
    · exact State.tapShift_tdo_quiet hdr hir
    · exact State.tapShift_idcode hs hcode
end

section
/-! SUPPORT. What a step answers, and what a run of steps leaves of the queue (R44). -/

namespace Sys2Proof.Machine

/-- Each form of a command ends in `State.answers`: the state it made, its events set, the queue as it was. -/
theorem exec_left (c : Instr) (s : State) : ∃ t, exec c s = .next (s.left t) := by
  cases c <;> exact ⟨_, rfl⟩

theorem step_left (s : State) : ∃ t, step s = .next (State.left { s with pending := s.pending.tail } t) := by
  unfold step
  split
  · next h => exact ⟨s.elapse 1, by simp [State.idle, State.answers, State.left, h]⟩
  · next c rest h => simpa only [h, List.tail_cons] using exec_left c { s with pending := rest }

/-- A step answers a calm state that waits for the commands behind the front one. -/
theorem step_calm {s t : State} (h : step s = .next t) : t.calm ∧ t.pending = s.pending.tail := by
  obtain ⟨u, hu⟩ := step_left s
  cases hu.symm.trans h
  exact ⟨State.left_raised _ u, State.left_pending _ u⟩

theorem step_answers (s : State) : ∃ t, step s = .next t ∧ t.calm ∧ t.pending = s.pending.tail := by
  obtain ⟨t, ht⟩ := step_left s
  exact ⟨_, ht, step_calm ht⟩

theorem Runs.exists (n : Nat) (s : State) : ∃ t, Runs n s t := by
  induction n generalizing s with
  | zero => exact ⟨s, .stop s⟩
  | succ n ih =>
    obtain ⟨t, ht, _⟩ := step_answers s
    obtain ⟨u, hu⟩ := ih t
    exact ⟨u, .more ht hu⟩

/-- A run takes the commands in the order in which they came. -/
theorem Runs.pending {n : Nat} {s t : State} (h : Runs n s t) : t.pending = s.pending.drop n := by
  induction h with
  | stop => rfl
  | more h _ ih => rw [ih, (step_calm h).2, List.drop_tail]

theorem Runs.calm {n : Nat} {s t : State} (h : Runs n s t) (hn : 0 < n) : t.calm := by
  induction h with
  | stop => exact absurd hn (by decide)
  | more h r ih =>
    cases r with
    | stop => exact (step_calm h).1
    | more => exact ih (Nat.succ_pos _)

end Sys2Proof.Machine
end

section
open Sys2Proof Sys2Proof.Machine

/-- Settles O4: one step by the form of its command, a run by induction on its steps. -/
theorem everyStepAnswersACalmState : Obligations.EveryStepAnswersACalmState :=
  ⟨step_answers, fun n s => ⟨Runs.exists n s, fun _ h => ⟨h.pending, h.calm⟩⟩⟩
end

section
/-! SUPPORT. What the register port performs, by the place an access names (R36, R37, R66, R70, R410). -/

namespace Sys2Proof.Machine

/-! ### Places -/

/-- A frame's place is decoded from the offset that its frame, view and offset spell, and from no other. -/
theorem eq_byteAt_of_placeOf {a f view o : Nat} (h : placeOf a = .frame f view o) :
    a = byteAt f view o ∧ (f < 0x28 ∨ 0x40 ≤ f ∧ f < 0x180) ∧ view < 4 ∧ o < 0x1000 := by
  unfold placeOf at h
  dsimp only at h
  split_ifs at h <;> cases h <;> simp only [byteAt] <;> omega

theorem byteAt_add {f view o k : Nat} : byteAt f view o + k = byteAt f view (o + k) := by
  simp only [byteAt]; omega

theorem byteAt_mod {f view o k : Nat} (hk : k = 4 ∨ k = 8) : byteAt f view o % k = o % k := by
  rcases hk with rfl | rfl <;> simp only [byteAt] <;> omega

/-! ### Answers -/

theorem State.ok_zero_answerUnlessHeld (s : State) : (ok s 0#32).answer = s.answerUnlessHeld .ok 0#64 := rfl

theorem State.ok_zero_answer {s : State} (hh : s.front.hold = none) : (ok s 0#32).answer = s.answer .ok 0#64 :=
  State.ok_answer hh

/-- A refusal is recorded at the place of its byte and answered REFUSED. -/
theorem State.refuse_answer {s : State} {a : Access} {byte reason : Nat} {p : Place} (hp : placeOf byte = p)
    (hh : s.front.hold = none) :
    (s.refuse a byte reason).answer = s.refusedAt p.page reason p.view p.offset (!a.write) a.host := by
  subst hp
  exact State.answerUnlessHeld_none ((State.recordPage_hold ..).trans hh) _ _

/-! ### What an access performs -/

theorem State.perform_unmapped {v : State} {a : Access} (hk : a.keeper = false) (hp : placeOf a.byte = .unmapped) :
    v.perform a = v.answer .unmapped 0#64 := by
  simp [State.perform, hk, hp]

/-- Before READY a write to any place is answered OK and does nothing (R410; log entry 102). -/
theorem State.perform_unready {v : State} {a : Access} (hk : a.keeper = false) (hw : a.write = true)
    (hr : v.startup.ready = false) (hp : placeOf a.byte ≠ .unmapped) : v.perform a = v.answer .ok 0#64 := by
  unfold State.perform
  cases h : placeOf a.byte <;> simp_all

/-- A 64-bit write at an odd word is refused WIDTH, whatever its host. -/
theorem State.perform_width {v : State} {a : Access} {p : Place} (hr : v.startup.ready = true) (hk : a.keeper = false)
    (hn : a.wide = true) (hp : placeOf a.byte = p) (hne : p ≠ .unmapped) (hb : a.byte % 8 ≠ 0) (hh : v.front.hold = none) :
    v.perform a = v.refusedAt p.page rsWidth p.view p.offset (!a.write) a.host := by
  rw [← State.refuse_answer hp hh]
  unfold State.perform
  cases p <;> simp_all

/-- An access whose word lies aligned and that the gate of its page keeps out is refused DENIED. -/
theorem State.perform_denied {v : State} {a : Access} {p : Place} (hr : v.startup.ready = true) (hk : a.keeper = false)
    (hb : a.byte % 4 = 0) (hn : a.wide = true → a.byte % 8 = 0) (hp : placeOf a.byte = p) (hne : p ≠ .unmapped)
    (had : v.sampled.admits a = false) (hh : v.front.hold = none) :
    v.perform a = v.refusedAt p.page rsDenied p.view p.offset (!a.write) a.host := by
  rw [← State.refuse_answer hp hh]
  unfold State.perform
  cases p <;> simp_all

/-- A 64-bit write that lies on no counter's pair and on no guarded address performs its lower half and then its upper one. -/
theorem State.perform_halves {v : State} {a : Access} {lo hi : HalfResult} (hr : v.startup.ready = true)
    (hk : a.keeper = false) (hw : a.write = true) (hn : a.wide = true) (hb : a.byte % 8 = 0)
    (hp : placeOf a.byte ≠ .unmapped) (had : v.sampled.admits a = true) (hc : counterPair a.byte = false)
    (hg : guardedAt a.byte = false) (hg' : guardedAt (a.byte + 4) = false) (hlo : v.half a a.byte (loWord a.data) = lo)
    (hhi : lo.s.half a (a.byte + 4) (hiWord a.data) = hi) :
    v.perform a = hi.s.answerPair (lo.code.worse hi.code) (joinWords lo.data hi.data) := by
  have hb4 : a.byte % 4 = 0 := by omega
  subst hlo hhi
  unfold State.perform
  cases h : placeOf a.byte <;> simp_all

theorem State.answerPair_ok {s : State} (hh : s.front.hold = none) (d : DWord) : s.answerPair .ok d = s.answer .ok d := by
  rw [State.answerPair, if_pos rfl, State.answerUnlessHeld_none hh]

/-- Two halves that are both answered OK. -/
theorem State.answerPair_halves {u t : State} {x y : Word} (hh : t.front.hold = none) :
    (ok t y).s.answerPair ((ok u x).code.worse (ok t y).code) (joinWords (ok u x).data (ok t y).data) =
      t.answer .ok (joinWords x y) :=
  State.answerPair_ok hh _

end Sys2Proof.Machine
end

section
/-! SUPPORT. REGISTER_WRITE by its place and its gate (R34, R36, R37). -/

namespace Sys2Proof.Machine
variable {s : State} {dt : Nat} {host : HostId} {addr : BitVec 22} {data : DWord} {f view o : Nat}

theorem exec_registerWrite {wide : Bool} (ho : s.portOpen dt) :
    exec (.registerWrite dt host addr wide data) s =
      .next (s.left ((s.portEdge dt).perform (writeTo host (4 * addr.toNat) wide data))) :=
  State.portAccess_open _ ho

theorem State.portOpen_ready (ho : s.portOpen dt) : (s.portEdge dt).startup.ready = true :=
  State.ready_of_running ho.2.2.2.2.1

theorem registerWrite_admitted (ho : s.portOpen dt) (hp : placeOf (4 * addr.toNat) = .frame f view o)
    (had : (s.portEdge dt).frameAdmits f host true = true) :
    exec (.registerWrite dt host addr false data) s = .next (s.left
      ((s.portEdge dt).writeFrame (writeTo host (4 * addr.toNat) false data) (4 * addr.toNat) f view o (loWord data)).answer) := by
  rw [exec_registerWrite ho, State.perform_write (State.portOpen_ready ho) hp rfl rfl rfl (Nat.mul_mod_right ..) had]
  rfl

theorem registerWrite_denied (ho : s.portOpen dt) (hp : placeOf (4 * addr.toNat) = .frame f view o)
    (had : (s.portEdge dt).frameAdmits f host true = false) :
    exec (.registerWrite dt host addr false data) s =
      .next (s.left ((s.portEdge dt).refusedAt f rsDenied view o false host)) := by
  have hgate : (s.portEdge dt).sampled.admits (writeTo host (4 * addr.toNat) false data) = false :=
    (State.admits_of_frame hp).trans had
  rw [exec_registerWrite ho, State.perform_denied (State.portOpen_ready ho) rfl (Nat.mul_mod_right ..) (by simp [writeTo]) hp
    (by simp) hgate (State.portOpen_hold ho)]
  rfl

/-- A block at READY in whose fast table the copies of the entry of FEV_ACCESS_FAULT, INTID 130, disagree. -/
def eventSplit : State :=
  State.setFt { State.reset with startup := { Startup.reset with ready := true, inReset := false } } 130
    { c0 := 1#32, c1 := 0#32, c2 := 0#32 }

end Sys2Proof.Machine
end

section
open Sys2Proof Sys2Proof.Machine

/-- Refutes O5: the refusal raises its fabric event, and the set of the event reads the event's fast-table entry; where a copy
of the entry disagrees, that read's vote writes FT_VOTE_LAST (R216), so the route store's page does not stay as it was. -/
theorem not_anUnadmittedHostChangesNoRegister : ¬ Obligations.AnUnadmittedHostChangesNoRegister := by
  intro h
  have hopen : eventSplit.portOpen 0 := by unfold State.portOpen; decide
  have hplace : placeOf (4 * (0x2008#22).toNat) = .frame 2 0 0x20 := by decide
  have hgate : (eventSplit.portEdge 0).frameAdmits 2 5#6 true = false := by decide
  obtain ⟨t, ht, _, _, _, _, hroutes, _⟩ := h eventSplit _ 0 5#6 0x2008#22 2 0 0x20 hopen rfl hplace hgate
  cases (registerWrite_denied hopen hplace hgate).symm.trans (ht 0#64)
  exact absurd (congrArg Routes.ftVoteLast hroutes) (by decide)
end

section
/-! SUPPORT. One half of a write to a frame, by the kind of its register (R34, R38, R42, R52, R55, R60). -/

namespace Sys2Proof.Machine
variable {v : State} {a : Access} {byte f view o : Nat} {w : Word}

theorem State.writeFrame_header (hg : isGuarded f o = false) (ho : o < 0x10 ∨ 0x14 ≤ o ∧ o < 0x20) :
    v.writeFrame a byte f view o w = ok v 0#32 := by
  have h10 : o ≠ 0x10 := by omega
  have h20 : o < 0x20 := by omega
  simp [State.writeFrame, hg, h10, h20]

theorem State.writeFrame_held (hg : isGuarded f o = false) (ho : 0x600 ≤ o ∧ o < 0x800) :
    v.writeFrame a byte f view o w = ok v 0#32 := by
  have h10 : o ≠ 0x10 := by omega
  have h20 : ¬ o < 0x20 := by omega
  have hc : ¬ (0x400 ≤ o ∧ o < 0x600) := by omega
  simp only [State.writeFrame, hg, h10, h20, hc, ho, and_self, if_true, if_false, Bool.false_eq_true]

theorem State.writeFrame_counters (hg : isGuarded f o = false) (ho : 0x400 ≤ o ∧ o < 0x600) :
    v.writeFrame a byte f view o w = ok (if view = 0 then v.writeCounter f o w else v) 0#32 := by
  have h10 : o ≠ 0x10 := by omega
  have h20 : ¬ o < 0x20 := by omega
  simp only [State.writeFrame, hg, h10, h20, ho, and_self, if_true, if_false, Bool.false_eq_true]

/-- The register area of a page: past the header, outside the counters and their holding pairs. -/
def registerArea (o : Nat) : Prop := 0x20 ≤ o ∧ (o < 0x400 ∨ 0x800 ≤ o)

theorem registerArea_facts (ho : registerArea o) :
    o ≠ 0x10 ∧ ¬ o < 0x20 ∧ ¬ (0x400 ≤ o ∧ o < 0x600) ∧ ¬ (0x600 ≤ o ∧ o < 0x800) := by
  unfold registerArea at ho; omega

/-- A core page's status registers, and its actions through a view, take no write. -/
theorem State.writeFrame_core (hg : isGuarded f o = false) (ho : registerArea o) (hc : isCoreFrame f = true) (h50 : o ≠ 0x50)
    (h54 : o ≠ 0x54) (hv : view ≠ 0 ∨ o ≠ 0x28 ∧ o ≠ 0x38 ∧ o ≠ 0x48 ∧ o ≠ 0x4C) :
    v.writeFrame a byte f view o w = ok v 0#32 := by
  obtain ⟨h10, h20, hcnt, hheld⟩ := registerArea_facts ho
  simp only [State.writeFrame, hg, h10, h20, hcnt, hheld, hc, h50, h54, if_true, if_false, Bool.false_eq_true]
  rcases hv with hv | ⟨h28, h38, h48, h4C⟩
  · rw [if_pos hv]
  · simp [h28, h38, h48, h4C]

theorem State.writeFrame_block (ho : registerArea o) :
    v.writeFrame a byte fBlock view o w = ok (if o = 0x24 ∧ view = 0 ∧ bit w 0 then v.takeSnapshot else v) 0#32 := by
  obtain ⟨h10, h20, hcnt, hheld⟩ := registerArea_facts ho
  have hg : isGuarded fBlock o = false := isGuarded_global (by decide)
  have hc : isCoreFrame fBlock = false := by decide
  simp only [State.writeFrame, hg, h10, h20, hcnt, hheld, hc, if_true, if_false, Bool.false_eq_true]

/-- The registers with an effect of their own apart, a write goes to the register table. -/
theorem State.writeFrame_reg (hg : isGuarded f o = false) (ho : registerArea o) (hc : isCoreFrame f = false) (hb : f ≠ fBlock)
    (ht : f ≠ fTwin ∨ o ≠ 0x38) (hgrp : f < fGroup 0 ∨ fPump ≤ f ∨ o < 0x800) :
    v.writeFrame a byte f view o w = v.writeReg a byte f view o w := by
  obtain ⟨h10, h20, hcnt, hheld⟩ := registerArea_facts ho
  have ht' : ¬ (f = fTwin ∧ o = 0x38) := by omega
  have hgrp' : (decide (fGroup 0 ≤ f) && decide (f < fPump) && decide (0x800 ≤ o)) = false := by
    simp only [Bool.and_eq_false_iff, decide_eq_false_iff_not]; omega
  simp only [State.writeFrame, hg, h10, h20, hcnt, hheld, hc, hb, ht', hgrp', if_false, Bool.false_eq_true]

/-- A register that no write reaches, or none through this view. -/
theorem State.writeReg_none (h : ∀ i, regInfo f o = some i → i.baseOnly = true ∧ view ≠ 0) :
    v.writeReg a byte f view o w = ok v 0#32 := by
  unfold State.writeReg
  split
  · rfl
  · next i hi => rw [if_pos (h i hi)]

theorem State.writeReg_locked {i : RegInfo} (hi : regInfo f o = some i) (hb : i.baseOnly = true → view = 0)
    (hl : v.locked f i.group = true) : v.writeReg a byte f view o w = v.refuse a byte rsLocked := by
  have hb' : ¬ (i.baseOnly = true ∧ view ≠ 0) := fun h => h.2 (hb h.1)
  simp [State.writeReg, hi, hb', hl]

/-- A table register takes the value that its view forms. -/
theorem State.writeReg_stored {i : RegInfo} (hi : regInfo f o = some i) (hb : i.baseOnly = true → view = 0)
    (hl : v.locked f i.group = false) (ht : ¬ (f = fTwin ∧ o = 0x20)) (hf : ¬ (f = fFuse ∧ o = 0x30)) :
    v.writeReg a byte f view o w = ok (v.storeReg f o (viewed view (v.reg f o) w i.mask)) 0#32 := by
  have hb' : ¬ (i.baseOnly = true ∧ view ≠ 0) := fun h => h.2 (hb h.1)
  simp [State.writeReg, hi, hb', hl, ht, hf]

theorem tableReg_plain (h : tableReg f o = true) : ¬ (f = fTwin ∧ o = 0x20) ∧ ¬ (f = fFuse ∧ o = 0x30) := by
  obtain ⟨_, _, _, _, _, ht, hf, _, _⟩ := tableReg_facts h
  exact ⟨ht, hf⟩

theorem tableReg_of_quietReg (h : quietReg f o = true) : tableReg f o = true := by
  simp only [quietReg, Bool.and_eq_true] at h
  obtain ⟨⟨⟨⟨⟨h, _⟩, _⟩, _⟩, _⟩, _⟩ := h
  exact h

/-- An unlocked register whose write has no effect of its own takes its value and nothing else. -/
theorem State.writeFrame_quiet {i : RegInfo} (hq : quietReg f o = true) (hi : regInfo f o = some i)
    (hb : i.baseOnly = true → view = 0) (hl : v.locked f i.group = false) :
    v.writeFrame a byte f view o w = ok (v.setReg f o (viewed view (v.reg f o) w i.mask)) 0#32 := by
  have ht := tableReg_of_quietReg hq
  rw [State.writeFrame_table ht, State.writeReg_stored hi hb hl (tableReg_plain ht).1 (tableReg_plain ht).2,
    State.storeReg_quiet hq]

/-- The fault injector's control word, unlocked, whose write-once field this write does not touch (R380). -/
theorem State.writeReg_injector_keeps {i : RegInfo} (hi : regInfo fTwin 0x20 = some i) (hb : i.baseOnly = true → view = 0)
    (hl : v.locked fTwin i.group = false) (hv : view ≠ 0) (hbit : bit w 16 = false) :
    v.writeReg a byte fTwin view 0x20 w = ok (v.setReg fTwin 0x20 (viewed view (v.reg fTwin 0x20) w i.mask)) 0#32 := by
  have hb' : i.baseOnly = false := Bool.eq_false_iff.mpr fun h => hv (hb h)
  simp [State.writeReg, hi, hb', hl, hv, hbit]

theorem State.writeReg_injector_again {i : RegInfo} (hi : regInfo fTwin 0x20 = some i) (hb : i.baseOnly = true → view = 0)
    (hl : v.locked fTwin i.group = false) (hacts : view = 0 ∨ bit w 16 = true) (hw : v.front.injectWritten = true) :
    v.writeReg a byte fTwin view 0x20 w = v.refuse a byte rsWriteOnce := by
  have hb' : ¬ (i.baseOnly = true ∧ view ≠ 0) := fun h => h.2 (hb h.1)
  simp [State.writeReg, hi, hb', hl, hacts, hw]

theorem State.writeReg_injector_first {i : RegInfo} (hi : regInfo fTwin 0x20 = some i) (hb : i.baseOnly = true → view = 0)
    (hl : v.locked fTwin i.group = false) (hacts : view = 0 ∨ bit w 16 = true) (hw : v.front.injectWritten = false) :
    v.writeReg a byte fTwin view 0x20 w =
      ok (State.setReg { v with front.injectWritten := true } fTwin 0x20 (viewed view (v.reg fTwin 0x20) w i.mask)) 0#32 := by
  have hb' : ¬ (i.baseOnly = true ∧ view ≠ 0) := fun h => h.2 (hb h.1)
  simp [State.writeReg, hi, hb', hl, hacts, hw, State.reg]

end Sys2Proof.Machine
end

section
/-! SUPPORT. A REGISTER_WRITE of each form (R34, R36, R37, R38, R380, R410). -/

namespace Sys2Proof.Machine
variable {s : State} {dt : Nat} {host : HostId} {addr : BitVec 22} {data : DWord} {f view o : Nat}

/-- An admitted half that does something and is answered OK. -/
theorem registerWrite_ok {t : State} (ho : s.portOpen dt) (hp : placeOf (4 * addr.toNat) = .frame f view o)
    (had : (s.portEdge dt).frameAdmits f host true = true) (hh : t.front.hold = none)
    (hw : (s.portEdge dt).writeFrame (writeTo host (4 * addr.toNat) false data) (4 * addr.toNat) f view o (loWord data) =
      ok t 0#32) :
    exec (.registerWrite dt host addr false data) s = .next (s.left (t.answer .ok 0#64)) := by
  rw [registerWrite_admitted ho hp had, hw, State.ok_zero_answer hh]

/-- An admitted half that is refused. -/
theorem registerWrite_refused {t : State} {reason : Nat} (ho : s.portOpen dt)
    (hp : placeOf (4 * addr.toNat) = .frame f view o) (had : (s.portEdge dt).frameAdmits f host true = true)
    (hh : t.front.hold = none)
    (hw : (s.portEdge dt).writeFrame (writeTo host (4 * addr.toNat) false data) (4 * addr.toNat) f view o (loWord data) =
      t.refuse (writeTo host (4 * addr.toNat) false data) (4 * addr.toNat) reason) :
    exec (.registerWrite dt host addr false data) s = .next (s.left (t.refusedAt f reason view o false host)) := by
  rw [registerWrite_admitted ho hp had, hw, State.refuse_answer hp hh]
  rfl

/-- The writes to a frame that change nothing (R34, R38, R59). -/
theorem State.writeFrame_nothing {v : State} {a : Access} {byte : Nat} {w : Word} (hg : isGuarded f o = false)
    (h : o < 0x10 ∨ 0x14 ≤ o ∧ o < 0x20 ∨ 0x600 ≤ o ∧ o < 0x800 ∨ 0x400 ≤ o ∧ o < 0x600 ∧ view ≠ 0 ∨
      0x20 ≤ o ∧ (o < 0x400 ∨ 0x800 ≤ o) ∧
        (isCoreFrame f = true ∧ o ≠ 0x50 ∧ o ≠ 0x54 ∧ (view ≠ 0 ∨ o ≠ 0x28 ∧ o ≠ 0x38 ∧ o ≠ 0x48 ∧ o ≠ 0x4C) ∨
         isCoreFrame f = false ∧ f = fBlock ∧ (o ≠ 0x24 ∨ view ≠ 0 ∨ bit w 0 = false) ∨
         isCoreFrame f = false ∧ f ≠ fBlock ∧ (f ≠ fTwin ∨ o ≠ 0x38) ∧ (f < fGroup 0 ∨ fPump ≤ f ∨ o < 0x800) ∧
           ∀ i, regInfo f o = some i → i.baseOnly = true ∧ view ≠ 0)) :
    v.writeFrame a byte f view o w = ok v 0#32 := by
  rcases h with h | h | h | ⟨hlo, hhi, hv⟩ | ⟨hlo, hhi, ⟨hc, h50, h54, hv⟩ | ⟨_, rfl, hno⟩ | ⟨hc, hb, ht, hgrp, hnone⟩⟩
  · exact State.writeFrame_header hg (.inl h)
  · exact State.writeFrame_header hg (.inr h)
  · exact State.writeFrame_held hg h
  · rw [State.writeFrame_counters hg ⟨hlo, hhi⟩, if_neg hv]
  · exact State.writeFrame_core hg ⟨hlo, hhi⟩ hc h50 h54 hv
  · have : ¬ (o = 0x24 ∧ view = 0 ∧ bit w 0 = true) := by
      rintro ⟨rfl, rfl, hbit⟩
      simp [hbit] at hno
    rw [State.writeFrame_block ⟨hlo, hhi⟩, if_neg this]
  · rw [State.writeFrame_reg hg ⟨hlo, hhi⟩ hc hb ht hgrp, State.writeReg_none hnone]

theorem State.writeFrame_injector {v : State} {a : Access} {byte : Nat} {w : Word} :
    v.writeFrame a byte fTwin view 0x20 w = v.writeReg a byte fTwin view 0x20 w :=
  State.writeFrame_reg rfl ⟨by decide, .inl (by decide)⟩ rfl (by decide) (.inr (by decide)) (.inr (.inl (by decide)))

/-- A 64-bit write to two ordinary registers forms both, the lower first (R36). -/
theorem registerWrite_pair {i j : RegInfo} (ho : s.portOpen dt) (hp : placeOf (4 * addr.toNat) = .frame f view o)
    (had : (s.portEdge dt).frameAdmits f host true = true) (hq : quietReg f o = true) (hq' : quietReg f (o + 4) = true)
    (h8 : o % 8 = 0) (hi : regInfo f o = some i) (hj : regInfo f (o + 4) = some j)
    (hb : i.baseOnly = true ∨ j.baseOnly = true → view = 0) (hl : (s.portEdge dt).locked f i.group = false)
    (hl' : (s.portEdge dt).locked f j.group = false) {u : State}
    (hu : (s.portEdge dt).setReg f o (viewed view ((s.portEdge dt).reg f o) (loWord data) i.mask) = u) :
    exec (.registerWrite dt host addr true data) s = .next (s.left
      ((u.setReg f (o + 4) (viewed view (u.reg f (o + 4)) (hiWord data) j.mask)).answer .ok 0#64)) := by
  obtain ⟨hbyte, hf, hv, hlt⟩ := eq_byteAt_of_placeOf hp
  obtain ⟨hglobal, ho20, hplain, _⟩ := tableReg_facts (tableReg_of_quietReg hq)
  obtain ⟨_, _, _, hlt', _⟩ := tableReg_facts (tableReg_of_quietReg hq')
  have hp' : placeOf (4 * addr.toNat + 4) = .frame f view (o + 4) := by
    rw [hbyte, byteAt_add, placeOf_byteAt hf hv hlt']
  have hb8 : 4 * addr.toNat % 8 = 0 := by rw [hbyte, byteAt_mod (.inr rfl), h8]
  have hgate := (State.admits_of_frame (v := s.portEdge dt) (a := writeTo host (4 * addr.toNat) true data) hp).trans had
  have hcnt : counterPair (4 * addr.toNat) = false := by simp [counterPair, hp]; omega
  have hguard : guardedAt (4 * addr.toNat) = false := by simp [guardedAt, hp, isGuarded_global hglobal]
  have hguard' : guardedAt (4 * addr.toNat + 4) = false := by simp [guardedAt, hp', isGuarded_global hglobal]
  have lower : (s.portEdge dt).half (writeTo host (4 * addr.toNat) true data) (4 * addr.toNat) (loWord data) = ok u 0#32 := by
    simp only [State.half, hp, writeTo, if_true]
    rw [State.writeFrame_quiet hq hi (fun h => hb (.inl h)) hl, hu]
  have upper : u.half (writeTo host (4 * addr.toNat) true data) (4 * addr.toNat + 4) (hiWord data) =
      ok (u.setReg f (o + 4) (viewed view (u.reg f (o + 4)) (hiWord data) j.mask)) 0#32 := by
    simp only [State.half, hp', writeTo, if_true]
    rw [State.writeFrame_quiet hq' hj (fun h => hb (.inr h)) (by rw [← hu]; exact hl')]
  have hold : (u.setReg f (o + 4) (viewed view (u.reg f (o + 4)) (hiWord data) j.mask)).front.hold = none := by
    rw [← hu]; exact State.portOpen_hold ho
  rw [exec_registerWrite ho, State.perform_halves (State.portOpen_ready ho) rfl rfl rfl hb8 (by simp [writeTo, hp]) hgate hcnt
    hguard hguard' lower upper, State.answerPair_halves hold]
  rfl

/-- Before READY a write is answered OK and changes nothing (R410). -/
theorem registerWrite_unready {wide : Bool} (hd : (s.elapse dt).dead = false) (hacc : (s.elapse dt).accepts = true)
    (hh : (s.elapse dt).front.hold = none) (hw : (s.elapse dt).front.waiting = [])
    (hr : (s.portEdge dt).startup.ready = false) (hf : (s.portEdge dt).frozen = false)
    (hp : placeOf (4 * addr.toNat) ≠ .unmapped) :
    exec (.registerWrite dt host addr wide data) s = .next (s.left ((s.portEdge dt).answer .ok 0#64)) := by
  have hf' : ((s.elapse dt).elapse ((s.elapse dt).nextPass - (s.elapse dt).clock.edge)).frozen = false := hf
  have hoffer : (s.elapse dt).offer (writeTo host (4 * addr.toNat) wide data) =
      ((s.portEdge dt).perform (writeTo host (4 * addr.toNat) wide data)).settle settleFuel := by
    simp [State.offer, hd, hacc, hh, hw, hf', State.pass, State.portEdge]
  show s.portAccess dt _ = _
  rw [State.portAccess, State.always_eq, hoffer, State.left_settle, State.perform_unready rfl rfl hr hp]

end Sys2Proof.Machine
end

section
open Sys2Proof Sys2Proof.Machine

/-- Settles O6, form by form of the write. -/
theorem registerWritesFollowTheirViews : Obligations.RegisterWritesFollowTheirViews := by
  refine ⟨?_, ?_, ?_⟩
  · intro s v dt host addr data f view o i ho hv hp ht hi hb hl had
    subst hv
    have hstore := State.writeReg_stored (a := writeTo host (4 * addr.toNat) false data) (byte := 4 * addr.toNat)
      (w := loWord data) hi hb hl (tableReg_plain ht).1 (tableReg_plain ht).2
    refine ⟨?_, fun hq => registerWrite_ok ho hp had (State.portOpen_hold ho) (State.writeFrame_quiet hq hi hb hl)⟩
    rw [registerWrite_admitted ho hp had, State.writeFrame_table ht, hstore, State.ok_zero_answerUnlessHeld]
  · intro s v dt host addr data ho hv
    subst hv
    refine ⟨fun hp wide => ?_, fun f view o hp => ⟨fun hodd => ?_, registerWrite_denied ho hp, fun i ht hi hb had hl => ?_⟩⟩
    · rw [exec_registerWrite ho, State.perform_unmapped rfl hp]
    · have h8 : 4 * addr.toNat % 8 ≠ 0 := by omega
      rw [exec_registerWrite ho, State.perform_width (State.portOpen_ready ho) rfl rfl hp (by simp) h8 (State.portOpen_hold ho)]
      rfl
    · exact registerWrite_refused ho hp had (State.portOpen_hold ho)
        ((State.writeFrame_table ht).trans (State.writeReg_locked hi hb hl))
  · intro s v dt host addr data hv
    subst hv
    refine ⟨fun f view o hp ho had => ⟨fun hg h => ?_, ?_, ?_⟩, ?_⟩
    · exact registerWrite_ok ho hp had (State.portOpen_hold ho) (State.writeFrame_nothing hg h)
    · rintro i w rfl rfl hi hb hl rfl
      refine ⟨fun hacts => ⟨fun hw => ?_, fun hw => ?_⟩, fun hview hbit => ?_⟩
      · exact registerWrite_refused ho hp had (State.portOpen_hold ho)
          (State.writeFrame_injector.trans (State.writeReg_injector_again hi hb hl hacts hw))
      · exact registerWrite_ok ho hp had (State.portOpen_hold ho)
          (State.writeFrame_injector.trans (State.writeReg_injector_first hi hb hl hacts hw))
      · exact registerWrite_ok ho hp had (State.portOpen_hold ho)
          (State.writeFrame_injector.trans (State.writeReg_injector_keeps hi hb hl hview hbit))
    · intro i j u hq hq' h8 hi hj hb hl hl' hu
      exact registerWrite_pair ho hp had hq hq' h8 hi hj hb hl hl' hu
    · rintro u rfl hd hacc hh hw hr hf hp wide
      exact registerWrite_unready hd hacc hh hw hr hf hp
end

section
/-! SUPPORT. A 32-bit write at the register of a page, from its half to its answer (R36, R37). -/

namespace Sys2Proof.Machine
variable {s t : State} {dt : Nat} {host : HostId} {f view o : Nat} {value : Word}

theorem State.frameAdmits_global {v : State} {write : Bool} (hf : f < 0x28) :
    v.frameAdmits f host write = v.sampled.globalAdmits f host.toNat write := by
  have hc : isCoreFrame f = false := by simp [isCoreFrame]; omega
  have hh : isHostFrame f = false := by simp [isHostFrame]; omega
  simp [State.frameAdmits, hc, hh]

/-- The place of a register: a frame of the map, a view, and a word's offset. -/
def isRegisterPlace (f view o : Nat) : Prop := (f < 0x28 ∨ 0x40 ≤ f ∧ f < 0x180) ∧ view < 4 ∧ o < 0x1000 ∧ o % 4 = 0

theorem port_write_ok (ho : s.portOpen dt) (hp : isRegisterPlace f view o)
    (had : (s.portEdge dt).frameAdmits f host true = true) (hh : t.front.hold = none)
    (hw : ∀ byte, (s.portEdge dt).writeFrame (writeTo host byte false (narrow value)) byte f view o value = ok t 0#32) :
    s.portAccess dt (writeTo host (byteAt f view o) false (narrow value)) = .next (s.left (t.answer .ok 0#64)) := by
  obtain ⟨hf, hv, h1, h2⟩ := hp
  rw [State.port_write ho hf hv h1 h2 had, loWord_narrow, hw, State.ok_zero_answer hh]

theorem port_write_refused {reason : Nat} (ho : s.portOpen dt) (hp : isRegisterPlace f view o)
    (had : (s.portEdge dt).frameAdmits f host true = true) (hh : t.front.hold = none)
    (hw : ∀ byte, (s.portEdge dt).writeFrame (writeTo host byte false (narrow value)) byte f view o value =
      t.refuse (writeTo host byte false (narrow value)) byte reason) :
    s.portAccess dt (writeTo host (byteAt f view o) false (narrow value)) =
      .next (s.left (t.refusedAt f reason view o false host)) := by
  obtain ⟨hf, hv, h1, h2⟩ := hp
  rw [State.port_write ho hf hv h1 h2 had, loWord_narrow, hw, State.refuse_at hf hv h1 hh]
  rfl

end Sys2Proof.Machine
end

section
/-! SUPPORT. PAGE_LOCK, the trims, the slow register and TWIN_INJECT (R49, R63, R64, R380, R421). -/

namespace Sys2Proof.Machine
variable {v : State} {a : Access} {byte f view : Nat} {w : Word}

theorem State.writeFrame_lock (hf : f < 0x28) : v.writeFrame a byte f view 0x10 w = v.writeLock a byte f view w := by
  simp [State.writeFrame, isGuarded_global hf]

theorem State.writeLock_sets (hf : f < 0x28) (hl : bit (v.lock f) 31 = false) (hv : view ≤ 1) :
    v.writeLock a byte f view w = ok { v with front.locks := ins 0#32 v.front.locks f (v.lock f ||| w) } 0#32 := by
  simp [State.writeLock, isGlobal, hf, hl, hv]

theorem State.writeLock_keeps (hf : f < 0x28) (hl : bit (v.lock f) 31 = false) (hv : 2 ≤ view) :
    v.writeLock a byte f view w = ok v 0#32 := by
  have hv' : ¬ view ≤ 1 := by omega
  simp [State.writeLock, isGlobal, hf, hl, hv']

theorem State.writeLock_locked (hf : f < 0x28) (hl : bit (v.lock f) 31 = true) :
    v.writeLock a byte f view w = v.refuse a byte rsLocked := by
  simp [State.writeLock, isGlobal, hf, hl]

/-- A write to the fuse page's register table. -/
theorem State.writeFrame_fuse {o : Nat} (ho : registerArea o) :
    v.writeFrame a byte fFuse view o w = v.writeReg a byte fFuse view o w :=
  State.writeFrame_reg (isGuarded_global (by decide)) ho rfl (by decide) (.inl (by decide)) (.inr (.inl (by decide)))

theorem State.storeReg_fuse {o : Nat} :
    v.storeReg fFuse o w = (v.setReg fFuse o w).trimsChanged v.depth v.lineFilter v.vaultFilter := by
  simp only [State.storeReg, fFuse, fRoute, fFast, fPump, fLevel, Nat.reduceEqDiff, false_and, if_false, if_true]

theorem State.writeReg_trim {o : Nat} {i : RegInfo} (hi : regInfo fFuse o = some i) (hb : i.baseOnly = false)
    (hl : v.locked fFuse i.group = false) (ho : o ≠ 0x30) :
    v.writeReg a byte fFuse view o w =
      ok ((v.setReg fFuse o (viewed view (v.reg fFuse o) w i.mask)).trimsChanged v.depth v.lineFilter v.vaultFilter) 0#32 := by
  rw [State.writeReg_stored hi (by simp [hb]) hl (fun h => absurd h.1 (by decide)) (fun h => ho h.2), State.storeReg_fuse]

theorem State.writeReg_slow (hl : v.locked fFuse (some 1) = false) {x : Word}
    (hx : viewed view (v.clock.dcStaged.setWidth 32) w 0xFFFFF#32 = x) :
    v.writeReg a byte fFuse view 0x30 w =
      ok { v with clock.dcStaged := x.setWidth 20, clock.slowPend := true, clock.dcAt := some v.clock.edge } 0#32 := by
  have hi : regInfo fFuse 0x30 = some ⟨0xFFFFF#32, 0#32, some 1, false⟩ := rfl
  have hstaged : at32 0 v.clock.dcStaged.toNat = v.clock.dcStaged.setWidth 32 := by
    simp [at32]
  subst hx
  simp [State.writeReg, hi, hl, hstaged]

/-- A well of the pair after TWIN_INJECT took `w` at edge `e`, which names this well or does not. -/
def Well.injectedBy (x : Well) (e : Nat) (w : Word) (named : Bool) : Well :=
  { x with
    invertNext := x.invertNext || (decide (bits w 9 8 = 1) && named)
    mutedUntil := if bits w 9 8 = 2 ∧ named = true then e + 1280 else x.mutedUntil }

theorem State.inject_eq (w : Word) : v.inject w =
    { v with twin.wellA := v.twin.wellA.injectedBy v.clock.edge w (bit w 0),
             twin.wellB := v.twin.wellB.injectedBy v.clock.edge w (bit w 1) } := by
  unfold State.inject Well.injectedBy
  by_cases h1 : bits w 9 8 = 1
  · cases hA : bit w 0 <;> cases hB : bit w 1 <;> simp only [h1, if_true, if_false, Bool.false_eq_true, decide_true,
      Bool.true_and, Bool.or_false, Bool.or_true, Nat.reduceEqDiff, false_and] <;> rfl
  · by_cases h2 : bits w 9 8 = 2
    · cases hA : bit w 0 <;> cases hB : bit w 1 <;> simp only [h2, if_true, if_false, Bool.false_eq_true, decide_false,
        Bool.false_and, Bool.or_false, Nat.reduceEqDiff, and_true, and_false] <;> rfl
    · cases hA : bit w 0 <;> cases hB : bit w 1 <;> simp only [h1, h2, if_true, if_false, Bool.false_eq_true, decide_false,
        Bool.false_and, Bool.or_false, false_and]

theorem State.writeFrame_twinInject :
    v.writeFrame a byte fTwin 0 0x38 w =
      if bit (v.reg fTwin 0x20) 16 then ok (v.inject w) 0#32 else v.refuse a byte rsLocked := by
  have hc : isCoreFrame fTwin = false := rfl
  have hg : isGuarded fTwin 0x38 = false := rfl
  cases h : bit (v.reg fTwin 0x20) 16 <;> simp [State.writeFrame, hc, hg, h]

end Sys2Proof.Machine
end

section
open Sys2Proof Sys2Proof.Machine

/-- Settles O7, register by register. -/
theorem stagedAndLockedRegistersTakeTheirWrites : Obligations.StagedAndLockedRegistersTakeTheirWrites := by
  refine ⟨?_, ?_, ?_⟩
  · intro s v dt host frame view value hf ho hv had
    subst hv
    have hp : isRegisterPlace frame.toNat view.toNat 0x10 := ⟨.inl hf, view.isLt, by decide, rfl⟩
    refine ⟨fun hl hview => ?_, fun hl hview => ?_, fun hl => ?_⟩
    · refine port_write_ok ho hp had ?_ fun _ => (State.writeFrame_lock hf).trans (State.writeLock_sets hf hl hview)
      exact State.portOpen_hold ho
    · exact port_write_ok ho hp had (State.portOpen_hold ho) fun _ =>
        (State.writeFrame_lock hf).trans (State.writeLock_keeps hf hl hview)
    · exact port_write_refused ho hp had (State.portOpen_hold ho) fun _ =>
        (State.writeFrame_lock hf).trans (State.writeLock_locked hf hl)
  · intro s v dt host second view value o mask ho hv hgate ho24 hmask
    subst hv
    have had : (s.portEdge dt).frameAdmits fFuse host true = true := (State.frameAdmits_global (by decide)).trans hgate
    have hslow : isRegisterPlace fFuse view.toNat 0x30 := ⟨.inl (by decide), view.isLt, by decide, rfl⟩
    have htrim : isRegisterPlace fFuse view.toNat o ∧ registerArea o ∧ o ≠ 0x30 := by
      subst ho24
      cases second <;> exact ⟨⟨.inl (by decide), view.isLt, by decide, rfl⟩, ⟨by decide, .inl (by decide)⟩, by decide⟩
    have hi : regInfo fFuse o = some ⟨mask, 0#32, some 0, false⟩ := by
      subst ho24 hmask
      cases second <;> rfl
    obtain ⟨hp, harea, hne⟩ := htrim
    have hexec : exec (.trimUserWrite dt host second view value) s =
        s.portAccess dt (writeTo host (byteAt fFuse view.toNat o) false (narrow value)) := by
      subst ho24; rfl
    rw [hexec]
    refine ⟨fun hl => ?_, fun hl => ?_, fun w hl hw => ?_, fun hl => ?_⟩
    · obtain ⟨hf, hview, h1, h2⟩ := hp
      rw [State.port_write ho hf hview h1 h2 had, loWord_narrow, State.writeFrame_fuse harea,
        State.writeReg_trim hi rfl hl hne, State.ok_zero_answerUnlessHeld]
    · exact port_write_refused ho hp had (State.portOpen_hold ho) fun _ =>
        (State.writeFrame_fuse harea).trans (State.writeReg_locked hi (by simp) hl)
    · refine port_write_ok ho hslow had ?_ fun _ =>
        (State.writeFrame_fuse ⟨by decide, .inl (by decide)⟩).trans (State.writeReg_slow hl hw)
      exact State.portOpen_hold ho
    · exact port_write_refused ho hslow had (State.portOpen_hold ho) fun _ =>
        (State.writeFrame_fuse ⟨by decide, .inl (by decide)⟩).trans
          (State.writeReg_locked (i := ⟨0xFFFFF#32, 0#32, some 1, false⟩) rfl (by simp) hl)
  · intro s v dt host value ho hv hgate
    subst hv
    have had : (s.portEdge dt).frameAdmits fTwin host true = true := (State.frameAdmits_global (by decide)).trans hgate
    have hp : isRegisterPlace fTwin 0 0x38 := ⟨.inl (by decide), by decide, by decide, rfl⟩
    refine ⟨fun hen => ?_, fun hen => ⟨(s.portEdge dt).inject value, ?_, ?_⟩⟩
    · exact port_write_refused ho hp had (State.portOpen_hold ho) fun _ =>
        State.writeFrame_twinInject.trans (by rw [hen]; rfl)
    · refine port_write_ok ho hp had ?_ fun _ => State.writeFrame_twinInject.trans (if_pos hen)
      rw [State.inject_eq]
      exact State.portOpen_hold ho
    · rw [State.inject_eq]
      refine ⟨fun b => ?_, fun b => ?_, fun b => ?_, rfl, rfl⟩ <;> cases b <;> rfl
end

section
/-! SUPPORT. The guarded registers and the arm of their page (R57 to R61, R93, R97, R101, R102, R136, R143). -/

namespace Sys2Proof.Machine
variable {v : State} {a : Access} {byte f view o : Nat} {w : Word}

/-! ### Guarded places -/

/-- The registers that a complement pair guards: RULESET_SEL of a host page; CORE_MASK, PRIV_CLASS and ACT_DROP of a core page. -/
def isRwg (f o : Nat) : Prop :=
  0x40 ≤ f ∧ f < 0x80 ∧ o = 0x20 ∨ 0x80 ≤ f ∧ f < 0x180 ∧ (o = 0x40 ∨ o = 0x60 ∨ o = 0x64 ∨ o = 0x70)

theorem rwgMask_isSome : (rwgMask f o).isSome = true ↔ isRwg f o := by
  simp only [rwgMask, isHostFrame, isCoreFrame, isRwg, Bool.and_eq_true, decide_eq_true_eq]
  split_ifs <;> simp <;> omega

theorem isGuarded_iff : isGuarded f o = true ↔ isRwg f o ∨ 0x800 ≤ o ∧ isRwg f (o - 0x800) := by
  simp only [isGuarded, Bool.or_eq_true, Bool.and_eq_true, decide_eq_true_eq, rwgMask_isSome]

theorem isGuarded_complement (h : isRwg f o) : isGuarded f (o + 0x800) = true :=
  isGuarded_iff.mpr (.inr ⟨Nat.le_add_left .., by simpa using h⟩)

theorem isRwg_place (h : isRwg f o) : isRegisterPlace f 0 o ∧ isRegisterPlace f 0 (o + 0x800) ∧ o < 0x800 := by
  unfold isRwg at h
  unfold isRegisterPlace
  omega

/-- No counter's pair lies on a guarded address. -/
theorem isGuarded_not_counter (h8 : o % 8 = 0) (h : isGuarded f o = true ∨ isGuarded f (o + 4) = true) :
    ¬ (0x400 ≤ o ∧ o < 0x600) := by
  simp only [isGuarded_iff, isRwg] at h
  omega

theorem isRwg_core {n : Nat} (hn : n < 256) (h : o = 0x40 ∨ o = 0x60 ∨ o = 0x64 ∨ o = 0x70) : isRwg (fCore n) o :=
  .inr ⟨by simp only [fCore]; omega, by simp only [fCore]; omega, h⟩

theorem isRwg_host {n : Nat} (hn : n < 64) : isRwg (fHost n) 0x20 :=
  .inl ⟨by simp only [fHost]; omega, by simp only [fHost]; omega, rfl⟩

theorem guardPlace_isRwg {reg : GReg} (h : guardPlace reg = (f, o)) : isRwg f o := by
  cases reg with
  | rulesetSel n => cases h; exact isRwg_host n.isLt
  | coreMask n => cases h; exact isRwg_core n.isLt (by decide)
  | privClassLo n => cases h; exact isRwg_core n.isLt (by decide)
  | privClassHi n => cases h; exact isRwg_core n.isLt (by decide)
  | actDrop n => cases h; exact isRwg_core n.isLt (by decide)

/-! ### The arm of a page (R57, R59) -/

theorem State.expireArm_none (h : v.arm f = none) : v.expireArm f = v := by
  simp [State.expireArm, h]

theorem State.expireArm_open {g : Arm} (h : v.armedWith f g) : v.expireArm f = v := by
  simp [State.expireArm, h.1, h.2]

theorem State.expireArm_over {g : Arm} (h : v.arm f = some g) (he : g.edge + 65 * Config.iclk ≤ v.clock.edge) :
    v.expireArm f =
      (v.setArm f none).recordPage f rsTimeout (faultWord rsTimeout 0 g.offset false g.host) := by
  simp [State.expireArm, h, Nat.not_lt.mpr he]

theorem State.expireArm_hold : (v.expireArm f).front.hold = v.front.hold := by
  unfold State.expireArm
  split
  · rfl
  · split
    · rfl
    · exact State.recordPage_hold ..

/-! ### Writes of a guarded address -/

theorem State.writeFrame_guardForm (hg : isGuarded f o = true) (hv : view ≠ 0) :
    v.writeFrame a byte f view o w = v.guardForm a byte f := by
  simp [State.writeFrame, hg, hv]

theorem State.writeFrame_guard (hg : isGuarded f o = true) : v.writeFrame a byte f 0 o w = v.guardWrite a byte f o w := by
  simp [State.writeFrame, hg]

theorem State.guardWrite_arms (h : v.arm f = none) (ho : o < 0x800) :
    v.guardWrite a byte f o w = ok (v.setArm f (some { value := w, host := a.host, edge := v.clock.edge, offset := o })) 0#32 := by
  simp [State.guardWrite, State.expireArm_none h, h, Nat.not_le.mpr ho]

theorem State.guardWrite_unarmed (h : v.arm f = none) (ho : 0x800 ≤ o) : v.guardWrite a byte f o w = v.refuse a byte rsOrder := by
  simp [State.guardWrite, State.expireArm_none h, h, ho]

theorem State.guardWrite_order {g : Arm} (h : v.armedWith f g) (ho : o ≠ g.offset + 0x800 ∨ a.host ≠ g.host) :
    v.guardWrite a byte f o w = (v.setArm f none).refuse a byte rsOrder := by
  simp only [State.guardWrite, State.expireArm_open h, h.1]
  rw [if_pos ho]

theorem State.guardWrite_mismatch {g : Arm} (h : v.armedWith f g) (hh : a.host = g.host) (hw : w ≠ ~~~g.value) :
    v.guardWrite a byte f (g.offset + 0x800) w = (v.setArm f none).refuse a byte rsMismatch := by
  simp [State.guardWrite, State.expireArm_open h, h.1, hh, hw]

theorem State.guardWrite_commits {g : Arm} (h : v.armedWith f g) (hh : a.host = g.host) :
    v.guardWrite a byte f (g.offset + 0x800) (~~~g.value) = ok ((v.setArm f none).commit f g.offset g.value) 0#32 := by
  simp [State.guardWrite, State.expireArm_open h, h.1, hh]

/-- A 64-bit write that touches a guarded address is refused GUARD_FORM and closes the arm (R60). -/
theorem State.perform_guardForm (hr : v.startup.ready = true) (hk : a.keeper = false) (hw : a.write = true)
    (hn : a.wide = true) (hb : a.byte % 8 = 0) (hp : placeOf a.byte = .frame f view o) (had : v.frameAdmits f a.host true = true)
    (hc : counterPair a.byte = false) (hg : guardedAt a.byte = true ∨ guardedAt (a.byte + 4) = true)
    (hh : v.front.hold = none) :
    v.perform a = ((v.expireArm f).setArm f none).refusedAt f rsForm view o false a.host := by
  have hgate := (State.admits_of_frame (v := v) hp).trans (hw ▸ had)
  have hb4 : a.byte % 4 = 0 := by omega
  have hf : frameAt a.byte = f := by rw [frameAt, hp]; rfl
  have hform : v.perform a = (v.guardForm a a.byte f).answer := by
    unfold State.perform
    simp [hp, hr, hk, hw, hn, hb, hb4, hgate, hc, hg, hf]
  have hold : ((v.expireArm f).setArm f none).front.hold = none := State.expireArm_hold.trans hh
  rw [hform, State.guardForm, State.refuse_answer hp hold, hw]
  rfl

end Sys2Proof.Machine
end

section
/-! SUPPORT. The commands that arm a guarded register and that commit or fail to commit its value (R57, R59, R60). -/

namespace Sys2Proof.Machine
variable {s : State} {dt : Nat} {host : HostId} {f view o : Nat}

/-- The commands that carry a complement write at the complement address of the register that they name. -/
theorem exec_complement {core : BitVec 8} {page : BitVec 6} {hi : Bool} {complement : Word} {x : Instr}
    (h : f = fCore core.toNat ∧
        (x = .coreMaskCommit dt host core complement ∧ o = 0x40 ∨
          x = .privClassCommit dt host core hi complement ∧ o = (if hi then 0x64 else 0x60) ∨
          x = .actDropN dt host core complement ∧ o = 0x70 ∨ x = .actDropF dt host core complement ∧ o = 0x70) ∨
      f = fHost page.toNat ∧ x = .rulesetSwap dt host page complement ∧ o = 0x20) :
    exec x s = s.portAccess dt (writeTo host (byteAt f 0 (o + 0x800)) false (narrow complement)) ∧ isRwg f o := by
  rcases h with ⟨rfl, ⟨rfl, rfl⟩ | ⟨rfl, rfl⟩ | ⟨rfl, rfl⟩ | ⟨rfl, rfl⟩⟩ | ⟨rfl, rfl, rfl⟩
  · exact ⟨rfl, isRwg_core core.isLt (by decide)⟩
  · cases hi <;> exact ⟨rfl, isRwg_core core.isLt (by decide)⟩
  · exact ⟨rfl, isRwg_core core.isLt (by decide)⟩
  · exact ⟨rfl, isRwg_core core.isLt (by decide)⟩
  · exact ⟨rfl, isRwg_host page.isLt⟩

theorem exec_guardArm {reg : GReg} {value : Word} (h : guardPlace reg = (f, o)) :
    exec (.guardArm dt host reg value) s = s.portAccess dt (writeTo host (byteAt f 0 o) false (narrow value)) := by
  show s.portAccess dt (writeTo host (byteAt (guardPlace reg).1 0 (guardPlace reg).2) false (narrow value)) = _
  rw [h]

/-- The matching complement, from the arming host while the arm is open, commits the armed value. -/
theorem exec_commit {g : Arm} {t : State} {x : Instr}
    (hx : exec x s = s.portAccess dt (writeTo host (byteAt f 0 (o + 0x800)) false (narrow (~~~g.value)))) (hr : isRwg f o)
    (ho : s.portOpen dt) (had : (s.portEdge dt).frameAdmits f host true = true) (harm : (s.portEdge dt).armedWith f g)
    (hhost : g.host = host) (hoff : g.offset = o) (ht : ((s.portEdge dt).setArm f none).commit f o g.value = t)
    (hh : t.front.hold = none) : exec x s = .next (s.left (t.answer .ok 0#64)) := by
  subst hoff
  rw [hx]
  refine port_write_ok ho (isRwg_place hr).2.1 had hh fun byte => ?_
  rw [State.writeFrame_guard (isGuarded_complement hr), State.guardWrite_commits harm hhost.symm, ht]

end Sys2Proof.Machine
end

section
open Sys2Proof Sys2Proof.Machine

/-- Settles O8: a guarded write by the arm that it finds, the timeout by the edge, the other forms as GUARD_FORM. -/
theorem guardedPairsArmTimeOutAndRefuse : Obligations.GuardedPairsArmTimeOutAndRefuse := by
  refine ⟨?_, ?_, ?_⟩
  · intro s v dt host reg value f o hreg ho hv had
    subst hv
    have hr := guardPlace_isRwg hreg
    obtain ⟨hp, _, hlt⟩ := isRwg_place hr
    have hg : isGuarded f o = true := isGuarded_iff.mpr (.inl hr)
    rw [exec_guardArm hreg]
    refine ⟨fun hnone => ?_, fun a harm => ?_⟩
    · refine port_write_ok ho hp had ?_ fun _ => (State.writeFrame_guard hg).trans (State.guardWrite_arms hnone hlt)
      exact State.portOpen_hold ho
    · refine port_write_refused ho hp had ?_ fun _ =>
        (State.writeFrame_guard hg).trans (State.guardWrite_order harm (.inl (by omega)))
      exact State.portOpen_hold ho
  · intro s u dt page hu hreset
    subst hu
    have hexec : exec (.guardTimeout dt page) s = .next (s.left ((s.elapse dt).expireArm (guardFrame page))) :=
      State.clockedBy_on (f := fun s => s.expireArm (guardFrame page)) hreset
    rw [hexec]
    refine ⟨fun a ha he => ?_, ?_⟩
    · rw [State.expireArm_over ha he]
    · rintro (h | ⟨a, h⟩)
      · rw [State.expireArm_none h]
      · rw [State.expireArm_open h]
  · intro s v dt host hv ho
    subst hv
    refine ⟨fun core page hi complement x f o had hx => ?_, fun addr data f view o hp had => ⟨fun hg hview => ?_, fun h8 hg => ?_⟩⟩
    · obtain ⟨hexec, hr⟩ := exec_complement (s := s) hx
      obtain ⟨_, hp, _⟩ := isRwg_place hr
      have hguard := isGuarded_complement hr
      rw [hexec]
      refine ⟨?_, fun a harm hne => ?_, fun hnone => ?_⟩
      · rintro a harm hhost rfl hc
        refine port_write_refused ho hp had ?_ fun _ =>
          (State.writeFrame_guard hguard).trans (State.guardWrite_mismatch harm hhost.symm hc)
        exact State.portOpen_hold ho
      · have hother : o + 0x800 ≠ a.offset + 0x800 ∨ host ≠ a.host :=
          hne.symm.imp (fun h e => h (by omega)) Ne.symm
        refine port_write_refused ho hp had ?_ fun _ => (State.writeFrame_guard hguard).trans (State.guardWrite_order harm hother)
        exact State.portOpen_hold ho
      · exact port_write_refused ho hp had (State.portOpen_hold ho) fun _ =>
          (State.writeFrame_guard hguard).trans (State.guardWrite_unarmed hnone (Nat.le_add_left ..))
    · refine registerWrite_refused ho hp had ?_ (State.writeFrame_guardForm hg hview)
      exact State.expireArm_hold.trans (State.portOpen_hold ho)
    · obtain ⟨hbyte, hf, hv, hlt⟩ := eq_byteAt_of_placeOf hp
      have hp' : placeOf (4 * addr.toNat + 4) = .frame f view (o + 4) := by
        rw [hbyte, byteAt_add, placeOf_byteAt hf hv (by omega)]
      have hb8 : 4 * addr.toNat % 8 = 0 := by rw [hbyte, byteAt_mod (.inr rfl), h8]
      have hcnt : counterPair (4 * addr.toNat) = false := by
        have := isGuarded_not_counter h8 hg
        simp [counterPair, hp]; omega
      have hguard : guardedAt (4 * addr.toNat) = true ∨ guardedAt (4 * addr.toNat + 4) = true := by
        simpa [guardedAt, hp, hp'] using hg
      rw [exec_registerWrite ho, State.perform_guardForm (State.portOpen_ready ho) rfl rfl rfl hb8 hp had hcnt hguard
        (State.portOpen_hold ho)]
      rfl
end

section
/-! SUPPORT. What the commit of a guarded register does, and what its read returns (R57, R61, R93, R97, R101, R102, R136). -/

namespace Sys2Proof.Machine
variable {s : State} {n f o : Nat} {w : Word}

theorem isHostFrame_core : isHostFrame (fCore n) = false := by
  simp [isHostFrame, fCore]

theorem State.commit_coreMask :
    s.commit (fCore n) 0x40 w = (s.modCore n fun c => { c with mask := w.setWidth 4 }).recheck := by
  simp [State.commit, isHostFrame_core]

theorem State.commit_privClass {hi : Bool} : s.commit (fCore n) (if hi then 0x64 else 0x60) w =
    (s.modCore n fun c => { c with privClass := if hi then joinWords (loWord c.privClass) w
                                                else joinWords w (hiWord c.privClass) }).recheck := by
  cases hi <;> simp [State.commit, isHostFrame_core]

theorem State.commit_actDrop :
    s.commit (fCore n) 0x70 w =
      let t := if bit w 0 then s.drop n false else s
      if bit w 1 then t.drop n true else t := by
  simp [State.commit, isHostFrame_core]

theorem State.commit_ruleset (hn : n < 64) : s.commit (fHost n) o w = s.commitRuleset n (bit w 0) := by
  have hf : isHostFrame (fHost n) = true := by simp [isHostFrame, fHost]; omega
  simp [State.commit, hf]

theorem State.commitRuleset_same {b : Bool} (h : bit s.gate.setB n = b) :
    s.commitRuleset n b = (s.count (fHost n) 5).count fGate 5 := by
  simp [State.commitRuleset, h]

theorem State.commitRuleset_swaps {b : Bool} {t : State} (h : bit s.gate.setB n ≠ b)
    (ht : (s.count (fHost n) 5).count fGate 5 = t) :
    s.commitRuleset n b =
      (State.markOld { t with gate.setB := setBit t.gate.setB n b,
                              gate.swapAt := ins none t.gate.swapAt n (some t.clock.dp) } n).emptyCaches := by
  subst ht
  have h' : bit ((s.count (fHost n) 5).count fGate 5).gate.setB n ≠ b := by simpa using h
  unfold State.commitRuleset
  exact if_neg h'

/-! ### Reads (R61) -/

/-- The register of a guarded place is its committed value, whatever the arm. -/
theorem State.readReg_rwg (h : isRwg f o) : s.readReg f o = s.readRwg f o := by
  have hm := rwgMask_isSome.mpr h
  have h20 : ¬ o < 0x20 := by unfold isRwg at h; omega
  have hcnt : ¬ (0x400 ≤ o ∧ o < 0x600) := by unfold isRwg at h; omega
  have hheld : ¬ (0x600 ≤ o ∧ o < 0x800) := by unfold isRwg at h; omega
  simp only [State.readReg, h20, hcnt, hheld, hm, if_true, if_false]

/-- Its complement address reads the bitwise complement. -/
theorem State.readReg_complement (h : isRwg f o) : s.readReg f (o + 0x800) = ~~~(s.readRwg f o) := by
  have hm := rwgMask_isSome.mpr h
  have hno : ¬ (rwgMask f (o + 0x800)).isSome = true := fun hs => by
    have := rwgMask_isSome.mp hs
    unfold isRwg at this
    omega
  have h20 : ¬ o + 0x800 < 0x20 := by omega
  simp [State.readReg, h20, hno, hm]

theorem State.readRwg_setArm {p : Nat} {a : Option Arm} : (s.setArm p a).readRwg f o = s.readRwg f o := rfl

theorem State.readRwg_host (hn : n < 64) :
    s.readRwg (0x40 + n) o = if s.gate.setB.getLsbD n then 1#32 else 0#32 := by
  have hf : isHostFrame (0x40 + n) = true := by simp [isHostFrame]; omega
  simp [State.readRwg, hf, flag32, bit, at32]

theorem State.readRwg_core :
    s.readRwg (0x80 + n) 0x40 = (s.core n).mask.setWidth 32 ∧
      s.readRwg (0x80 + n) 0x60 = (s.core n).privClass.setWidth 32 ∧
      s.readRwg (0x80 + n) 0x64 = ((s.core n).privClass >>> 32).setWidth 32 ∧ s.readRwg (0x80 + n) 0x70 = 0#32 := by
  have hf : isHostFrame (0x80 + n) = false := isHostFrame_core
  refine ⟨?_, ?_, ?_, ?_⟩ <;> simp [State.readRwg, hf, at32, loWord, hiWord]

end Sys2Proof.Machine
end

section
open Sys2Proof Sys2Proof.Machine

/-- Settles O9, from what each guarded register's commit does. -/
theorem commitsTakeTheArmedValue : Obligations.CommitsTakeTheArmedValue := by
  refine ⟨?_, ?_⟩
  · intro s v dt host core a hi w ho hv had harm hhost hw
    subst hv
    have hold : w.front.hold = none := by rw [← hw]; exact State.portOpen_hold ho
    have hdrop (t : State) (ht : t.front.hold = none) (fast : Bool) : (t.drop core.toNat fast).front.hold = none :=
      (State.drop_hold ..).trans ht
    have hrecheck (t : State) (ht : t.front.hold = none) : t.recheck.front.hold = none := (State.recheck_hold t).trans ht
    refine ⟨fun hoff => ?_, fun hoff => ?_, fun hoff h0 h1 => ?_, fun hoff h0 h1 => ?_, fun hoff h0 h1 => ?_⟩
    · refine exec_commit (o := 0x40) rfl (isRwg_core core.isLt (by decide)) ho had harm hhost hoff ?_ ?_
      · rw [hw, State.commit_coreMask]
      · exact hrecheck _ hold
    · have hexec : exec (.privClassCommit dt host core hi (~~~a.value)) s = s.portAccess dt (writeTo host
          (byteAt (fCore core.toNat) 0 ((if hi then 0x64 else 0x60) + 0x800)) false (narrow (~~~a.value))) := by
        cases hi <;> rfl
      have hr : isRwg (fCore core.toNat) (if hi then 0x64 else 0x60) := by cases hi <;> exact isRwg_core core.isLt (by decide)
      refine exec_commit hexec hr ho had harm hhost hoff ?_ ?_
      · rw [hw, State.commit_privClass]
      · exact hrecheck _ hold
    · refine exec_commit (o := 0x70) rfl (isRwg_core core.isLt (by decide)) ho had harm hhost hoff ?_ (hdrop w hold false)
      rw [hw, State.commit_actDrop]
      simp [h0, h1]
    · refine exec_commit (o := 0x70) rfl (isRwg_core core.isLt (by decide)) ho had harm hhost hoff ?_ (hdrop w hold true)
      rw [hw, State.commit_actDrop]
      simp [h0, h1]
    · refine exec_commit (o := 0x70) rfl (isRwg_core core.isLt (by decide)) ho had harm hhost hoff ?_
        (hdrop _ (hdrop w hold false) true)
      rw [hw, State.commit_actDrop]
      simp [h0, h1]
  · intro s v w dt host page a ho hv had harm hhost hoff hw
    subst hv
    have hold : w.front.hold = none := by
      rw [← hw, State.count_hold, State.count_hold]; exact State.portOpen_hold ho
    have hset : ((s.portEdge dt).setArm (fHost page.toNat) none).gate = (s.portEdge dt).gate := State.setArm_gate ..
    rw [← hset]
    refine ⟨fun hb => ?_, fun hb => ?_⟩
    · refine exec_commit (o := 0x20) rfl (isRwg_host page.isLt) ho had harm hhost hoff ?_ hold
      rw [State.commit_ruleset page.isLt, State.commitRuleset_same hb, hw]
    · refine exec_commit (o := 0x20) rfl (isRwg_host page.isLt) ho had harm hhost hoff ?_ ?_
      · rw [State.commit_ruleset page.isLt, State.commitRuleset_swaps hb hw]
      · rw [State.emptyCaches_hold, State.markOld_hold]
        exact hold

/-- Settles O10: a guarded register reads its committed value, which no arm touches. -/
theorem guardedRegistersReadTheirCommittedValue : Obligations.GuardedRegistersReadTheirCommittedValue := by
  intro s f o m hm
  have hr : isRwg f o := rwgMask_isSome.mp (by rw [hm]; rfl)
  rw [State.readReg_complement hr, State.readReg_rwg hr]
  refine ⟨rfl, fun p a => ?_, fun n hn hf => ?_, fun n _ hf => ?_⟩
  · rw [State.readReg_rwg hr, State.readReg_complement hr, State.readRwg_setArm]
    exact ⟨rfl, rfl⟩
  · rw [hf]
    exact State.readRwg_host hn
  · obtain ⟨hmask, hlo, hhi, hdrop⟩ := State.readRwg_core (s := s) (n := n)
    subst hf
    exact ⟨fun h => h ▸ hmask, fun h => h ▸ hlo, fun h => h ▸ hhi, fun h => h ▸ hdrop⟩
end

section
/-! SUPPORT. Counters: the words of a pair, their writes and their reads (R50 to R54). -/

namespace Sys2Proof.Machine

/-! ### The bits of a counter's words -/

/-- The masks of a counter's two words, bit by bit. -/
theorem counterMask_getLsbD {i : Nat} (hi : i < 48) :
    (0xFFFF00000000#48).getLsbD i = decide (32 ≤ i) ∧ (0xFFFFFFFF#48).getLsbD i = decide (i < 32) ∧
      (0xFFFF#48).getLsbD i = decide (i < 16) :=
  have all : ∀ i : Fin 48, (0xFFFF00000000#48).getLsbD i.val = decide (32 ≤ i.val) ∧
      (0xFFFFFFFF#48).getLsbD i.val = decide (i.val < 32) ∧ (0xFFFF#48).getLsbD i.val = decide (i.val < 16) := by decide
  all ⟨i, hi⟩

theorem putLow_eq (n : BitVec 48) (w : Word) : putLow w n = n.extractLsb' 32 16 ++ w := by
  refine BitVec.eq_of_getLsbD_eq fun i hi => ?_
  obtain ⟨hm, _, _⟩ := counterMask_getLsbD hi
  rw [BitVec.getLsbD_append]
  simp only [putLow, BitVec.getLsbD_or, BitVec.getLsbD_and, hm, BitVec.getLsbD_setWidth, BitVec.getLsbD_extractLsb']
  rcases Nat.lt_or_ge i 32 with h | h
  · simp [h, Nat.not_le.mpr h, hi]
  · have hsub : 32 + (i - 32) = i := by omega
    have h16 : i - 32 < 16 := by omega
    simp [h, Nat.not_lt.mpr h, hsub, hi, h16]

theorem putHigh_eq (n : BitVec 48) (w : Word) : putHigh w n = w.extractLsb' 0 16 ++ n.extractLsb' 0 32 := by
  refine BitVec.eq_of_getLsbD_eq fun i hi => ?_
  obtain ⟨_, hm, _⟩ := counterMask_getLsbD hi
  obtain ⟨_, _, hm'⟩ := counterMask_getLsbD (i := i - 32) (by omega)
  rw [BitVec.getLsbD_append]
  simp only [putHigh, BitVec.getLsbD_or, BitVec.getLsbD_and, BitVec.getLsbD_shiftLeft, hm, hm', BitVec.getLsbD_setWidth,
    BitVec.getLsbD_extractLsb']
  rcases Nat.lt_or_ge i 32 with h | h
  · simp [h, hi]
  · have h16 : i - 32 < 16 := by omega
    have h48 : i - 32 < 48 := by omega
    simp [Nat.not_lt.mpr h, hi, h16, h48]

theorem putPair_eq (n : BitVec 48) (d : DWord) : putHigh (hiWord d) (putLow (loWord d) n) = d.extractLsb' 0 48 := by
  rw [putHigh_eq, putLow_eq]
  refine BitVec.eq_of_getLsbD_eq fun i hi => ?_
  rw [BitVec.getLsbD_append]
  rw [BitVec.getLsbD_extractLsb', BitVec.getLsbD_append]
  simp only [hiWord, loWord, BitVec.getLsbD_setWidth, BitVec.getLsbD_extractLsb', BitVec.getLsbD_ushiftRight]
  rcases Nat.lt_or_ge i 32 with h | h
  · simp [h, hi]
  · have hsub : 32 + (i - 32) = i := by omega
    have h16 : i - 32 < 16 := by omega
    have h32 : i - 32 < 32 := by omega
    simp [Nat.not_lt.mpr h, hi, h16, h32, hsub]

theorem counterData_eq (n : BitVec 48) (b : Bool) :
    joinWords (n.setWidth 32) (flag32 31 b ||| at32 0 (n.extractLsb' 32 16).toNat) = (BitVec.ofBool b ++ 0#15) ++ n := by
  have hlow : at32 0 (n.extractLsb' 32 16).toNat = (n.extractLsb' 32 16).setWidth 32 := by
    rw [at32, Nat.shiftLeft_zero, BitVec.ofNat_toNat]
  have hflag : flag32 31 b = BitVec.ofBool b ++ 0#31 := by cases b <;> rfl
  unfold joinWords
  rw [hlow, hflag]
  refine BitVec.eq_of_getLsbD_eq fun i hi => ?_
  rw [BitVec.getLsbD_append, BitVec.getLsbD_or, BitVec.getLsbD_append, BitVec.getLsbD_append, BitVec.getLsbD_append]
  simp only [BitVec.getLsbD_setWidth, BitVec.getLsbD_extractLsb', BitVec.getLsbD_zero, BitVec.getLsbD_ofBool]
  rcases Nat.lt_or_ge i 32 with h | h
  · simp [h, (by omega : i < 48)]
  · have hsub : 32 + (i - 32) = i := by omega
    have h32 : i - 32 < 32 := by omega
    rcases Nat.lt_or_ge i 48 with h48 | h48
    · simp [Nat.not_lt.mpr h, h48, h32, hsub, (by omega : i - 32 < 16), (by omega : i - 32 < 31)]
    · rcases Nat.lt_or_ge i 63 with h63 | h63
      · simp [Nat.not_lt.mpr h, Nat.not_lt.mpr h48, hsub, (by omega : i - 32 < 31), (by omega : i - 48 < 15)]
        intro _ _
        omega
      · obtain rfl : i = 63 := by omega
        simp

/-! ### Writes (R52, R53) -/

variable {v : State} {a : Access} {byte f view i k n : Nat}

/-- A counter's write is the count that its bits form, with the edge's increments added after. -/
theorem State.formCounter_eq {written : BitVec 48 → BitVec 48} {old w : BitVec 48} (hold : (v.sampled.counter k).count = old)
    (hn : ((v.counter k).count - old).toNat = n) (hw : written old = w) : v.formCounter k written = v.formedWith k w n := by
  subst hold
  have hk : v.edgeCount k = n := hn
  have hcount : BitVec.ofNat 48 (w.toNat + n) = w + BitVec.ofNat 48 n := by
    rw [BitVec.ofNat_add, BitVec.ofNat_toNat, BitVec.setWidth_eq]
  unfold State.formCounter State.formedWith
  simp only [hk, hw, Counter.add, hcount, Bool.false_or, decide_eq_true_eq]
  split_ifs <;> rfl

/-- The counters of a page lie between its registers and its holding pairs. -/
theorem isGuarded_counterArea {o : Nat} (ho : 0x400 ≤ o ∧ o < 0x600) : isGuarded f o = false := by
  rw [Bool.eq_false_iff, ne_eq, isGuarded_iff]
  unfold isRwg
  omega

theorem State.writeFrame_counterLow {w : Word} (hi : i < 64) (hc : counterExists f i = true) :
    v.writeFrame a byte f 0 (0x400 + 8 * i) w = ok (v.formCounter (ckey f i) (putLow w)) 0#32 := by
  have ho : 0x400 ≤ 0x400 + 8 * i ∧ 0x400 + 8 * i < 0x600 := by omega
  have hidx : (0x400 + 8 * i - 0x400) / 8 = i := by omega
  have h8 : (0x400 + 8 * i) % 8 = 0 := by omega
  rw [State.writeFrame_counters (isGuarded_counterArea ho) ho, if_pos rfl]
  simp only [State.writeCounter, hidx, hc, h8, if_true]

theorem State.writeFrame_counterHigh {w : Word} (hi : i < 64) (hc : counterExists f i = true) :
    v.writeFrame a byte f 0 (0x400 + 8 * i + 4) w = ok (v.formCounter (ckey f i) (putHigh w)) 0#32 := by
  have ho : 0x400 ≤ 0x400 + 8 * i + 4 ∧ 0x400 + 8 * i + 4 < 0x600 := by omega
  have hidx : (0x400 + 8 * i + 4 - 0x400) / 8 = i := by omega
  have h8 : ¬ (0x400 + 8 * i + 4) % 8 = 0 := by omega
  rw [State.writeFrame_counters (isGuarded_counterArea ho) ho, if_pos rfl]
  simp only [State.writeCounter, hidx, hc, h8, if_true, if_false]

theorem State.formedWith_hold (v : State) (k : Nat) (w : BitVec 48) (n : Nat) :
    (v.formedWith k w n).front.hold = v.front.hold := rfl

/-- A 64-bit write to a counter's pair forms the whole pair. -/
theorem State.perform_pairWrite (hr : v.startup.ready = true) (hk : a.keeper = false) (hw : a.write = true) (hn : a.wide = true)
    (hb : a.byte % 8 = 0) (hp : placeOf a.byte = .frame f 0 (0x400 + 8 * i)) (hi : i < 64)
    (had : v.frameAdmits f a.host true = true) (hc : counterExists f i = true) :
    v.perform a =
      (v.formCounter (ckey f i) fun n => putHigh (hiWord a.data) (putLow (loWord a.data) n)).answerPair .ok 0#64 := by
  have hgate := (State.admits_of_frame (v := v) hp).trans (hw ▸ had)
  have hb4 : a.byte % 4 = 0 := by omega
  have hpair : counterPair a.byte = true := by simp [counterPair, hp]; omega
  have hidx : (0x400 + 8 * i - 0x400) / 8 = i := by omega
  have hwrite : v.pairWrite a = v.formCounter (ckey f i) fun n => putHigh (hiWord a.data) (putLow (loWord a.data) n) := by
    simp only [State.pairWrite, hp, State.writePair, hidx, hc, if_true]
  rw [← hwrite]
  unfold State.perform
  simp [hp, hr, hk, hw, hn, hb, hb4, hgate, hpair]

/-! ### Reads (R51, R54) -/

theorem State.holdRead_frame {o : Nat} (hp : placeOf a.byte = .frame f view o) (ho : o ≠ 0x30) : v.holdRead a = none := by
  unfold State.holdRead
  rw [hp]
  split
  · next h => cases h; exact absurd rfl ho
  · next h => cases h
  · rfl

/-- A register of the counter area has no admission rule of its own. -/
theorem State.readAdmits_counterArea {o h : Nat} (ho : 0x400 ≤ o) : v.readAdmits f o h = true := by
  have h1 : ¬ (f = fFast ∧ o = 0x28) := by omega
  have h2 : ¬ (f = fFast ∧ o = 0x3C) := by omega
  have h3 : ¬ (f = fReservoir ∧ o = 0x24) := by omega
  have h4 : ¬ (f = fPump ∧ (o = 0x48 ∨ o = 0x4C ∨ o = 0x50)) := by omega
  simp only [State.readAdmits, h1, h2, h3, h4, if_false]

/-- No page backs a register of the counter area. -/
theorem State.pageOfRead_counterArea {o : Nat} (ho : 0x400 ≤ o ∧ o < 0x600) : v.pageOfRead f o = none := by
  have h1 : groupPageRead f o = false := by
    have : ¬ 0x800 ≤ o := by omega
    simp [groupPageRead, this]
  have h2 : ¬ (f = fReservoir ∧ o = 0x24 ∧ 4096 ≤ v.queryKey ∧ v.queryKey < 131072) := by omega
  simp only [State.pageOfRead, h1, h2, if_false, Bool.false_eq_true]

theorem State.readReg_counterArea {o : Nat} (ho : 0x400 ≤ o ∧ o < 0x600) : v.readReg f o = v.readCounter f o := by
  have h20 : ¬ o < 0x20 := by omega
  simp only [State.readReg, h20, ho, and_self, if_true, if_false]

theorem State.latchCounter_eq (hi : i < ncnt f) {c : Counter} (hc : v.sampled.counter (ckey f i) = c) :
    v.latchCounter f i = v.setCounter (ckey f i)
      { v.counter (ckey f i) with latchHi := c.count.extractLsb' 32 16, latchOvf := c.ovf } := by
  subst hc
  have hlatch (x : BitVec 48) : (x >>> 32).setWidth 16 = x.extractLsb' 32 16 := by
    refine BitVec.eq_of_getLsbD_eq fun j hj => ?_
    simp [hj]
  simp only [State.latchCounter, Nat.not_le.mpr hi, if_false, hlatch]

/-- A read in the counter area: the low word as it stood before the edge, with its latch loaded, or the high word's latch as
the lower half of the same read has left it (R51). -/
theorem State.readFrame_counterArea {o : Nat} (ho : 0x400 ≤ o ∧ o < 0x600) (h8 : o % 8 = 0 ∨ o % 8 = 4) :
    v.readFrame a byte f view o =
      if o % 8 = 0 then ok (v.latchCounter f ((o - 0x400) / 8)) (v.sampled.readCounter f o) else ok v (v.readCounter f o) := by
  have hack : (decide (o = 0x20) || decide (o = 0x30)) = false := by simp; omega
  have hgrp : groupPageRead f o = false := by
    have : ¬ 0x800 ≤ o := by omega
    simp [groupPageRead, this]
  have hft : ¬ (f = fFast ∧ o = 0x28) := by omega
  simp only [State.readFrame, State.readAdmits_counterArea ho.1, hack, State.pageOfRead_counterArea ho, State.readHalf,
    PageResult.answers, State.readReg_counterArea ho, ho.1, ho.2, hgrp, hft, Bool.and_false, Bool.not_true, Bool.not_false,
    Bool.and_self, Bool.false_eq_true, if_false, true_and]
  rcases h8 with h8 | h8 <;> simp [h8]

theorem State.readFrame_counterLow (hi : i < ncnt f) (hi64 : i < 64) {c : Counter} (hc : v.sampled.counter (ckey f i) = c) :
    v.readFrame a byte f view (0x400 + 8 * i) =
      ok (v.setCounter (ckey f i)
        { v.counter (ckey f i) with latchHi := c.count.extractLsb' 32 16, latchOvf := c.ovf }) (c.count.setWidth 32) := by
  have hidx : (0x400 + 8 * i - 0x400) / 8 = i := by omega
  have h8 : (0x400 + 8 * i) % 8 = 0 := by omega
  rw [State.readFrame_counterArea (by omega) (.inl h8), if_pos h8, hidx, State.latchCounter_eq hi hc]
  simp only [State.readCounter, hidx, Nat.not_le.mpr hi, h8, if_true, if_false, hc]

theorem State.readFrame_counterHigh (hi : i < ncnt f) (hi64 : i < 64) :
    v.readFrame a byte f view (0x400 + 8 * i + 4) = ok v (v.counter (ckey f i)).hiWord := by
  have hidx : (0x400 + 8 * i + 4 - 0x400) / 8 = i := by omega
  have h8 : ¬ (0x400 + 8 * i + 4) % 8 = 0 := by omega
  rw [State.readFrame_counterArea (by omega) (.inr (by omega)), if_neg h8]
  simp only [State.readCounter, hidx, Nat.not_le.mpr hi, h8, if_false]

/-- A 64-bit read of a frame's registers that holds nothing at the ordering point performs its two halves. -/
theorem State.perform_readHalves {o : Nat} {lo hi : HalfResult} (hk : a.keeper = false) (hw : a.write = false)
    (hn : a.wide = true) (hb : a.byte % 8 = 0) (hp : placeOf a.byte = .frame f view o)
    (had : v.frameAdmits f a.host false = true) (ho : o ≠ 0x30) (hlo : v.half a a.byte (loWord a.data) = lo)
    (hhi : lo.s.half a (a.byte + 4) (hiWord a.data) = hi) :
    v.perform a = hi.s.answerPair (lo.code.worse hi.code) (joinWords lo.data hi.data) := by
  have hgate := (State.admits_of_frame (v := v) hp).trans (hw ▸ had)
  have hb4 : a.byte % 4 = 0 := by omega
  have hnone := State.holdRead_frame (v := v) hp ho
  subst hlo hhi
  unfold State.perform
  simp [hp, hk, hw, hn, hb, hb4, hgate, hnone]

end Sys2Proof.Machine
end

section
/-! SUPPORT. COUNTER_WRITE and COUNTER_LO_READ at the port (R51, R52). -/

namespace Sys2Proof.Machine
variable {s : State} {dt : Nat} {host : HostId} {f view i n : Nat} {data : DWord}

theorem counterPlace (hf : f < 0x28 ∨ 0x40 ≤ f ∧ f < 0x180) (hv : view < 4) (hi : i < 64) :
    isRegisterPlace f view (0x400 + 8 * i) ∧ isRegisterPlace f view (0x400 + 8 * i + 4) := by
  unfold isRegisterPlace; omega

/-- A write to one word of a counter forms the pair with that word's bits. -/
theorem port_counterWord {o : Nat} {put : Word → BitVec 48 → BitVec 48} {old w : BitVec 48} (ho : s.portOpen dt)
    (hp : isRegisterPlace f 0 o) (had : (s.portEdge dt).frameAdmits f host true = true)
    (hold : ((s.portEdge dt).sampled.counter (ckey f i)).count = old)
    (hn : (((s.portEdge dt).counter (ckey f i)).count - old).toNat = n)
    (hwrite : ∀ a byte, (s.portEdge dt).writeFrame a byte f 0 o (loWord data) =
      ok ((s.portEdge dt).formCounter (ckey f i) (put (loWord data))) 0#32)
    (hput : put (loWord data) old = w) :
    s.portAccess dt (writeTo host (byteAt f 0 o) false data) =
      .next (s.left (((s.portEdge dt).formedWith (ckey f i) w n).answer .ok 0#64)) := by
  obtain ⟨hf, hv, h1, h2⟩ := hp
  rw [State.port_write ho hf hv h1 h2 had, hwrite, State.formCounter_eq hold hn hput,
    State.ok_zero_answer ((State.formedWith_hold ..).trans (State.portOpen_hold ho))]

/-- A 64-bit write to a counter's pair. -/
theorem port_counterPair {old : BitVec 48} (ho : s.portOpen dt) (hf : f < 0x28 ∨ 0x40 ≤ f ∧ f < 0x180) (hi : i < 64)
    (had : (s.portEdge dt).frameAdmits f host true = true) (hc : counterExists f i = true)
    (hold : ((s.portEdge dt).sampled.counter (ckey f i)).count = old)
    (hn : (((s.portEdge dt).counter (ckey f i)).count - old).toNat = n) :
    s.portAccess dt (writeTo host (byteAt f 0 (0x400 + 8 * i)) true data) =
      .next (s.left (((s.portEdge dt).formedWith (ckey f i) (data.extractLsb' 0 48) n).answer .ok 0#64)) := by
  obtain ⟨⟨_, hv, h1, _⟩, _⟩ := counterPlace (view := 0) hf (by decide) hi
  have hb : byteAt f 0 (0x400 + 8 * i) % 8 = 0 := by rw [byteAt_mod (.inr rfl)]; omega
  have hperform := State.perform_pairWrite (a := writeTo host (byteAt f 0 (0x400 + 8 * i)) true data) (State.portOpen_ready ho)
    rfl rfl rfl hb (placeOf_byteAt hf hv h1) hi had hc
  have hform := State.formCounter_eq (written := fun n => putHigh (hiWord data) (putLow (loWord data) n)) hold hn
    (putPair_eq old data)
  rw [State.portAccess_open _ ho, hperform]
  simp only [writeTo]
  rw [hform, State.answerPair_ok ((State.formedWith_hold ..).trans (State.portOpen_hold ho))]

/-- A read of a counter's low word, and of its pair. -/
theorem port_counterRead {c : Counter} {t : State} (ho : s.portOpen dt) (hf : f < 0x28 ∨ 0x40 ≤ f ∧ f < 0x180) (hv : view < 4)
    (hi : i < ncnt f) (hi64 : i < 64) (had : (s.portEdge dt).frameAdmits f host false = true)
    (hc : (s.portEdge dt).sampled.counter (ckey f i) = c)
    (ht : (s.portEdge dt).setCounter (ckey f i)
      { (s.portEdge dt).counter (ckey f i) with latchHi := c.count.extractLsb' 32 16, latchOvf := c.ovf } = t) :
    s.portAccess dt (readFrom host (byteAt f view (0x400 + 8 * i)) false) =
        .next (s.left (t.answer .ok ((c.count.extractLsb' 0 32).setWidth 64))) ∧
      (rising 0 (s.portEdge dt).front.counters = true →
        s.portAccess dt (readFrom host (byteAt f view (0x400 + 8 * i)) true) =
          .next (s.left (t.answer .ok ((BitVec.ofBool c.ovf ++ 0#15) ++ c.count)))) := by
  obtain ⟨⟨_, _, h1, h2⟩, ⟨_, _, h1', _⟩⟩ := counterPlace hf hv hi64
  have hp := placeOf_byteAt hf hv h1
  have hb : byteAt f view (0x400 + 8 * i) % 8 = 0 := by rw [byteAt_mod (.inr rfl)]; omega
  have hhold : t.front.hold = none := by rw [← ht]; exact State.portOpen_hold ho
  have hlow (a : Access) (byte : Nat) : (s.portEdge dt).readFrame a byte f view (0x400 + 8 * i) = ok t (c.count.setWidth 32) := by
    rw [State.readFrame_counterLow hi hi64 hc, ht]
  refine ⟨?_, fun hrise => ?_⟩
  · have hperform := State.perform_read (a := readFrom host (byteAt f view (0x400 + 8 * i)) false) hp rfl rfl rfl
      (by rw [readFrom, byteAt_mod (.inl rfl), h2]) had (State.holdRead_frame hp (by omega))
    rw [State.portAccess_open _ ho, hperform, hlow, State.ok_answer hhold]
    rfl
  · have hcounter : t.counter (ckey f i) =
        { (s.portEdge dt).counter (ckey f i) with latchHi := c.count.extractLsb' 32 16, latchOvf := c.ovf } := by
      rw [← ht]
      exact look_ins_same _ hrise _ _
    have hp' : placeOf (byteAt f view (0x400 + 8 * i) + 4) = .frame f view (0x400 + 8 * i + 4) := by
      rw [byteAt_add, placeOf_byteAt hf hv h1']
    have hlo : (s.portEdge dt).half (readFrom host (byteAt f view (0x400 + 8 * i)) true) (byteAt f view (0x400 + 8 * i))
        (loWord 0#64) = ok t (c.count.setWidth 32) := by
      simp only [State.half, hp, readFrom, Bool.false_eq_true, if_false]
      exact hlow _ _
    have hhi : (ok t (c.count.setWidth 32)).s.half (readFrom host (byteAt f view (0x400 + 8 * i)) true)
        (byteAt f view (0x400 + 8 * i) + 4) (hiWord 0#64) = ok t (t.counter (ckey f i)).hiWord := by
      simp only [ok, State.half, hp', readFrom, Bool.false_eq_true, if_false]
      exact State.readFrame_counterHigh hi hi64
    have hperform := State.perform_readHalves (a := readFrom host (byteAt f view (0x400 + 8 * i)) true) rfl rfl rfl hb hp had
      (by omega) hlo hhi
    rw [State.portAccess_open _ ho, hperform, State.answerPair_halves hhold, hcounter, ← counterData_eq]
    rfl

end Sys2Proof.Machine
end

section
open Sys2Proof Sys2Proof.Machine

/-- Settles O11: a write by the words that it names, a read by its width. -/
theorem countersReadAndWriteTheirPair : Obligations.CountersReadAndWriteTheirPair := by
  refine ⟨?_, ?_⟩
  · intro s v dt host frame idx data k n old hf hc ho hv had hk hold hn
    subst hv hk
    obtain ⟨hlow, hhigh⟩ := counterPlace (view := 0) hf (by decide) idx.isLt
    have hlo : (loWord data : BitVec 32) = data.extractLsb' 0 32 := by
      refine BitVec.eq_of_getLsbD_eq fun j hj => ?_
      simp [loWord, hj]
    have hhi : (loWord data).extractLsb' 0 16 = data.extractLsb' 0 16 := by
      refine BitVec.eq_of_getLsbD_eq fun j hj => ?_
      simp [loWord, hj, (by omega : j < 32)]
    refine ⟨?_, ?_, ?_⟩
    · exact port_counterWord (put := putLow) ho hlow had hold hn (fun _ _ => State.writeFrame_counterLow idx.isLt hc)
        (by rw [putLow_eq, hlo])
    · exact port_counterWord (put := putHigh) ho hhigh had hold hn (fun _ _ => State.writeFrame_counterHigh idx.isLt hc)
        (by rw [putHigh_eq, hhi])
    · exact port_counterPair ho hf idx.isLt had hc hold hn
  · intro s v dt host frame idx view k c t hf hi ho hv had hk hc ht
    subst hv hk
    exact port_counterRead ho hf view.isLt hi idx.isLt had hc ht
end

section
/-! SUPPORT. SNAP_REQ at the port, and a block at which its answer is seen (R55, R435). -/

namespace Sys2Proof.Machine
variable {s : State} {dt : Nat} {host : HostId} {value : Word}

/-- A snapshot leaves the ordering point alone. -/
theorem State.takeSnapshot_hold (s : State) : s.takeSnapshot.front.hold = s.front.hold := by
  unfold State.takeSnapshot
  split
  · rfl
  · exact foldl_hold s.sampled.holdCounter (fun _ _ => rfl) _ s

theorem port_snapshot (ho : s.portOpen dt) (had : (s.portEdge dt).frameAdmits fBlock host true = true)
    (hv : bit value 0 = true) :
    exec (.snapReq dt host value) s = .next (s.left ((s.portEdge dt).takeSnapshot.answer .ok 0#64)) := by
  refine port_write_ok (f := fBlock) (o := 0x24) ho ⟨.inl (by decide), by decide, by decide, rfl⟩ had
    ((State.takeSnapshot_hold _).trans (State.portOpen_hold ho)) fun _ => ?_
  rw [State.writeFrame_block ⟨by decide, .inl (by decide)⟩, if_pos ⟨rfl, rfl, hv⟩]

/-- A block at READY at FCLK edge 4, the port's last response still that of reset, made at edge 0. -/
def atEdge4 : State :=
  { State.reset with
    startup := { Startup.reset with ready := true, inReset := false }
    clock.edge := 4
    clock.dp := 4 }

end Sys2Proof.Machine
end

section
open Sys2Proof Sys2Proof.Machine

/-- Refutes O12: the statement lets the answer to a SNAP_REQ write the response alone, but with the response the port notes its
edge, from which RS_VALID is reckoned (R435): at edge 4 that note is 4 and not the 0 that stood before. -/
theorem not_snapshotCopiesEveryCounter : ¬ Obligations.SnapshotCopiesEveryCounter := by
  intro h
  have hopen : atEdge4.portOpen 0 := by unfold State.portOpen; decide
  have hgate : (atEdge4.portEdge 0).frameAdmits fBlock 0#6 true = true := by decide
  obtain ⟨hsnap, _⟩ := h atEdge4 _ 0 0#6 1#32 hopen rfl hgate
  obtain ⟨t, ht, _, _, _, hfront, hrest⟩ := hsnap rfl (by decide) (by decide)
  have hraised : t.raised = [] := (congrArg State.raised hrest).trans (State.portEdge_raised ..)
  rw [port_snapshot hopen hgate rfl, State.left_of_raised_nil _ hraised] at ht
  have hleft : (atEdge4.left ((atEdge4.portEdge 0).takeSnapshot.answer .ok 0#64)).front.responseAt = t.front.responseAt :=
    congrArg (fun u => u.front.responseAt) (Host.Outcome.next.inj ht)
  have hkept : t.front.responseAt = (atEdge4.portEdge 0).front.responseAt :=
    (congrArg RegFront.responseAt hfront :)
  exact absurd (hleft.trans hkept) (by decide)
end

section
/-! SUPPORT. Reads that hold the ordering point: the fence and the store windows (R66, R69, R72, R140, R170). -/

namespace Sys2Proof.Machine
variable {s u v t : State} {dt : Nat} {host : HostId} {a : Access} {f view o : Nat}

/-- A read that holds the ordering point is not answered yet. -/
theorem State.perform_holds {p : Place} (hk : a.keeper = false) (hw : a.write = false) (hb : a.byte % 4 = 0)
    (hn : a.wide = true → a.byte % 8 = 0) (hp : placeOf a.byte = p) (hne : p ≠ .unmapped) (had : v.sampled.admits a = true)
    (hh : v.holdRead a = some t) : v.perform a = t := by
  unfold State.perform
  cases p <;> simp_all

/-! ### The fence (R69) -/

theorem joinWords_count (n : Nat) (high : Word) : joinWords (at32 0 n) high = high ++ BitVec.ofNat 32 n := by
  rw [joinWords, at32, Nat.shiftLeft_zero]

theorem joinWords_timeout {n : Nat} (hn : n ≤ 0xFFFF) (high : Word) :
    joinWords (flag32 31 true ||| at32 0 n) high = high ++ BitVec.ofNat 32 (0x80000000 + n) := by
  have hor : 0x80000000 + n = 0x80000000 ||| n := Nat.two_pow_add_eq_or_of_lt (i := 31) (by omega) 1
  rw [joinWords, hor, BitVec.ofNat_or, at32, Nat.shiftLeft_zero]
  rfl

/-- RCACHE_CTRL stands in the register table. -/
theorem State.readReg_rcacheCtrl {p : Nat} (hp : p < 16) : v.readReg (fPort p) 0x34 = v.reg (fPort p) 0x34 := by
  have hm : rwgMask (fPort p) 0x34 = none := by
    have hh : isHostFrame (fPort p) = false := by simp [isHostFrame, fPort]; omega
    have hc : isCoreFrame (fPort p) = false := by simp [isCoreFrame, fPort]; omega
    simp [rwgMask, hh, hc]
  have hi : (regInfo (fPort p) 0x34).isSome = true := by
    have hh : isHostFrame (fPort p) = false := by simp [isHostFrame, fPort]; omega
    have hc : isCoreFrame (fPort p) = false := by simp [isCoreFrame, fPort]; omega
    have h2 : ¬ fPort p < 2 := by simp only [fPort]; omega
    have h12 : fPort p < 0x12 := by simp only [fPort]; omega
    simp [regInfo, hh, hc, h2, h12, portRegs, rwl]
  have he : elsewhere (fPort p) 0x34 = false := by
    have hc : isCoreFrame (fPort p) = false := by simp [isCoreFrame, fPort]; omega
    have hf : fPort p ≠ fFuse := by simp only [fPort, fFuse]; omega
    simp [elsewhere, hc, hf]
  simp [State.readReg, hm, hi, he]

/-- A read of DB_FENCE, as the ordering point holds it. -/
theorem State.holdRead_fence {p : Nat} (hp : p < 16) (hplace : placeOf a.byte = .frame (fPort p) view 0x30) :
    v.holdRead a = some (v.heldWith (.fence a.host p (v.port p).nextId v.clock.dp
      (sat 0xFFFF ((v.sampled.port p).unsettled.filter fun x => decide (x.acc < v.clock.dp)).length)
      (if a.wide then v.sampled.reg (fPort p) 0x34 else 0#32))) := by
  have hrange : 2 ≤ fPort p ∧ fPort p < 0x12 := by simp only [fPort]; omega
  have hsub : fPort p - 2 = p := by simp only [fPort]; omega
  unfold State.holdRead
  rw [hplace]
  simp only [hrange, and_self, if_true, hsub, State.readReg_rcacheCtrl hp]
  rfl

theorem exec_dbFenceAnswer (hu : s.elapse dt = u) (hr : u.startup.inReset = false) (hf : u.frozen = false) :
    exec (.dbFenceAnswer dt) s = .next (s.left u.fenceAnswer) := by
  subst hu
  exact State.serviceBy_on (f := State.fenceAnswer) hr hf

theorem exec_dbFenceTimeout (hu : s.elapse dt = u) (hr : u.startup.inReset = false) (hf : u.frozen = false) :
    exec (.dbFenceTimeout dt) s = .next (s.left u.fenceTimeout) := by
  subst hu
  exact State.serviceBy_on (f := State.fenceTimeout) hr hf

section Fence
variable {h : HostId} {p bound since waited : Nat} {high : Word}

theorem State.fenceAnswer_settled (hh : u.front.hold = some (.fence h p bound since waited high))
    (hl : u.fenceLeft p bound since = false) :
    u.fenceAnswer = u.endHold.answer .ok (high ++ BitVec.ofNat 32 waited) := by
  simp [State.fenceAnswer, hh, hl, joinWords_count]

theorem State.fenceAnswer_waits (hh : u.front.hold = some (.fence h p bound since waited high))
    (hl : u.fenceLeft p bound since = true) : u.fenceAnswer = u := by
  simp [State.fenceAnswer, hh, hl]

theorem State.fenceTimeout_due (hh : u.front.hold = some (.fence h p bound since waited high)) (hw : waited ≤ 0xFFFF)
    (hl : u.fenceLeft p bound since = true) (hdue : since + 65536 ≤ u.clock.dp) :
    u.fenceTimeout = u.endHold.answer .ok (high ++ BitVec.ofNat 32 (0x80000000 + waited)) := by
  have hdue' : since + Config.timeout ≤ u.clock.dp := hdue
  simp only [State.fenceTimeout, hh, hl, hdue', and_self, if_true, joinWords_timeout hw]

end Fence

/-! ### The store windows (R72, R140, R149, R170) -/

theorem windowByte_mod {rights : Bool} {word : Nat} :
    windowByte rights word % 4 = 0 ∧ (word % 2 = 0 → windowByte rights word % 8 = 0) := by
  cases rights <;> simp only [windowByte, if_true, if_false, Bool.false_eq_true] <;> omega

theorem windowIndex_word (word : Nat) :
    windowIndex true (4 * word) = word / 4 ∧ windowIndex false (4 * word) = word / 2 := by
  simp only [windowIndex, if_true, if_false, Bool.false_eq_true]; omega

theorem State.admits_rightsWindow {word : Nat} (hp : placeOf a.byte = .window true (4 * word))
    (h : a.host = 0#6 ∨ rgHost (rgHalf (v.rightsEntry (word / 4)) false) = a.host.toNat) : v.admits a = true := by
  have hz : a.host = 0#6 → a.host.toNat = 0 := fun h => by rw [h]; rfl
  simp only [State.admits, hp, (windowIndex_word word).1, if_true, Bool.or_eq_true, decide_eq_true_eq]
  exact h.elim (fun h => .inl (.inr (hz h))) .inr

theorem State.admits_routeWindow {word : Nat} (hp : placeOf a.byte = .window false (4 * word))
    (h : a.host = 0#6 ∨ rtOwner (v.route (word / 2)) = a.host.toNat) : v.admits a = true := by
  have hz : a.host = 0#6 → a.host.toNat = 0 := fun h => by rw [h]; rfl
  simp only [State.admits, hp, (windowIndex_word word).2, if_false, Bool.false_eq_true, Bool.or_eq_true, decide_eq_true_eq]
  exact h.elim (fun h => .inl (.inr (hz h))) .inr

theorem State.holdRead_rightsWindow {word : Nat} (hp : placeOf a.byte = .window true (4 * word)) :
    v.holdRead a = some (v.heldWith (.window true (word / 4) (word % 4) a.wide)) := by
  have hw : 4 * word / 4 = word := by omega
  simp [State.holdRead, hp, (windowIndex_word word).1, hw, State.heldWith]

theorem State.holdRead_routeWindow {word : Nat} (hp : placeOf a.byte = .window false (4 * word)) :
    v.holdRead a =
      if word / 2 < 72 then none else some (v.heldWith (.window false (word / 2) (word % 2) a.wide)) := by
  have hw : 4 * word / 4 = word := by omega
  simp only [State.holdRead, hp, (windowIndex_word word).2, hw, Bool.not_false, true_and, State.heldWith, Bool.false_eq_true,
    if_false]

/-- A vault route is read from flops, at the access's own edge. -/
theorem State.perform_vaultRoute {word : Nat} (hk : a.keeper = false) (hw : a.write = false) (hb : a.byte % 4 = 0)
    (hn : a.wide = true → a.byte % 8 = 0) (hp : placeOf a.byte = .window false (4 * word)) (had : v.sampled.admits a = true)
    (h72 : word / 2 < 72) :
    v.perform a = v.answer .ok (entryData ((v.sampled.route (word / 2)).setWidth 128) (word % 2) a.wide) := by
  have hhold : v.holdRead a = none := by rw [State.holdRead_routeWindow hp, if_pos h72]
  have hword : 4 * word / 4 = word := by omega
  unfold State.perform
  simp_all [(windowIndex_word word).2]

theorem State.refuse_eq {p : Place} {byte reason : Nat} (hp : placeOf byte = p) :
    s.refuse a byte reason =
      { s := s.recordPage p.page reason (faultWord reason p.view p.offset (!a.write) a.host), code := .refused, data := 0#32 } := by
  subst hp; rfl

theorem State.answerPair_refused (hh : s.front.hold = none) (d : DWord) : s.answerPair .refused d = s.answer .refused 0#64 := by
  rw [State.answerPair, if_neg (by decide), State.answerUnlessHeld_none hh]

/-- A 32-bit write that its place's gate admits is its one half. -/
theorem State.perform_oneHalf {p : Place} (hr : v.startup.ready = true) (hk : a.keeper = false) (hw : a.write = true)
    (hn : a.wide = false) (hb : a.byte % 4 = 0) (hp : placeOf a.byte = p) (hne : p ≠ .unmapped)
    (had : v.sampled.admits a = true) : v.perform a = (v.half a a.byte (loWord a.data)).answer := by
  unfold State.perform
  cases p <;> simp_all

/-- Every half of a write to a window is refused. -/
theorem State.half_window {byte off : Nat} {rights : Bool} {w : Word} (hp : placeOf byte = .window rights off)
    (hw : a.write = true) : v.half a byte w = v.refuse a byte rsWindow := by
  simp [State.half, hp, hw]

theorem State.perform_windowNarrow {off : Nat} {rights : Bool} (hr : v.startup.ready = true) (hk : a.keeper = false)
    (hw : a.write = true) (hn : a.wide = false) (hb : a.byte % 4 = 0) (hp : placeOf a.byte = .window rights off)
    (hh : v.front.hold = none) : v.perform a = v.refusedAt fBlock rsWindow 0 (off % 4096) false a.host := by
  have had : v.sampled.admits a = true := by simp [State.admits, hp, hw]
  rw [State.perform_oneHalf hr hk hw hn hb hp (by simp) had, State.half_window hp hw, State.refuse_answer hp hh, hw]
  rfl

theorem State.perform_windowWide {off : Nat} {rights : Bool} (hr : v.startup.ready = true) (hk : a.keeper = false)
    (hw : a.write = true) (hn : a.wide = true) (hb : a.byte % 8 = 0) (hp : placeOf a.byte = .window rights off)
    (hp' : placeOf (a.byte + 4) = .window rights (off + 4)) (hoff : off % 8 = 0) (hh : v.front.hold = none) :
    v.perform a =
      (v.recordPage fBlock rsWindow (faultWord rsWindow 0 (off % 4096) false a.host)).refusedAt fBlock rsWindow 0
        (off % 4096 + 4) false a.host := by
  have had : v.sampled.admits a = true := by simp [State.admits, hp, hw]
  have hcnt : counterPair a.byte = false := by simp [counterPair, hp]
  have hguard : guardedAt a.byte = false ∧ guardedAt (a.byte + 4) = false := by simp [guardedAt, hp, hp']
  have hnext : (off + 4) % 4096 = off % 4096 + 4 := by omega
  have hlo := (State.half_window (v := v) (w := loWord a.data) hp hw).trans (State.refuse_eq hp)
  have hhi := (State.half_window (v := v.recordPage fBlock rsWindow (faultWord rsWindow 0 (off % 4096) (!a.write) a.host))
    (w := hiWord a.data) hp' hw).trans (State.refuse_eq hp')
  rw [State.perform_halves hr hk hw hn hb (by simp [hp]) had hcnt hguard.1 hguard.2 hlo hhi]
  simp only [Place.page, Place.view, Place.offset, Code.worse, hw, hnext, Bool.not_true]
  rw [State.answerPair_refused (by rw [State.recordPage_hold, State.recordPage_hold, hh])]
  rfl

theorem State.chargeMaint_routes {who m b : Nat} : (v.chargeMaint who m b).routes = v.routes := by
  unfold State.chargeMaint
  dsimp only
  split
  · exact State.count_routes ..
  · rfl

theorem State.chargeMaint_gate {who m b : Nat} : (v.chargeMaint who m b).gate = v.gate := by
  unfold State.chargeMaint
  dsimp only
  split
  · exact State.count_gate ..
  · rfl

theorem State.stored_of_stores {rights : Bool} {idx : Nat} (hroutes : u.routes = v.routes) (hgate : u.gate = v.gate) :
    u.stored rights idx = v.stored rights idx := by
  simp only [State.stored, State.rightsEntry, State.routeEntry, hroutes, hgate]

theorem State.hash_of_routes {rights : Bool} (hroutes : u.routes = v.routes) : u.hash rights = v.hash rights := by
  simp only [State.hash, hroutes]

/-- The read of a page gives it to a window read: the page's data are used unless the lead finds them bad (R390). -/
theorem State.windowAnswer_granted {rights wide : Bool} {idx w m b : Nat} {page : PageRead} {t : State} {r : PageResult × State}
    (hh : u.front.hold = some (.window rights idx w wide)) (hbank : u.windowBank = some (m, b)) (hwin : u.maintWins 2 m b = true)
    (ht : u.chargeMaint 2 m b = t)
    (hread : State.readPage { t with sluice.grants := ins none t.sluice.grants (bankArb rights b) (some t.clock.dp) } m
      ((u.hash rights).physical (pageOf rights idx)) 2 false page = r) :
    u.windowAnswer page =
      if r.1.usable && !r.1.leadError then r.2.endHold.answer .ok (entryData (u.stored rights idx) w wide)
      else r.2.endHold.answer .uncorrectable 0#64 := by
  subst ht
  rw [← State.hash_of_routes (v := u) (State.chargeMaint_routes (v := u) (who := 2) (m := m) (b := b))] at hread
  rw [← State.stored_of_stores (v := u) (State.chargeMaint_routes (v := u) (who := 2) (m := m) (b := b)) State.chargeMaint_gate,
    ← hread]
  unfold State.windowAnswer
  rw [hh, hbank]
  simp only [hwin, Bool.not_true, Bool.false_eq_true, if_false]
  rfl

/-! ### The fast-table entry (R109, R216, R229) -/

/-- A read of the entry that FT_SEL names, by a host that may read it. -/
theorem State.readFrame_fastEntry {byte i : Nat} {d : Word} (hi : bits (v.sampled.reg fFast 0x24) 11 0 = i)
    (hd : v.sampled.fast i = d) (h : a.host = 0#6 ∨ ftOwner d = a.host.toNat) :
    v.readFrame a byte fFast view 0x28 = ok (v.ftFix false i) d := by
  subst hi hd
  have hz : a.host = 0#6 → a.host.toNat = 0 := fun h => by rw [h]; rfl
  have hadmit : v.sampled.readAdmits fFast 0x28 a.host.toNat = true := by
    simp only [State.readAdmits, and_self, if_true, Bool.or_eq_true, decide_eq_true_eq]
    exact h.imp hz id
  have hpage : v.sampled.pageOfRead fFast 0x28 = none := rfl
  have hread : v.sampled.readReg fFast 0x28 = v.sampled.fast (bits (v.sampled.reg fFast 0x24) 11 0) := rfl
  have hc : isCoreFrame fFast = false := rfl
  unfold State.readFrame
  simp [hadmit, hpage, hread, hc, State.readHalf, PageResult.answers]

theorem State.readFrame_fastEntry_denied {byte : Nat} (h0 : a.host ≠ 0#6)
    (h : ftOwner (v.sampled.fast (bits (v.sampled.reg fFast 0x24) 11 0)) ≠ a.host.toNat) :
    v.readFrame a byte fFast view 0x28 = v.refuse a byte rsDenied := by
  have hz : a.host.toNat ≠ 0 := fun e => h0 (BitVec.eq_of_toNat_eq e)
  have hdeny : v.sampled.readAdmits fFast 0x28 a.host.toNat = false := by
    simp [State.readAdmits, hz, h]
  simp [State.readFrame, hdeny]

theorem State.ftFix_agreed {i : Nat} {sweep : Bool} (h : (v.ft i).odd = none ∨ i ∈ v.routes.ftBack) : v.ftFix sweep i = v := by
  unfold State.ftFix
  split
  · rfl
  · next hback =>
    rcases h with h | h
    · rw [h]
    · exact absurd (List.contains_iff_mem.mpr h) hback

/-- A copy that disagrees is counted, recorded and put up for its write-back. -/
theorem State.ftFix_odd {i copy : Nat} {w : State} (h : (v.ft i).odd = some copy) (hback : i ∉ v.routes.ftBack)
    (hw : v.event fFast 7 139 = w) : v.ftFix false i =
      { w with routes.ftVoteLast := 0x80000000#32 ||| at32 28 copy ||| at32 0 i,
               routes.ftBack := w.routes.ftBack ++ [i],
               twin.votes := (v.clock.edge :: v.twin.votes).filter fun e => decide (v.clock.edge ≤ e + 1024) } := by
  have hcontains : ¬ v.routes.ftBack.contains i = true := fun h => hback (List.contains_iff_mem.mp h)
  have hword : 0x80000000#32 ||| flag32 30 false ||| at32 28 copy ||| at32 26 0 ||| at32 12 0 ||| at32 0 i =
      0x80000000#32 ||| at32 28 copy ||| at32 0 i := by
    have h0 (lo : Nat) : at32 lo 0 = 0#32 := by simp [at32]
    simp [flag32, h0]
  subst hw
  unfold State.ftFix
  rw [if_neg hcontains, h]
  simp only [State.voteFixed, hword]

end Sys2Proof.Machine
end

section
/-! SUPPORT. The fence, the windows and the fast-table entry at the port (R66, R69, R72, R170, R229). -/

namespace Sys2Proof.Machine
variable {s : State} {dt : Nat} {host : HostId}

theorem port_fence {port : BitVec 4} {view : BitVec 2} {wide : Bool} (ho : s.portOpen dt)
    (had : (s.portEdge dt).frameAdmits (fPort port.toNat) host false = true) :
    exec (.dbFenceRead dt host port ⟨view, wide⟩) s = .next (s.left ((s.portEdge dt).heldWith
      (.fence host port.toNat ((s.portEdge dt).port port.toNat).nextId (s.portEdge dt).clock.dp
        (sat 0xFFFF (((s.portEdge dt).sampled.port port.toNat).unsettled.filter
          fun x => decide (x.acc < (s.portEdge dt).clock.dp)).length)
        (if wide then (s.portEdge dt).sampled.reg (fPort port.toNat) 0x34 else 0#32)))) := by
  have hf : fPort port.toNat < 0x28 := by have := port.isLt; simp only [fPort]; omega
  have hp : placeOf (byteAt (fPort port.toNat) view.toNat 0x30) = .frame (fPort port.toNat) view.toNat 0x30 :=
    placeOf_byteAt (.inl hf) view.isLt (by decide)
  have hb4 : byteAt (fPort port.toNat) view.toNat 0x30 % 4 = 0 := byteAt_mod (.inl rfl)
  have hb8 : byteAt (fPort port.toNat) view.toNat 0x30 % 8 = 0 := byteAt_mod (.inr rfl)
  have hhold := State.holdRead_fence (v := s.portEdge dt)
    (a := readFrom host (byteAt (fPort port.toNat) view.toNat 0x30) wide) port.isLt hp
  have hgate := (State.admits_of_frame (v := s.portEdge dt)
    (a := readFrom host (byteAt (fPort port.toNat) view.toNat 0x30) wide) hp).trans had
  exact (State.portAccess_open _ ho).trans (congrArg (fun t => Host.Outcome.next (s.left t))
    (State.perform_holds rfl rfl hb4 (fun _ => hb8) hp (by simp) hgate hhold))

variable {word : BitVec 18} {wide : Bool} {data : DWord}

theorem port_windowHeld {rights : Bool} {t : State} (ho : s.portOpen dt) (hw : wide = true → word.toNat % 2 = 0)
    (had : (s.portEdge dt).sampled.admits (readFrom host (windowByte rights word.toNat) wide) = true)
    (hhold : (s.portEdge dt).holdRead (readFrom host (windowByte rights word.toNat) wide) = some t) :
    exec (.windowRead dt host rights word wide) s = .next (s.left t) := by
  have hp := placeOf_windowByte rights word.isLt
  exact (State.portAccess_open _ ho).trans (congrArg (fun t => Host.Outcome.next (s.left t))
    (State.perform_holds rfl rfl windowByte_mod.1 (fun h => windowByte_mod.2 (hw h)) hp (by simp) had hhold))

theorem port_vaultRoute (ho : s.portOpen dt) (hw : wide = true → word.toNat % 2 = 0)
    (had : host = 0#6 ∨ rtOwner ((s.portEdge dt).sampled.route (word.toNat / 2)) = host.toNat) (h72 : word.toNat / 2 < 72) :
    exec (.windowRead dt host false word wide) s = .next (s.left ((s.portEdge dt).answer .ok
      (entryData (((s.portEdge dt).sampled.route (word.toNat / 2)).setWidth 128) (word.toNat % 2) wide))) := by
  have hp : placeOf (readFrom host (windowByte false word.toNat) wide).byte = _ := placeOf_windowByte false word.isLt
  exact (State.portAccess_open _ ho).trans (congrArg (fun t => Host.Outcome.next (s.left t))
    (State.perform_vaultRoute rfl rfl windowByte_mod.1 (fun h => windowByte_mod.2 (hw h)) hp
      (State.admits_routeWindow hp had) h72))

theorem port_windowWrite {rights : Bool} (ho : s.portOpen dt) :
    exec (.windowWrite dt host rights word false data) s =
      .next (s.left ((s.portEdge dt).refusedAt fBlock rsWindow 0 (4 * word.toNat % 4096) false host)) := by
  have hp : placeOf (writeTo host (windowByte rights word.toNat) false data).byte = _ := placeOf_windowByte rights word.isLt
  exact (State.portAccess_open _ ho).trans (congrArg (fun t => Host.Outcome.next (s.left t))
    (State.perform_windowNarrow (State.portOpen_ready ho) rfl rfl rfl windowByte_mod.1 hp (State.portOpen_hold ho)))

theorem port_windowWriteWide {rights : Bool} (ho : s.portOpen dt) (heven : word.toNat % 2 = 0) :
    exec (.windowWrite dt host rights word true data) s =
      .next (s.left (((s.portEdge dt).recordPage fBlock rsWindow
        (faultWord rsWindow 0 (4 * word.toNat % 4096) false host)).refusedAt fBlock rsWindow 0 (4 * word.toNat % 4096 + 4)
          false host)) := by
  have hlt := word.isLt
  have hp : placeOf (writeTo host (windowByte rights word.toNat) true data).byte = _ := placeOf_windowByte rights word.isLt
  have hnext : windowByte rights word.toNat + 4 = windowByte rights (word.toNat + 1) := by simp only [windowByte]; omega
  have hp' : placeOf ((writeTo host (windowByte rights word.toNat) true data).byte + 4) =
      .window rights (4 * word.toNat + 4) := by
    show placeOf (windowByte rights word.toNat + 4) = _
    rw [hnext, placeOf_windowByte rights (by omega)]
    rfl
  exact (State.portAccess_open _ ho).trans (congrArg (fun t => Host.Outcome.next (s.left t))
    (State.perform_windowWide (State.portOpen_ready ho) rfl rfl rfl (windowByte_mod.2 heven) hp hp' (by omega)
      (State.portOpen_hold ho)))

theorem exec_windowReadAnswer {u : State} {page : PageRead} (hu : s.elapse dt = u) (hr : u.startup.inReset = false)
    (hf : u.frozen = false) : exec (.windowReadAnswer dt page) s = .next (s.left (u.windowAnswer page)) := by
  subst hu
  exact State.serviceBy_on (f := fun s => s.windowAnswer page) hr hf

/-- A read of the entry that FT_SEL names is the one half of its frame. -/
theorem port_ftRead {view : BitVec 2} (ho : s.portOpen dt)
    (hgate : (s.portEdge dt).sampled.globalAdmits fFast host.toNat false = true) :
    exec (.ftRead dt host view) s = .next (s.left ((s.portEdge dt).readFrame
      (readFrom host (byteAt fFast view.toNat 0x28) false) (byteAt fFast view.toNat 0x28) fFast view.toNat 0x28).answer) := by
  have hp : placeOf (readFrom host (byteAt fFast view.toNat 0x28) false).byte = .frame fFast view.toNat 0x28 :=
    placeOf_byteAt (.inl (by decide)) view.isLt (by decide)
  have hb4 : byteAt fFast view.toNat 0x28 % 4 = 0 := byteAt_mod (.inl rfl)
  have had : (s.portEdge dt).frameAdmits fFast host false = true := (State.frameAdmits_global (by decide)).trans hgate
  exact (State.portAccess_open _ ho).trans (congrArg (fun t => Host.Outcome.next (s.left t))
    (State.perform_read hp rfl rfl rfl hb4 had (State.holdRead_frame hp (by decide))))

theorem State.ftFix_hold (v : State) (b : Bool) (i : Nat) : (v.ftFix b i).front.hold = v.front.hold :=
  (State.ftFix_front_clock v b i).1

end Sys2Proof.Machine
end

section
open Sys2Proof Sys2Proof.Machine

/-- Settles O13: the fence, the windows, and the fast-table entry. -/
theorem fencesAndStoreReadsWaitOrVote : Obligations.FencesAndStoreReadsWaitOrVote := by
  refine ⟨?_, ?_, ?_⟩
  · intro s u v dt host port view wide
    refine ⟨?_, fun h p bound since waited high hu hr hf hh hw => ⟨fun hl => ?_, fun hl => ?_, fun hl hdue => ?_⟩⟩
    · rintro ho rfl had
      exact port_fence ho had
    · rw [exec_dbFenceAnswer hu hr hf, State.fenceAnswer_settled hh hl]
    · rw [exec_dbFenceAnswer hu hr hf, State.fenceAnswer_waits hh hl]
    · rw [exec_dbFenceTimeout hu hr hf, State.fenceTimeout_due hh hw hl hdue]
  · intro s u v dt host word wide data page o
    refine ⟨?_, fun rights idx w wide m b t r hu hr hf hh hbank hwin ht hread => ?_⟩
    · rintro ho rfl hw rfl
      refine ⟨fun had => ?_, fun had h72 => ?_, fun had h72 => ?_, fun rights => ⟨?_, fun hwide => ?_⟩⟩
      · have hp : placeOf (readFrom host (windowByte true word.toNat) wide).byte = _ := placeOf_windowByte true word.isLt
        exact port_windowHeld ho hw (State.admits_rightsWindow hp had) (State.holdRead_rightsWindow hp)
      · have hp : placeOf (readFrom host (windowByte false word.toNat) wide).byte = _ := placeOf_windowByte false word.isLt
        refine port_windowHeld ho hw (State.admits_routeWindow hp had) ?_
        rw [State.holdRead_routeWindow hp, if_neg (by omega)]
        rfl
      · exact port_vaultRoute ho hw had h72
      · exact port_windowWrite ho
      · exact port_windowWriteWide ho (hw hwide)
    · rw [exec_windowReadAnswer hu hr hf, State.windowAnswer_granted hh hbank hwin ht hread]
      refine ⟨fun husable hlead => ?_, fun hbad => ?_⟩
      · rw [husable, hlead]
        rfl
      · have : (r.1.usable && !r.1.leadError) = false := by
          rcases hbad with h | h <;> simp [h]
        rw [this]
        rfl
  · intro s v dt host view i d ho hv hgate hi hd
    subst hv
    rw [port_ftRead ho hgate]
    refine ⟨fun hhost hagree => ?_, fun copy w hhost hodd hback hw => ?_, fun h0 howner => ?_⟩
    · rw [State.readFrame_fastEntry hi hd hhost, State.ftFix_agreed hagree, State.ok_answer (State.portOpen_hold ho)]
    · rw [State.readFrame_fastEntry hi hd hhost, State.ok_answer ((State.ftFix_hold ..).trans (State.portOpen_hold ho)),
        State.ftFix_odd hodd hback hw]
    · subst hi hd
      rw [State.readFrame_fastEntry_denied h0 howner,
        State.refuse_at (.inl (by decide)) view.isLt (by decide) (State.portOpen_hold ho)]
      rfl
end

section
/-! SUPPORT. A page read and a page update leave the clock and the groups alone (R386, R453). -/

namespace Sys2Proof.Machine

/-- What a page read leaves alone of what a group register's write goes on with. -/
def State.sameGroups (s t : State) : Prop := t.clock = s.clock ∧ t.sluice = s.sluice

theorem State.sameGroups.trans {s t u : State} (h : s.sameGroups t) (h' : t.sameGroups u) : s.sameGroups u :=
  ⟨h'.1.trans h.1, h'.2.trans h.2⟩

theorem State.sameGroups.refl (s : State) : s.sameGroups s := ⟨rfl, rfl⟩

theorem State.sameGroups.modWell (s : State) (b : Bool) (f : Well → Well) : s.sameGroups (s.modWell b f) :=
  ⟨State.modWell_clock .., State.modWell_sluice ..⟩

theorem State.sameGroups.count (s : State) (f i : Nat) : s.sameGroups (s.count f i) :=
  ⟨State.count_clock .., State.count_sluice ..⟩

theorem State.sameGroups.event (s : State) (f i fev : Nat) : s.sameGroups (s.event f i fev) :=
  ⟨State.event_clock .., State.event_sluice ..⟩

theorem State.sameGroups.ite {c : Prop} [Decidable c] {s t u : State} (ht : s.sameGroups t) (hu : s.sameGroups u) :
    s.sameGroups (if c then t else u) := by
  split
  · exact ht
  · exact hu

theorem State.sameGroups.countErr (s : State) (m p : Nat) (a b c : Bool) : s.sameGroups (s.countErr m p a b c) := by
  have heavy : s.sameGroups (if b then (s.count fIntegrity 3).event fIntegrity 4 152 else s.count fIntegrity 3) :=
    .ite ((State.sameGroups.count ..).trans (.event ..)) (.count ..)
  unfold State.countErr
  exact .ite heavy heavy

theorem State.sameGroups.keepErrs (s : State) (b : Bool) (m p : Nat) (v : Verdict) : s.sameGroups (s.keepErrs b m p v) := by
  unfold State.keepErrs
  split
  · exact .modWell ..
  · exact .refl _

theorem State.sameGroups.tallyErr (s : State) (m p : Nat) (b : Bool) (v : Verdict × Verdict) :
    s.sameGroups (s.tallyErr m p b v) := by
  unfold State.tallyErr
  exact ((State.sameGroups.ite (.countErr ..) (.refl _)).trans (.keepErrs ..)).trans (.keepErrs ..)

theorem State.sameGroups.poisonWells (s : State) (m p r : Nat) (v : Verdict × Verdict) : s.sameGroups (s.poisonWells m p r v) := by
  have lead : s.sameGroups (if isUncorr v.1 then s.poisonIn s.twin.leadB m p r else s) := .ite (.modWell ..) (.refl _)
  unfold State.poisonWells
  exact .ite (lead.trans (.modWell ..)) lead

theorem State.sameGroups.trigger (s : State) (c : Nat) : s.sameGroups (s.trigger c) := by
  unfold State.trigger
  repeat' split
  all_goals exact ⟨rfl, rfl⟩

theorem State.sameGroups.uncorrTrigger (s : State) (v : Verdict × Verdict) : s.sameGroups (s.uncorrTrigger v) :=
  .ite (.trigger ..) (.ite (.trigger ..) (.refl _))

theorem State.sameGroups.takeUncorr (s : State) (m p r : Nat) (b : Bool) (v : Verdict × Verdict) :
    s.sameGroups (s.takeUncorr m p r b v) := by
  have counted (t : State) : t.sameGroups (t.countPoison b) := (State.sameGroups.event ..).trans (.count ..)
  have rebuilt (t : State) (lost : Bool) : t.sameGroups (t.askRebuild m p lost) := .ite ⟨rfl, rfl⟩ (.refl _)
  unfold State.takeUncorr
  exact (((State.sameGroups.poisonWells ..).trans (.ite (counted _) (.refl _))).trans (.uncorrTrigger ..)).trans (rebuilt ..)

theorem State.sameGroups.readPage (s : State) (m p r : Nat) (b : Bool) (v : PageRead) :
    s.sameGroups (s.readPage m p r b v).2 := by
  unfold State.readPage
  split
  · exact .count ..
  · dsimp only
    split
    · exact .tallyErr ..
    · exact (State.sameGroups.tallyErr ..).trans (.takeUncorr ..)

theorem State.sameGroups.wroteWhole (s : State) (m p : Nat) : s.sameGroups (s.wroteWhole m p) := by
  have journalled (t : State) : t.sameGroups (t.pageWritten m p) := by
    unfold State.pageWritten
    dsimp only
    repeat' split
    all_goals exact ⟨rfl, rfl⟩
  exact ((State.sameGroups.modWell ..).trans (.modWell ..)).trans (journalled _)

/-- A page update leaves the clock and every group as it was. -/
theorem State.updatePage_group (s : State) (m unit p r g : Nat) :
    (s.updatePage m unit p r).clock = s.clock ∧ (s.updatePage m unit p r).group g = s.group g := by
  unfold State.updatePage
  split
  · exact ⟨rfl, rfl⟩
  · obtain ⟨hclock, hsluice⟩ := State.sameGroups.readPage s m p r false cleanRead
    obtain ⟨hclock', hsluice'⟩ := State.sameGroups.wroteWhole
      ((s.readPage m p r false cleanRead).2.askUnit m unit (s.readPage m p r false cleanRead).1.correction) m p
    refine ⟨hclock'.trans hclock, ?_⟩
    rw [State.group, hsluice']
    change look Group.reset (s.readPage m p r false cleanRead).2.sluice.groups g = _
    rw [hsluice, State.group]

end Sys2Proof.Machine
end

section
/-! SUPPORT. The registers of the spillway and of the groups (R46, R181, R190, R209, R253). -/

namespace Sys2Proof.Machine
variable {v : State} {a : Access} {byte f view o g : Nat} {w : Word}

theorem State.writeFrame_spillCtrl {x : State} (hl : v.locked fPump (some 1) = false)
    (hx : v.setReg fPump 0x34 (viewed view (v.reg fPump 0x34) w 0x9FF1FFFF#32) = x) :
    v.writeFrame a byte fPump view 0x34 w =
      ok { x with pump.spill.total := v.pump.spill.total - v.sampled.pump.spill.total,
                  pump.spill.dead := v.pump.spill.dead && !v.sampled.pump.spill.dead } 0#32 := by
  have hi : regInfo fPump 0x34 = some ⟨0x9FF1FFFF#32, 0#32, some 1, false⟩ := rfl
  have hstore (y : Word) : v.storeReg fPump 0x34 y = v.spillWritten y := by
    simp only [State.storeReg, fFast, fRoute, fPump, Nat.reduceEqDiff, false_and, and_self, if_false, if_true]
  subst hx
  rw [State.writeFrame_table (by decide), State.writeReg_stored hi (by simp) hl (by decide) (by decide), hstore]
  rfl

theorem State.writeFrame_spillConsumed {x : State}
    (hx : v.setReg fPump 0x38 (viewed view (v.reg fPump 0x38) w 0xFFFFFFFF#32) = x) :
    v.writeFrame a byte fPump view 0x38 w =
      ok (if 2 ^ x.spillLog < x.spillFill then
        (x.setReg fPump 0x38 (x.pump.spill.total - BitVec.ofNat 32 (2 ^ x.spillLog))).count fPump 12 else x) 0#32 := by
  have hi : regInfo fPump 0x38 = some ⟨0xFFFFFFFF#32, 0#32, none, false⟩ := rfl
  have hstore (y : Word) : v.storeReg fPump 0x38 y = v.spillConsumed y := by
    simp only [State.storeReg, fFast, fRoute, fPump, Nat.reduceEqDiff, false_and, and_false, and_self, if_false, if_true]
  subst hx
  rw [State.writeFrame_table (by decide), State.writeReg_stored hi (by simp) rfl (by decide) (by decide), hstore]
  rfl

/-! ### Groups -/

/-- The page and the offset of a group's registers. -/
theorem groupPlace_facts (hg : g < 1024) (hf : fGroup (g / 128) = f) :
    f < 0x28 ∧ fGroup 0 ≤ f ∧ f < fPump ∧ 128 * (f - 0x17) + g % 128 = g := by
  subst hf; simp only [fGroup, fPump]; omega

theorem State.writeFrame_groupReg (hf : fGroup 0 ≤ f ∧ f < fPump) (ho : 0x800 ≤ o) :
    v.writeFrame a byte f view o w = v.writeGroup a byte f view o w := by
  obtain ⟨hlo, hhi⟩ := hf
  have hg : isGuarded f o = false := isGuarded_global (by simp only [fPump] at hhi; omega)
  have hc : isCoreFrame f = false := by simp only [isCoreFrame, fPump] at hhi ⊢; simp; omega
  have h0 : f ≠ fBlock := by simp only [fGroup, fBlock] at hlo ⊢; omega
  have ht : ¬ (f = fTwin ∧ o = 0x38) := by omega
  have h10 : o ≠ 0x10 := by omega
  have h20 : ¬ o < 0x20 := by omega
  have hcnt : ¬ (0x400 ≤ o ∧ o < 0x600) := by omega
  have hheld : ¬ (0x600 ≤ o ∧ o < 0x800) := by omega
  simp only [State.writeFrame, hg, h10, h20, hcnt, hheld, hc, h0, ht, hlo, hhi, ho, decide_true, Bool.and_self, if_true,
    if_false, Bool.false_eq_true]

section Group
variable (hg : g < 1024) (hf : fGroup (g / 128) = f)
include hg hf

theorem State.writeFrame_grpCfg (hl : v.locked f (some 0) = false) :
    v.writeFrame a byte f view (0x800 + 16 * (g % 128)) w =
      ok ((v.updatePage 3 0 (g / 4) 2).setGrpCfg g (viewed view (v.grpCfg g) w 0x3FFF#32)) 0#32 := by
  obtain ⟨_, hlo, hhi, hnum⟩ := groupPlace_facts hg hf
  have hidx : (0x800 + 16 * (g % 128) - 0x800) / 16 = g % 128 := by omega
  have h16 : (0x800 + 16 * (g % 128)) % 16 = 0 := by omega
  rw [State.writeFrame_groupReg ⟨hlo, hhi⟩ (by omega)]
  simp only [State.writeGroup, hidx, hnum, h16, hl, if_true, if_false, Bool.false_eq_true]

theorem State.writeFrame_grpCfg_locked (hl : v.locked f (some 0) = true) :
    v.writeFrame a byte f view (0x800 + 16 * (g % 128)) w = v.refuse a byte rsLocked := by
  obtain ⟨_, hlo, hhi, _⟩ := groupPlace_facts hg hf
  have h16 : (0x800 + 16 * (g % 128)) % 16 = 0 := by omega
  rw [State.writeFrame_groupReg ⟨hlo, hhi⟩ (by omega)]
  simp only [State.writeGroup, h16, hl, if_true]

theorem State.writeFrame_grpHold (hl : v.locked f (some 1) = false) :
    v.writeFrame a byte f view (0x804 + 16 * (g % 128)) w =
      ok ((v.updatePage 3 0 (g / 4) 2).setGrpHold g (bits (viewed view (v.grpHold g) w 0xFFFF#32) 15 0)) 0#32 := by
  obtain ⟨_, hlo, hhi, hnum⟩ := groupPlace_facts hg hf
  have hidx : (0x804 + 16 * (g % 128) - 0x800) / 16 = g % 128 := by omega
  have h4 : (0x804 + 16 * (g % 128)) % 16 = 4 := by omega
  rw [State.writeFrame_groupReg ⟨hlo, hhi⟩ (by omega)]
  simp only [State.writeGroup, hidx, hnum, h4, hl, Nat.reduceEqDiff, if_true, if_false, Bool.false_eq_true]

theorem State.writeFrame_grpHold_locked (hl : v.locked f (some 1) = true) :
    v.writeFrame a byte f view (0x804 + 16 * (g % 128)) w = v.refuse a byte rsLocked := by
  obtain ⟨_, hlo, hhi, _⟩ := groupPlace_facts hg hf
  have h4 : (0x804 + 16 * (g % 128)) % 16 = 4 := by omega
  rw [State.writeFrame_groupReg ⟨hlo, hhi⟩ (by omega)]
  simp only [State.writeGroup, h4, hl, Nat.reduceEqDiff, if_true, if_false]

end Group

theorem State.modGroup_congr {F G : Group → Group} (h : F (v.group g) = G (v.group g)) : v.modGroup g F = v.modGroup g G := by
  rw [State.modGroup, h, State.modGroup]

theorem State.setGrpCfg_weighted (h : bits w 7 0 ≠ 0) :
    v.setGrpCfg g w = v.modGroup g fun x => { x with weight := w.setWidth 8, owner := BitVec.ofNat 6 (bits w 13 8) } :=
  State.modGroup_congr (if_neg h)

/-- A weight of 0 clears the group's live state. -/
theorem State.setGrpCfg_zero (h : bits w 7 0 = 0) :
    v.setGrpCfg g w = v.modGroup g fun x =>
      { x with weight := 0#8, owner := BitVec.ofNat 6 (bits w 13 8), credit := 0, age := 0, wait := 0, snap := none } := by
  have hw : w.setWidth 8 = 0#8 := by
    refine BitVec.eq_of_toNat_eq ?_
    simpa [bits] using h
  refine State.modGroup_congr ((if_pos h).trans ?_)
  rw [hw]

theorem State.setGrpHold_free {n : Nat} (h : (v.group g).heldAt v.clock.dp = false) :
    v.setGrpHold g n = v.modGroup g fun x => { x with interval := BitVec.ofNat 16 n } := by
  have h' : ¬ ((v.group g).holdFrom < v.clock.dp ∧ v.clock.dp < (v.group g).holdEnd) := by
    simpa [Group.heldAt] using h
  unfold State.setGrpHold
  refine State.modGroup_congr ?_
  simp only [h', if_false]

/-- A running hold ends no later than the new interval from this edge. -/
theorem State.setGrpHold_held {n : Nat} (h : (v.group g).heldAt v.clock.dp = true) :
    v.setGrpHold g n = v.modGroup g fun x =>
      { x with interval := BitVec.ofNat 16 n, holdEnd := min x.holdEnd (v.clock.dp + 64 * n) } := by
  have h' : (v.group g).holdFrom < v.clock.dp ∧ v.clock.dp < (v.group g).holdEnd := by
    simpa [Group.heldAt] using h
  unfold State.setGrpHold
  refine State.modGroup_congr ?_
  simp only [h', and_self, if_true]

end Sys2Proof.Machine
end

section
open Sys2Proof Sys2Proof.Machine

/-- Settles O19: the spillway's two registers, then a group's two. -/
theorem pumpAndGroupRegistersActOnTheirUnits : Obligations.PumpAndGroupRegistersActOnTheirUnits := by
  refine ⟨?_, ?_⟩
  · intro s v w dt host view value ho hv hgate
    subst hv
    have had : (s.portEdge dt).frameAdmits fPump host true = true := (State.frameAdmits_global (by decide)).trans hgate
    have hctrl : isRegisterPlace fPump view.toNat 0x34 := ⟨.inl (by decide), view.isLt, by decide, rfl⟩
    have hcons : isRegisterPlace fPump view.toNat 0x38 := ⟨.inl (by decide), view.isLt, by decide, rfl⟩
    refine ⟨fun hl hw => ?_, fun hl => ?_, fun hw => ⟨fun hfill => ?_, fun hfill => ?_⟩⟩
    · refine port_write_ok ho hctrl had ?_ fun _ => State.writeFrame_spillCtrl hl hw
      rw [← hw]
      exact State.portOpen_hold ho
    · exact port_write_refused ho hctrl had (State.portOpen_hold ho) fun _ => (State.writeFrame_table (by decide)).trans
        (State.writeReg_locked (i := ⟨0x9FF1FFFF#32, 0#32, some 1, false⟩) rfl (by simp) hl)
    · have hold : w.front.hold = none := by rw [← hw]; exact State.portOpen_hold ho
      exact port_write_ok ho hcons had hold fun _ => (State.writeFrame_spillConsumed hw).trans (by rw [if_neg (by omega)])
    · have hold : w.front.hold = none := by rw [← hw]; exact State.portOpen_hold ho
      exact port_write_ok ho hcons had ((State.count_hold ..).trans hold) fun _ =>
        (State.writeFrame_spillConsumed hw).trans (by rw [if_pos hfill])
  · intro s v dt host group view value g f hgroup hf ho hv hgate
    subst hv
    have hg : g < 1024 := hgroup ▸ group.isLt
    obtain ⟨hglobal, _, _, _⟩ := groupPlace_facts hg hf
    have had : (s.portEdge dt).frameAdmits f host true = true := (State.frameAdmits_global hglobal).trans hgate
    have hpcfg : isRegisterPlace f view.toNat (0x800 + 16 * (g % 128)) := ⟨.inl hglobal, view.isLt, by omega, by omega⟩
    have hphold : isRegisterPlace f view.toNat (0x804 + 16 * (g % 128)) := ⟨.inl hglobal, view.isLt, by omega, by omega⟩
    have hcfg : exec (.grpCfgWrite dt host group view value) s =
        s.portAccess dt (writeTo host (byteAt f view.toNat (0x800 + 16 * (g % 128))) false (narrow value)) := by
      subst hgroup hf; rfl
    have hhold : exec (.grpHoldWrite dt host group view value) s =
        s.portAccess dt (writeTo host (byteAt f view.toNat (0x804 + 16 * (g % 128))) false (narrow value)) := by
      have : 0x804 + 16 * (g % 128) = 0x800 + 16 * (g % 128) + 4 := by omega
      rw [this]
      subst hgroup hf; rfl
    have hfree : ((s.portEdge dt).updatePage 3 0 (g / 4) 2).front.hold = none :=
      (State.updatePage_hold ..).trans (State.portOpen_hold ho)
    obtain ⟨hclock, hsame⟩ := State.updatePage_group (s.portEdge dt) 3 0 (g / 4) 2 g
    rw [hcfg, hhold]
    refine ⟨fun w hl hw => ⟨fun h => ?_, fun h => ?_⟩, fun hl => ?_, fun n hl hn => ⟨fun h => ?_, fun h => ?_⟩, fun hl => ?_⟩
    · refine port_write_ok ho hpcfg had ?_ fun _ => (State.writeFrame_grpCfg hg hf hl).trans (by
        rw [hw, State.setGrpCfg_weighted h])
      exact hfree
    · refine port_write_ok ho hpcfg had ?_ fun _ => (State.writeFrame_grpCfg hg hf hl).trans (by
        rw [hw, State.setGrpCfg_zero h])
      exact hfree
    · exact port_write_refused ho hpcfg had (State.portOpen_hold ho) fun _ => State.writeFrame_grpCfg_locked hg hf hl
    · rw [← hsame, ← hclock] at h
      refine port_write_ok ho hphold had ?_ fun _ => (State.writeFrame_grpHold hg hf hl).trans (by
        rw [hn, State.setGrpHold_free h])
      exact hfree
    · rw [← hsame, ← hclock] at h
      rw [← hclock]
      refine port_write_ok ho hphold had ?_ fun _ => (State.writeFrame_grpHold hg hf hl).trans (by
        rw [hn, State.setGrpHold_held h])
      exact hfree
    · exact port_write_refused ho hphold had (State.portOpen_hold ho) fun _ => State.writeFrame_grpHold_locked hg hf hl
end

section
/-! SUPPORT. A page written whole, as a change of the twin alone (R361, R373, R388, R393). -/

namespace Sys2Proof.Machine

/-- A well whose copy of a page is written with clean check bits. -/
def Well.cleanPage (w : Well) (k : Nat) : Well := { w with errs := ins 0 w.errs k 0 }

/-- The twin after a page is written whole: both copies clean, the write noted in the journal, and, from the start frame of
a re-pair attempt until its join, put on the link. -/
def Twin.wholePage (w : Twin) (k edge : Nat) : Twin :=
  { w with
    wellA := w.wellA.cleanPage k, wellB := w.wellB.cleanPage k, pageJournal := (k :: w.pageJournal).take 4096,
    repair := w.repair.map fun r =>
      if r.phase = 3 ∨ r.phase = 4 then
        { r with flying := r.flying ++ [(k, edge + 4, look false (if w.leadB then w.wellB else w.wellA).poison k)] }
      else r }

theorem State.wroteWhole_eq (s : State) (m p : Nat) :
    s.wroteWhole m p = { s with twin := s.twin.wholePage (pageKey m p) s.clock.edge } := by
  unfold State.wroteWhole Twin.wholePage
  cases hr : s.twin.repair with
  | none => simp [State.pageWritten, State.modWell, State.setWell, State.well, hr, Well.cleanPage]
  | some r =>
    by_cases hp : r.phase = 3 ∨ r.phase = 4
    · cases hl : s.twin.leadB <;>
        simp [State.pageWritten, State.modWell, State.setWell, State.well, hr, hp, hl, State.poisoned, State.lead, Well.cleanPage]
    · simp [State.pageWritten, State.modWell, State.setWell, State.well, hr, hp, Well.cleanPage]

theorem Well.cleanPage_of_sound {w : Well} {k : Nat} (h : w.errs = []) : w.cleanPage k = w := by
  rw [Well.cleanPage, h, show ins 0 ([] : Tbl Nat) k 0 = w.errs from h.symm]

/-- Sound pages stay sound where one is written whole. -/
theorem State.pagesSound.wroteWhole {s : State} {m p : Nat} (h : s.pagesSound) : (s.wroteWhole m p).pagesSound := by
  obtain ⟨hpoison, ha, hb⟩ := h
  rw [State.wroteWhole_eq]
  refine ⟨?_, ?_, ?_⟩
  · have hlead : (State.lead { s with twin := s.twin.wholePage (pageKey m p) s.clock.edge }) = s.lead := by
      simp only [State.lead, State.well, Twin.wholePage]
      rw [Well.cleanPage_of_sound (w := s.twin.wellA) ha, Well.cleanPage_of_sound (w := s.twin.wellB) hb]
      rfl
    rw [hlead, hpoison]
  · exact (congrArg Well.errs (Well.cleanPage_of_sound (w := s.twin.wellA) ha)).trans ha
  · exact (congrArg Well.errs (Well.cleanPage_of_sound (w := s.twin.wellB) hb)).trans hb

/-- What a mailbox page's write back leaves, after the unit has asked for the mailbox memory (R453). -/
def State.boxPageWritten (s : State) (c p : Nat) : State := (s.askUnit 6 0 c).wroteWhole 6 p

theorem State.boxPageWritten_eq (s : State) (c p : Nat) :
    s.boxPageWritten c p = { s.askUnit 6 0 c with twin := (s.wroteWhole 6 p).twin } := by
  rw [State.boxPageWritten, State.wroteWhole_eq, State.wroteWhole_eq]
  rfl

end Sys2Proof.Machine
end

section
/-! SUPPORT. The bytes of a mailbox: a word read after a word is written. -/

namespace Sys2Proof.Machine
variable {m : Mailbox} {w : Word} {o o' : Nat}

/-- The bytes of a mailbox once a word is written, one by one. -/
theorem Mailbox.setWord_bytes (m : Mailbox) (o : Nat) (w : Word) :
    (m.setWord o w).bytes = ins 0#8 (ins 0#8 (ins 0#8 (ins 0#8 m.bytes (o + 0) (BitVec.ofNat 8 (w.toNat / 256 ^ 0)))
      (o + 1) (BitVec.ofNat 8 (w.toNat / 256 ^ 1))) (o + 2) (BitVec.ofNat 8 (w.toNat / 256 ^ 2)))
      (o + 3) (BitVec.ofNat 8 (w.toNat / 256 ^ 3)) := rfl

theorem Mailbox.setWord_byte_other {j : Nat} (h : j < o ∨ o + 4 ≤ j) :
    look 0#8 (m.setWord o w).bytes j = look 0#8 m.bytes j := by
  rw [Mailbox.setWord_bytes, look_ins_other _ _ (by omega), look_ins_other _ _ (by omega), look_ins_other _ _ (by omega),
    look_ins_other _ _ (by omega)]

theorem Mailbox.setWord_word_other (h : o' + 4 ≤ o ∨ o + 4 ≤ o') : (m.setWord o w).word o' = m.word o' := by
  have hbytes : (List.range 4).map (fun i => look 0#8 (m.setWord o w).bytes (o' + i)) =
      (List.range 4).map fun i => look 0#8 m.bytes (o' + i) := by
    refine List.map_congr_left fun i hi => ?_
    rw [List.mem_range] at hi
    exact Mailbox.setWord_byte_other (by omega)
  rw [Mailbox.word, Mailbox.word, hbytes]

/-- A byte of the word written. -/
theorem Mailbox.setWord_byte_same {i : Nat} (h : rising 0 m.bytes = true) (hi : i < 4) :
    look 0#8 (m.setWord o w).bytes (o + i) = BitVec.ofNat 8 (w.toNat / 256 ^ i) := by
  have rise {t : Tbl Byte} (ht : rising 0 t = true) (k : Nat) (b : Byte) : rising 0 (ins 0#8 t k b) = true :=
    rising_ins _ ht (Nat.zero_le _) _
  have h0 := rise h (o + 0) (BitVec.ofNat 8 (w.toNat / 256 ^ 0))
  have h1 := rise h0 (o + 1) (BitVec.ofNat 8 (w.toNat / 256 ^ 1))
  have h2 := rise h1 (o + 2) (BitVec.ofNat 8 (w.toNat / 256 ^ 2))
  rw [Mailbox.setWord_bytes]
  match i, hi with
  | 0, _ => rw [look_ins_other _ _ (by omega), look_ins_other _ _ (by omega), look_ins_other _ _ (by omega), look_ins_same _ h]
  | 1, _ => rw [look_ins_other _ _ (by omega), look_ins_other _ _ (by omega), look_ins_same _ h0]
  | 2, _ => rw [look_ins_other _ _ (by omega), look_ins_same _ h1]
  | 3, _ => rw [look_ins_same _ h2]

/-- The four bytes of a word spell it. -/
theorem ofLe_word (w : Word) :
    BitVec.ofNat 32 (ofLe ((List.range 4).map fun i => BitVec.ofNat 8 (w.toNat / 256 ^ i))) = w := by
  refine BitVec.eq_of_toNat_eq ?_
  have hw := w.isLt
  have hlist : List.range 4 = [0, 1, 2, 3] := rfl
  simp only [hlist, List.map_cons, List.map_nil, ofLe, BitVec.toNat_ofNat]
  omega

theorem Mailbox.setWord_word_same (h : rising 0 m.bytes = true) : (m.setWord o w).word o = w := by
  have hbytes : (List.range 4).map (fun i => look 0#8 (m.setWord o w).bytes (o + i)) =
      (List.range 4).map fun i => BitVec.ofNat 8 (w.toNat / 256 ^ i) := by
    refine List.map_congr_left fun i hi => ?_
    exact Mailbox.setWord_byte_same h (List.mem_range.mp hi)
  rw [Mailbox.word, hbytes, ofLe_word]

end Sys2Proof.Machine
end

section
/-! SUPPORT. A half of a write to a mailbox window, by the mailbox's state (R71, R289, R390). -/

namespace Sys2Proof.Machine
variable {v : State} {a : Access} {byte n o : Nat} {w : Word}

theorem State.writeBox_beyond (ho : 0x1000 ≤ o) : v.writeBox a byte n o w = ok v 0#32 := if_pos ho

theorem State.writeBox_busy (ho : o < 0x1000) (hst : (v.sampled.box n).st = .queued ∨ (v.sampled.box n).st = .running) :
    v.writeBox a byte n o w = ok (v.count fKeeper 8) 0#32 := by
  unfold State.writeBox
  rw [if_neg (by omega)]
  rcases hst with hst | hst <;> rw [hst]

/-- A write to an IDLE or DONE mailbox is a read-modify-write of its page. -/
theorem State.writeBox_free (ho : o < 0x1000) (hst : (v.sampled.box n).st = .idle ∨ (v.sampled.box n).st = .done)
    {r : PageResult × State} (hr : v.readPage 6 (boxPage n o) 2 false (if o = 4 then cleanRead else a.page) = r)
    {t : State} (ht : r.2.boxPageWritten r.1.correction (boxPage n o) = t) :
    v.writeBox a byte n o w =
      if !r.1.usable then r.2.refuse a byte rsUncorr
      else if o = 4 then ok (t.submit n w (t.presenceSeen a.presence a.presenceAt) a.page) 0#32
      else ok (t.setBox n ((t.box n).setWord o w)) 0#32 := by
  subst hr ht
  unfold State.writeBox
  rw [if_neg (by omega)]
  rcases hst with hst | hst <;> rw [hst] <;> rfl

section Plain
variable {r : PageResult × State} (ho : o < 0x1000) (hst : (v.sampled.box n).st = .idle ∨ (v.sampled.box n).st = .done)
  (h4 : o ≠ 4) (hr : v.readPage 6 (boxPage n o) 2 false a.page = r)
include ho hst h4 hr

theorem State.writeBox_usable {t : State} (hu : r.1.usable = true) (ht : r.2.boxPageWritten r.1.correction (boxPage n o) = t) :
    v.writeBox a byte n o w = ok (t.setBox n ((t.box n).setWord o w)) 0#32 := by
  rw [State.writeBox_free ho hst (by rw [if_neg h4, hr]) ht, hu, if_neg (by decide), if_neg h4]

theorem State.writeBox_unusable (hu : r.1.usable = false) : v.writeBox a byte n o w = r.2.refuse a byte rsUncorr := by
  rw [State.writeBox_free ho hst (by rw [if_neg h4, hr]) rfl, hu, if_pos (by decide)]

end Plain

theorem State.writeBox_poisoned (ho : o < 0x1000) (hst : (v.sampled.box n).st = .idle ∨ (v.sampled.box n).st = .done)
    (hp : v.poisoned 6 (boxPage n o) = true) :
    v.writeBox a byte n o w = (v.count fIntegrity 8).refuse a byte rsUncorr := by
  rw [State.writeBox_free ho hst (if_pos hp) rfl]
  rfl

end Sys2Proof.Machine
end

section
/-! SUPPORT. A command submitted through sound pages (R289, R290). -/

namespace Sys2Proof.Machine
variable {v : State} {n : Nat} {w : Word} {p : Bool}

theorem State.readBoxPage_clean {c r : Nat} (h : v.pagesSound) : v.readPage 6 c r false cleanRead = (⟨true, false, 0⟩, v) :=
  State.readPage_clean h (State.epochBad_other (by omega))

/-- The sampling of sound pages finds them all usable and changes nothing. -/
theorem State.samplePages_clean {last : Nat} (h : v.pagesSound) : v.samplePages n cleanRead last = (true, v) := by
  unfold State.samplePages
  induction List.range (last + 1) with
  | nil => rfl
  | cons i l ih => rw [List.foldl_cons, ite_self, State.readBoxPage_clean h]; exact ih

/-- The mailbox of a submitted command. -/
def Mailbox.submitted (m : Mailbox) (c : Cmd) : Mailbox := { m with st := .queued, opcode := c.opcode, seq := c.seq }

/-- The state as a command is sampled from it: its last word written, PRESENCE as seen. -/
def State.sampling (v : State) (n : Nat) (w : Word) (p : Bool) : State :=
  { v.setBox n ((v.box n).setWord 4 w) with levels.presence := p }

/-- The state once the command sampled from it waits for the keeper. -/
def State.queued (v : State) (n : Nat) (c : Cmd) : State :=
  { v.setBox n ((v.box n).submitted c) with keeper.submitted := ins none v.keeper.submitted n (some c) }

theorem State.submit_clean (h : v.pagesSound) (hheld : v.keeper.held = false)
    (hop : ((v.sampling n w p).sample n p false).opcode ≠ 0x61#8) :
    v.submit n w p cleanRead = (v.sampling n w p).queued n ((v.sampling n w p).sample n p false) := by
  have hsound : (v.setBox n ((v.box n).setWord 4 w)).pagesSound := h
  unfold State.submit
  dsimp only
  rw [State.samplePages_clean hsound]
  have hfree : ¬ (v.sampling n w p).keeper.held = true := by rw [show (v.sampling n w p).keeper.held = v.keeper.held from rfl, hheld]; decide
  exact (if_neg hfree).trans (if_neg hop)

end Sys2Proof.Machine
end

section
/-! SUPPORT. Mailbox writes and submits at the port (R71, R289, R290, R453). -/

namespace Sys2Proof.Machine
variable {s u v : State} {dt byte n o : Nat} {a : Access} {w : Word} {p : Bool} {m : Mailbox} {c : Cmd}

theorem boxByte_mod {mb word : Nat} : boxByte mb word % 4 = 0 := by simp only [boxByte]; omega

theorem boxByte_pair {mb : Nat} : boxByte mb 0 % 8 = 0 ∧ boxByte mb 0 + 4 = boxByte mb 1 := by
  refine ⟨?_, rfl⟩
  simp only [boxByte]
  omega

theorem State.admits_box (hp : placeOf a.byte = .mailbox n o) : v.admits a = decide (a.host.toNat = n) := by
  simp [State.admits, hp]

theorem State.half_box (hp : placeOf byte = .mailbox n o) (hw : a.write = true) :
    v.half a byte w = v.writeBox a byte n o w := by
  simp [State.half, hp, hw]

section Write
variable {host : HostId} {mb : BitVec 6} {word : BitVec 12} {data : DWord}

/-- A write by the mailbox's own host is its one half. -/
theorem port_mailboxWrite (ho : s.portOpen dt) :
    exec (.mailboxWrite dt mb mb word false data) s =
      .next (s.left ((s.portEdge dt).writeBox (writeTo mb (boxByte mb.toNat word.toNat) false data)
        (boxByte mb.toNat word.toNat) mb.toNat (4 * word.toNat) (loWord data)).answer) := by
  have hp : placeOf (writeTo mb (boxByte mb.toNat word.toNat) false data).byte = _ := placeOf_boxByte mb.isLt word.isLt
  have had : (s.portEdge dt).sampled.admits (writeTo mb (boxByte mb.toNat word.toNat) false data) = true := by
    rw [State.admits_box hp]; exact decide_eq_true rfl
  refine (State.portAccess_open _ ho).trans (congrArg (fun t => Host.Outcome.next (s.left t)) ?_)
  rw [State.perform_oneHalf (State.portOpen_ready ho) rfl rfl rfl boxByte_mod hp (by simp) had, State.half_box hp rfl]
  rfl

theorem port_mailboxWrite_denied (ho : s.portOpen dt) (hne : host ≠ mb) :
    exec (.mailboxWrite dt host mb word false data) s =
      .next (s.left ((s.portEdge dt).refusedAt fBlock rsDenied 0 (4 * word.toNat % 4096) false host)) := by
  have hp : placeOf (writeTo host (boxByte mb.toNat word.toNat) false data).byte = _ := placeOf_boxByte mb.isLt word.isLt
  have hne' : host.toNat ≠ mb.toNat := fun h => hne (BitVec.eq_of_toNat_eq h)
  have had : (s.portEdge dt).sampled.admits (writeTo host (boxByte mb.toNat word.toNat) false data) = false := by
    rw [State.admits_box hp]; exact decide_eq_false hne'
  have hdenied := State.perform_denied (State.portOpen_ready ho) rfl boxByte_mod (fun h => absurd h Bool.false_ne_true) hp
    (by simp) had (State.portOpen_hold ho)
  exact (State.portAccess_open _ ho).trans (congrArg (fun t => Host.Outcome.next (s.left t)) hdenied)

theorem port_mailboxWrite_ok {t : State} (ho : s.portOpen dt) (ht : t.front.hold = none)
    (hw : (s.portEdge dt).writeBox (writeTo mb (boxByte mb.toNat word.toNat) false data) (boxByte mb.toNat word.toNat)
      mb.toNat (4 * word.toNat) (loWord data) = ok t 0#32) :
    exec (.mailboxWrite dt mb mb word false data) s = .next (s.left (t.answer .ok 0#64)) := by
  rw [port_mailboxWrite ho, hw, State.ok_zero_answer ht]

theorem port_mailboxWrite_refused {t : State} {reason : Nat} (ho : s.portOpen dt) (ht : t.front.hold = none)
    (hw : (s.portEdge dt).writeBox (writeTo mb (boxByte mb.toNat word.toNat) false data) (boxByte mb.toNat word.toNat)
      mb.toNat (4 * word.toNat) (loWord data) =
        t.refuse (writeTo mb (boxByte mb.toNat word.toNat) false data) (boxByte mb.toNat word.toNat) reason) :
    exec (.mailboxWrite dt mb mb word false data) s =
      .next (s.left (t.refusedAt fBlock reason 0 (4 * word.toNat % 4096) false mb)) := by
  rw [port_mailboxWrite ho, hw, State.refuse_answer (placeOf_boxByte mb.isLt word.isLt) ht]
  rfl

end Write

/-! ### The submitted command -/

theorem State.setBox_box (h : rising 0 v.keeper.boxes = true) : (v.setBox n m).box n = m := look_ins_same _ h _ _

theorem State.setBox_box_other {k : Nat} (h : k ≠ n) : (v.setBox n m).box k = v.box k := look_ins_other _ _ h

theorem State.setBox_rising (h : rising 0 v.keeper.boxes = true) : rising 0 (v.setBox n m).keeper.boxes = true :=
  rising_ins _ h (Nat.zero_le _) _

theorem State.sampling_box (h : rising 0 v.keeper.boxes = true) : (v.sampling n w p).box n = (v.box n).setWord 4 w :=
  State.setBox_box h

/-- A command is sampled from the mailbox as its submitting write leaves it. -/
theorem State.sample_of_box {x : Bool} (h : v.box n = m) : v.sample n p x =
    { host := n, opcode := (m.word 0).setWidth 8, flags := (m.word 0 >>> 8).setWidth 8, len := bits (m.word 0) 31 16,
      seq := (m.word 4).setWidth 16, top := (m.word 4 >>> 24).setWidth 8,
      payload := (List.range (min (bits (m.word 0) 31 16) 4088)).map fun i => look 0#8 m.bytes (8 + i),
      stagedAt := v.keeper.staged.map fun c => c.stageId.toNat, presence := p, factoryClean := v.factoryClean,
      unreadable := x } := by
  subst h; rfl

theorem Mailbox.setWord_payload {k : Nat} : ((List.range k).map fun i => look 0#8 (m.setWord 4 w).bytes (8 + i)) =
    (List.range k).map fun i => look 0#8 m.bytes (8 + i) :=
  List.map_congr_left fun i _ => Mailbox.setWord_byte_other (by omega)

theorem State.queued_box (h : rising 0 v.keeper.boxes = true) : (v.queued n c).box n = (v.box n).submitted c :=
  State.setBox_box h

theorem State.queued_submitted (h : rising 0 v.keeper.submitted = true) :
    look none (v.queued n c).keeper.submitted n = some c := look_ins_same _ h _ _

/-- A submit leaves every other mailbox and its command as they were. -/
theorem State.submitted_other {k : Nat} (h : k ≠ n) :
    ((v.sampling n w p).queued n c).box k = v.box k ∧
      look none ((v.sampling n w p).queued n c).keeper.submitted k = look none v.keeper.submitted k :=
  ⟨(State.setBox_box_other (v := v.sampling n w p) h).trans (State.setBox_box_other (v := v) h), look_ins_other _ _ h⟩

/-- What the lower word of a submitting write leaves: a 64-bit write writes word 0 first. -/
def State.lowWritten (v : State) (n : Nat) (wide : Bool) (w : Word) : State :=
  if wide then (v.boxPageWritten 0 (boxPage n 0)).setBox n ((v.box n).setWord 0 w) else v

end Sys2Proof.Machine
end

section
/-! SUPPORT. A submitting write, half by half (R290, R453). -/

namespace Sys2Proof.Machine
variable {s v : State} {dt n : Nat} {a : Access} {w : Word} {p wide : Bool} {m : Mailbox}

theorem State.lowWritten_eq (v : State) (n : Nat) (wide : Bool) (w : Word) : v.lowWritten n wide w =
    { v with keeper.boxes := (v.lowWritten n wide w).keeper.boxes, sluice.units := (v.lowWritten n wide w).sluice.units,
             twin := (if wide then v.wroteWhole 6 (boxPage n 0) else v).twin } := by
  cases wide
  · rfl
  · simp only [State.lowWritten, if_true]
    rw [State.boxPageWritten_eq]
    rfl

theorem State.lowWritten_sound (h : v.pagesSound) : (v.lowWritten n wide w).pagesSound := by
  cases wide
  · exact h
  · exact State.pagesSound.wroteWhole (s := v.askUnit 6 0 0) h

theorem State.boxPageWritten_keeper {c k : Nat} : (v.boxPageWritten c k).keeper = v.keeper := by
  rw [State.boxPageWritten_eq]; rfl

theorem State.lowWritten_rising (h : rising 0 v.keeper.boxes = true) : rising 0 (v.lowWritten n wide w).keeper.boxes = true := by
  cases wide
  · exact h
  · exact State.setBox_rising (by rwa [State.boxPageWritten_keeper])

theorem State.boxPageWritten_box {c k j : Nat} : (v.boxPageWritten c k).box j = v.box j := by
  rw [State.box, State.boxPageWritten_keeper, State.box]

theorem State.lowWritten_box (h : rising 0 v.keeper.boxes = true) :
    (v.lowWritten n wide w).box n = if wide then (v.box n).setWord 0 w else v.box n := by
  cases wide
  · rfl
  · exact State.setBox_box (by rwa [State.boxPageWritten_keeper])

theorem State.lowWritten_box_other {k : Nat} (h : k ≠ n) : (v.lowWritten n wide w).box k = v.box k := by
  cases wide
  · rfl
  · exact (State.setBox_box_other h).trans State.boxPageWritten_box

/-- The mailbox's state from before the edge, or, of its edge's first command, its own. -/
theorem State.sampled_box (v : State) (n : Nat) :
    v.sampled.box n = (match v.before with | none => v.box n | some b => look Mailbox.reset b.keeper.boxes n) := by
  unfold State.sampled
  cases v.before <;> rfl

/-- The lower word of a submitting write leaves the state that the mailbox is seen in. -/
theorem State.lowWritten_seen (h : rising 0 v.keeper.boxes = true) :
    ((v.lowWritten n wide w).sampled.box n).st = (v.sampled.box n).st := by
  have hbefore : (v.lowWritten n wide w).before = v.before := by rw [State.lowWritten_eq]
  have hst : ((v.lowWritten n wide w).box n).st = (v.box n).st := by
    rw [State.lowWritten_box h]
    cases wide <;> rfl
  rw [State.sampled_box, State.sampled_box, hbefore]
  cases v.before with
  | none => exact hst
  | some b => rfl

/-- The state that the command of a submitting write is sampled from: both words written. -/
def State.submitting (v : State) (n : Nat) (wide : Bool) (lo w : Word) (p : Bool) : State :=
  ((v.lowWritten n wide lo).boxPageWritten 0 (boxPage n 4)).sampling n w p

/-- The state that a submitting write leaves: the command sampled and waiting for the keeper. -/
def State.afterSubmit (v : State) (n : Nat) (wide : Bool) (lo w : Word) (p : Bool) : State :=
  (v.submitting n wide lo w p).queued n ((v.submitting n wide lo w p).sample n p false)

/-- What a submitting write changes: the mailbox and its command, PRESENCE as seen, the requests for the mailbox memory and
the twin's note of the pages written. -/
theorem State.afterSubmit_eq (v : State) (n : Nat) (wide : Bool) (lo w : Word) (p : Bool) :
    v.afterSubmit n wide lo w p =
      { v with
        keeper.boxes := (v.afterSubmit n wide lo w p).keeper.boxes,
        keeper.submitted := (v.afterSubmit n wide lo w p).keeper.submitted,
        levels.presence := p,
        sluice.units := (v.afterSubmit n wide lo w p).sluice.units,
        twin := ((if wide then v.wroteWhole 6 (boxPage n 0) else v).wroteWhole 6 (boxPage n 4)).twin } := by
  have htwin : ((v.lowWritten n wide lo).wroteWhole 6 (boxPage n 4)).twin =
      ((if wide then v.wroteWhole 6 (boxPage n 0) else v).wroteWhole 6 (boxPage n 4)).twin := by
    rw [State.wroteWhole_eq, State.wroteWhole_eq _ 6 (boxPage n 4), State.lowWritten_eq]
    cases wide
    · rfl
    · simp only [if_true, State.wroteWhole_eq v]
  unfold State.afterSubmit State.submitting
  rw [← htwin, State.boxPageWritten_eq, State.lowWritten_eq]
  rfl

end Sys2Proof.Machine
end

section
/-! SUPPORT. What a submit leaves (R290). -/

namespace Sys2Proof.Machine
variable {s v : State} {dt n : Nat} {a : Access} {w lo : Word} {p wide : Bool} {m : Mailbox}

section Submit
variable (hrise : rising 0 v.keeper.boxes = true) (hm : (if wide then (v.box n).setWord 0 lo else v.box n) = m)
include hrise hm

/-- The mailbox as its submitting write leaves it, its command not yet sampled. -/
theorem State.submitting_box :
    (v.submitting n wide lo w p).box n = m.setWord 4 w := by
  rw [State.submitting, State.sampling_box (by rw [State.boxPageWritten_keeper]; exact State.lowWritten_rising hrise), State.boxPageWritten_box,
    State.lowWritten_box hrise, hm]

/-- The command is sampled as the submitting write leaves the mailbox. -/
theorem State.submitting_cmd (hbytes : rising 0 m.bytes = true) :
    (v.submitting n wide lo w p).sample n p false =
      { host := n, opcode := (m.word 0).setWidth 8, flags := (m.word 0 >>> 8).setWidth 8, len := bits (m.word 0) 31 16,
        seq := w.setWidth 16, top := (w >>> 24).setWidth 8,
        payload := (List.range (min (bits (m.word 0) 31 16) 4088)).map fun i => look 0#8 m.bytes (8 + i),
        stagedAt := v.keeper.staged.map fun c => c.stageId.toNat, presence := p, factoryClean := v.factoryClean,
        unreadable := false } := by
  rw [State.sample_of_box (State.submitting_box hrise hm), Mailbox.setWord_word_other (.inl (by decide)),
    Mailbox.setWord_word_same hbytes, Mailbox.setWord_payload, State.submitting, State.boxPageWritten_eq, State.lowWritten_eq]
  rfl

theorem State.afterSubmit_box {c : Cmd}
    (hc : (v.submitting n wide lo w p).sample n p false = c) :
    (v.afterSubmit n wide lo w p).box n = (m.setWord 4 w).submitted c := by
  have hr : rising 0 (v.submitting n wide lo w p).keeper.boxes = true :=
    State.setBox_rising (by rw [State.boxPageWritten_keeper]; exact State.lowWritten_rising hrise)
  rw [State.afterSubmit, State.queued_box hr, State.submitting_box hrise hm, hc]

end Submit

theorem State.lowWritten_submitted : (v.lowWritten n wide lo).keeper.submitted = v.keeper.submitted := by
  rw [State.lowWritten_eq]

theorem State.afterSubmit_submitted (h : rising 0 v.keeper.submitted = true) :
    look none (v.afterSubmit n wide lo w p).keeper.submitted n =
      some ((v.submitting n wide lo w p).sample n p false) := by
  refine State.queued_submitted (v := v.submitting n wide lo w p) ?_
  change rising 0 ((v.lowWritten n wide lo).boxPageWritten 0 (boxPage n 4)).keeper.submitted = true
  rwa [State.boxPageWritten_keeper, State.lowWritten_submitted]

theorem State.afterSubmit_other {k : Nat} (h : k ≠ n) :
    (v.afterSubmit n wide lo w p).box k = v.box k ∧
      look none (v.afterSubmit n wide lo w p).keeper.submitted k = look none v.keeper.submitted k := by
  obtain ⟨hbox, hsub⟩ := State.submitted_other (v := (v.lowWritten n wide lo).boxPageWritten 0 (boxPage n 4)) (w := w) (p := p)
    (c := (v.submitting n wide lo w p).sample n p false) h
  refine ⟨hbox.trans (State.boxPageWritten_box.trans (State.lowWritten_box_other h)), hsub.trans ?_⟩
  rw [State.boxPageWritten_keeper, State.lowWritten_submitted]

/-! ### The access that submits -/

/-- The half that writes word 1 of a sound, free mailbox submits its command. -/
theorem State.writeBox_submits {byte : Nat} (hsound : v.pagesSound)
    (hst : (v.sampled.box n).st = .idle ∨ (v.sampled.box n).st = .done) (hrise : rising 0 v.keeper.boxes = true)
    (hheld : v.keeper.held = false) (hpage : a.page = cleanRead) (hseen : v.presenceSeen a.presence a.presenceAt = p)
    (hop : ((v.submitting n wide lo w p).sample n p false).opcode ≠ 0x61#8) :
    (v.lowWritten n wide lo).writeBox a byte n 4 w = ok (v.afterSubmit n wide lo w p) 0#32 := by
  have hlow : (v.lowWritten n wide lo).pagesSound := State.lowWritten_sound hsound
  have hst' : ((v.lowWritten n wide lo).sampled.box n).st = .idle ∨ ((v.lowWritten n wide lo).sampled.box n).st = .done := by
    rwa [State.lowWritten_seen hrise]
  have hwritten : ((v.lowWritten n wide lo).boxPageWritten 0 (boxPage n 4)).pagesSound :=
    State.pagesSound.wroteWhole (s := (v.lowWritten n wide lo).askUnit 6 0 0) hlow
  have hheld' : ((v.lowWritten n wide lo).boxPageWritten 0 (boxPage n 4)).keeper.held = false := by
    rw [State.boxPageWritten_keeper, State.lowWritten_eq]; exact hheld
  have hseen' : ((v.lowWritten n wide lo).boxPageWritten 0 (boxPage n 4)).presenceSeen a.presence a.presenceAt = p := by
    rw [State.boxPageWritten_eq, State.lowWritten_eq, ← hseen]; rfl
  rw [State.writeBox_free (by decide) hst' (by rw [if_pos rfl, State.readBoxPage_clean hlow]) rfl]
  simp only [Bool.not_true, Bool.false_eq_true, if_false, if_true]
  rw [hseen', hpage, State.submit_clean hwritten hheld' hop]
  rfl

/-- The half that writes word 0 of a sound, free mailbox writes it. -/
theorem State.writeBox_low {byte : Nat} (hsound : v.pagesSound)
    (hst : (v.sampled.box n).st = .idle ∨ (v.sampled.box n).st = .done) (hpage : a.page = cleanRead) :
    v.writeBox a byte n 0 lo = ok (v.lowWritten n true lo) 0#32 := by
  rw [State.writeBox_free (by decide) hst (by rw [hpage, ite_self, State.readBoxPage_clean hsound]) rfl]
  simp only [Bool.not_true, Bool.false_eq_true, if_false]
  rw [State.lowWritten, if_pos rfl, State.boxPageWritten_box]
  rfl

theorem State.afterSubmit_hold : (v.afterSubmit n wide lo w p).front.hold = v.front.hold := by
  rw [State.afterSubmit_eq]

theorem counterPair_box {mb word : Nat} (hm : mb < 64) (hw : word < 4096) :
    counterPair (boxByte mb word) = false ∧ guardedAt (boxByte mb word) = false := by
  simp [counterPair, guardedAt, placeOf_boxByte hm hw]

/-- A submitting write of a sound, free mailbox by its own host. -/
theorem State.perform_submit (hr : v.startup.ready = true) (hk : a.keeper = false) (hw : a.write = true) (hwide : a.wide = wide)
    (hn : n < 64) (hbyte : a.byte = boxByte n (if wide then 0 else 1)) (hhost : a.host.toNat = n) (hsound : v.pagesSound)
    (hhold : v.front.hold = none)
    (hst : (v.sampled.box n).st = .idle ∨ (v.sampled.box n).st = .done) (hrise : rising 0 v.keeper.boxes = true)
    (hheld : v.keeper.held = false) (hpage : a.page = cleanRead) (hseen : v.presenceSeen a.presence a.presenceAt = p)
    (hdata : (if wide then hiWord a.data else loWord a.data) = w)
    (hop : ((v.submitting n wide (loWord a.data) w p).sample n p false).opcode ≠
      0x61#8) : v.perform a = (v.afterSubmit n wide (loWord a.data) w p).answer .ok 0#64 := by
  have had {o : Nat} (hp : placeOf a.byte = .mailbox n o) : v.sampled.admits a = true :=
    (State.admits_box hp).trans (decide_eq_true hhost)
  have hfree : (v.afterSubmit n wide (loWord a.data) w p).front.hold = none := State.afterSubmit_hold.trans hhold
  have hone : placeOf (boxByte n 1) = .mailbox n 4 := placeOf_boxByte hn (by decide)
  have hsub (byte : Nat) := State.writeBox_submits (byte := byte) hsound hst hrise hheld hpage hseen hop
  cases wide with
  | false =>
    have hp : placeOf a.byte = .mailbox n 4 := by rw [hbyte]; exact hone
    have hb : a.byte % 4 = 0 := by rw [hbyte]; exact boxByte_mod
    have hw' : loWord a.data = w := hdata
    rw [State.perform_oneHalf hr hk hw hwide hb hp (by simp) (had hp), State.half_box hp hw, ← State.ok_zero_answer hfree,
      ← hsub a.byte, hw']
    rfl
  | true =>
    have hp : placeOf a.byte = .mailbox n 0 := by rw [hbyte]; exact placeOf_boxByte hn (by decide)
    have hnext : a.byte + 4 = boxByte n 1 := by rw [hbyte]; exact boxByte_pair.2
    have hp' : placeOf (a.byte + 4) = .mailbox n 4 := by rw [hnext]; exact hone
    have hb : a.byte % 8 = 0 := by rw [hbyte]; exact boxByte_pair.1
    have hc : counterPair a.byte = false ∧ guardedAt a.byte = false := by rw [hbyte]; exact counterPair_box hn (by decide)
    have hg' : guardedAt (a.byte + 4) = false := by rw [hnext]; exact (counterPair_box hn (by decide)).2
    have hw' : hiWord a.data = w := hdata
    have hlo : v.half a a.byte (loWord a.data) = ok (v.lowWritten n true (loWord a.data)) 0#32 :=
      (State.half_box hp hw).trans (State.writeBox_low hsound hst hpage)
    have hhi : (ok (v.lowWritten n true (loWord a.data)) 0#32).s.half a (a.byte + 4) (hiWord a.data) =
        ok (v.afterSubmit n true (loWord a.data) w p) 0#32 := by
      rw [hw']
      exact (State.half_box hp' hw).trans (hsub _)
    rw [State.perform_halves hr hk hw hwide hb (by simp [hp]) (had hp) hc.1 hc.2 hg' hlo hhi, State.answerPair_halves hfree]
    rfl

/-- The access that a submit offers at the edge that it comes at. -/
def submitAccess (mb : BitVec 6) (wide : Bool) (data : DWord) (level : Bool) (at_ : Nat) : Access :=
  { writeTo mb (boxByte mb.toNat (if wide then 0 else 1)) wide data with presence := level, presenceAt := at_ }

theorem exec_mailboxSubmit {mb : BitVec 6} {data : DWord} {presence : Presence} :
    exec (.mailboxSubmit dt mb mb wide data presence cleanRead) s =
      s.portAccess dt (submitAccess mb wide data presence.level ((s.elapse dt).clock.edge - presence.ago)) := by
  change execMailboxSubmit dt mb mb wide data presence cleanRead s = _
  unfold execMailboxSubmit State.portAccess State.always
  rfl

theorem port_mailboxSubmit {mb : BitVec 6} {data : DWord} {presence : Presence} (ho : s.portOpen dt)
    (hsound : (s.portEdge dt).pagesSound)
    (hst : ((s.portEdge dt).sampled.box mb.toNat).st = .idle ∨ ((s.portEdge dt).sampled.box mb.toNat).st = .done)
    (hrise : rising 0 (s.portEdge dt).keeper.boxes = true) (hheld : (s.portEdge dt).keeper.held = false)
    (hp : (s.portEdge dt).presenceSeen presence.level ((s.elapse dt).clock.edge - presence.ago) = p)
    (hw : (if wide then hiWord data else loWord data) = w)
    (hop : (((s.portEdge dt).submitting mb.toNat wide (loWord data) w p).sample mb.toNat p false).opcode ≠ 0x61#8) :
    exec (.mailboxSubmit dt mb mb wide data presence cleanRead) s =
      .next (s.left (((s.portEdge dt).afterSubmit mb.toNat wide (loWord data) w p).answer .ok 0#64)) := by
  rw [exec_mailboxSubmit, State.portAccess_open _ ho]
  refine congrArg (fun t => Host.Outcome.next (s.left t)) ?_
  exact State.perform_submit (a := submitAccess mb wide data _ _) (State.portOpen_ready ho) rfl rfl rfl mb.isLt rfl rfl hsound
    (State.portOpen_hold ho) hst hrise hheld rfl hp hw hop

end Sys2Proof.Machine
end

section
open Sys2Proof Sys2Proof.Machine

/-- Settles O14: a narrow mailbox write by the mailbox's state, then the submitting write through sound pages. -/
theorem mailboxesAreWrittenAndSubmitted : Obligations.MailboxesAreWrittenAndSubmitted := by
  refine ⟨?_, ?_⟩
  · intro s v dt host mb word data m o ho hv hm hoff h4
    subst hv hm hoff
    have hfree : (s.portEdge dt).front.hold = none := State.portOpen_hold ho
    refine ⟨port_mailboxWrite_denied ho, ?_, ?_, ?_, ?_⟩
    · rintro rfl hlarge
      exact port_mailboxWrite_ok ho hfree (State.writeBox_beyond hlarge)
    · rintro rfl hsmall hst
      exact port_mailboxWrite_ok ho ((State.count_hold ..).trans hfree) (State.writeBox_busy hsmall hst)
    · rintro rfl hsmall hst hpoison
      exact port_mailboxWrite_refused ho ((State.count_hold ..).trans hfree) (State.writeBox_poisoned hsmall hst hpoison)
    · rintro r t rfl hsmall hst hr ht
      have hread : r.2.front.hold = none := by rw [← hr]; exact (State.readPage_hold ..).trans hfree
      have htfree : t.front.hold = none := by rw [← ht]; exact (State.wroteWhole_hold ..).trans hread
      have hr' : (s.portEdge dt).readPage 6 (boxPage host.toNat (4 * word.toNat)) 2 false
          (writeTo host (boxByte host.toNat word.toNat) false data).page = r := hr
      refine ⟨fun hu => ?_, fun hu => ?_⟩
      · refine port_mailboxWrite_ok ho ?_ (State.writeBox_usable hsmall hst h4 hr' hu ht)
        exact htfree
      · exact port_mailboxWrite_refused ho hread (State.writeBox_unusable hsmall hst h4 hr' hu)
  · intro s v dt mb wide data presence m w len p t1 ho hv hp hst hm hw hsound hheld hop hlen hrise hsubmitted hbytes ht1
    subst hv hlen ht1
    have hcmd := State.submitting_cmd (w := w) (p := p) hrise hm hbytes
    have hbox := State.afterSubmit_box hrise hm hcmd
    have heq := State.afterSubmit_eq (s.portEdge dt) mb.toNat wide (loWord data) w p
    refine ⟨(s.portEdge dt).afterSubmit mb.toNat wide (loWord data) w p, _, ?_, by rw [hbox]; rfl, by rw [hbox]; rfl,
      by rw [hbox]; rfl, ?_, (State.afterSubmit_submitted hsubmitted).trans (congrArg some hcmd), rfl, rfl, rfl, rfl, rfl, rfl,
      rfl, rfl, fun k hk => State.afterSubmit_other hk, ?_, ?_, ?_, ?_, ?_⟩
    · exact port_mailboxSubmit ho hsound hst hrise hheld hp hw (by rw [hcmd]; exact hop)
    · rw [hbox]
      exact Mailbox.setWord_word_same hbytes
    all_goals rw [heq]
end

section
/-! SUPPORT. Two states of one edge: what a page read, a page update and a take leave of the clock, of the state kept from before
the edge and of the hold, and what an access then sees of the slots (R22, R66, R193). -/

namespace Sys2Proof.Machine
variable {s t u : State}

/-- What the later half of an access, and its answer, rest on: the clock, the state kept from before the edge, and the hold of
the ordering point. -/
def State.samePort (s t : State) : Prop := t.clock = s.clock ∧ t.before = s.before ∧ t.front.hold = s.front.hold

theorem State.samePort.trans (h : s.samePort t) (h' : t.samePort u) : s.samePort u :=
  ⟨h'.1.trans h.1, h'.2.1.trans h.2.1, h'.2.2.trans h.2.2⟩

theorem State.samePort.refl (s : State) : s.samePort s := ⟨rfl, rfl, rfl⟩

theorem State.samePort.ite {c : Prop} [Decidable c] (ht : s.samePort t) (hu : s.samePort u) :
    s.samePort (if c then t else u) := by
  split
  · exact ht
  · exact hu

theorem State.samePort.count (s : State) (f i : Nat) : s.samePort (s.count f i) :=
  ⟨State.count_clock .., State.count_before .., State.count_hold ..⟩

theorem State.samePort.hold (h : s.samePort t) : t.front.hold = s.front.hold := h.2.2

/-! ### Page reads and page updates -/

theorem State.tallyErr_before (s : State) (m p : Nat) (b : Bool) (v : Verdict × Verdict) :
    (s.tallyErr m p b v).before = s.before := by
  have kept (t : State) (b : Bool) (v : Verdict) : (t.keepErrs b m p v).before = t.before := by
    cases v <;> simp [State.keepErrs]
  simp [State.tallyErr, kept, State.countErr, apply_ite State.before]

theorem State.trigger_before (s : State) (c : Nat) : (s.trigger c).before = s.before := by
  unfold State.trigger
  repeat' split
  all_goals rfl

theorem State.takeUncorr_before (s : State) (m p r : Nat) (b : Bool) (v : Verdict × Verdict) :
    (s.takeUncorr m p r b v).before = s.before := by
  have poisoned : (s.poisonWells m p r v).before = s.before := by
    simp [State.poisonWells, State.poisonIn, apply_ite State.before]
  simp [State.takeUncorr, State.askRebuild, State.uncorrTrigger, State.trigger_before, State.countPoison, poisoned,
    apply_ite State.before]

theorem State.readPage_before (s : State) (m p r : Nat) (b : Bool) (v : PageRead) :
    (s.readPage m p r b v).2.before = s.before := by
  unfold State.readPage
  split
  · exact State.count_before ..
  · dsimp only
    split
    · exact State.tallyErr_before ..
    · exact (State.takeUncorr_before ..).trans (State.tallyErr_before ..)

theorem State.samePort.readPage (s : State) (m p r : Nat) (b : Bool) (v : PageRead) :
    s.samePort (s.readPage m p r b v).2 :=
  ⟨(State.sameGroups.readPage ..).1, State.readPage_before .., State.readPage_hold ..⟩

theorem State.samePort.wroteWhole (s : State) (m p : Nat) : s.samePort (s.wroteWhole m p) := by
  rw [State.wroteWhole_eq]
  exact .refl _

theorem State.samePort.updateInt (s : State) (k unit : Nat) : s.samePort (s.updateInt k unit) := by
  have asked (t : State) (m u c : Nat) : t.samePort (t.askUnit m u c) := .refl _
  have whole (t : State) (m u c p : Nat) : t.samePort ((t.askUnit m u c).wroteWhole m p) := (asked ..).trans (.wroteWhole ..)
  unfold State.updateInt State.rewritePage State.updatePage
  exact .ite (.ite (asked ..) (whole ..)) (.ite (asked ..) ((State.samePort.readPage ..).trans (whole ..)))

/-! ### The take of a presentation (R79, R99) -/

theorem State.samePort.withdrawN (s : State) (n : Nat) : s.samePort (s.withdrawN n) := by
  unfold State.withdrawN
  split
  · exact .refl _
  · refine .ite (.refl _) ?_
    exact .trans (t := (s.modCore n _).modGroup _ Group.refund) (.refl _) (.count ..)

/-- From the last change of a take back to its first. -/
theorem State.samePort.take (s : State) (n : Nat) (fast : Bool) (p : Slot) : s.samePort (s.take n fast p) := by
  have journalled (t : State) (j : List AckEntry) : t.samePort { t with twin.journal := j } := .refl _
  have moved (t : State) (f : Core → Core) : t.samePort (t.modCore n f) := .refl _
  have unmerged (t : State) : t.samePort t.unmerge := .refl _
  unfold State.take
  refine .trans ?_ (.ite (.ite (.trans (.count ..) (.count ..)) (.count ..)) (.refl _))
  refine .trans ?_ (.count ..)
  refine .trans ?_ (journalled ..)
  refine .trans ?_ (.ite (.withdrawN ..) (.refl _))
  refine .trans ?_ (moved ..)
  refine .trans ?_ (.updateInt ..)
  refine .trans ?_ (.ite (unmerged _) (.refl _))
  exact .refl s

/-- What an access sees of the presentation slots rests on the clock and on the state kept from before the edge. -/
theorem State.samePort.sampled_seen (h : s.samePort t) (hb : s.before ≠ none) (n : Nat) :
    t.sampled.seenN n = s.sampled.seenN n ∧ t.sampled.seenF n = s.sampled.seenF n := by
  obtain ⟨hclock, hbefore, _⟩ := h
  obtain ⟨b, hs⟩ := Option.ne_none_iff_exists'.mp hb
  have ht := hbefore.trans hs
  unfold State.sampled
  rw [hs, ht, hclock]
  exact ⟨rfl, rfl⟩

end Sys2Proof.Machine
end

section
/-! SUPPORT. Accesses to a core's page at the port, and the halves they perform (R36, R37, R66, R140). -/

namespace Sys2Proof.Machine
variable {s v t : State} {dt n o view : Nat} {host : HostId} {value : Word} {page : PageRead} {a : Access}

/-- A read of a core page's register. -/
def coreRead (host : HostId) (n view o : Nat) (wide : Bool) (page : PageRead) : Access :=
  { readFrom host (byteAt (fCore n) view o) wide with page := page }

/-- A write of a core page's register, through the base view. -/
def coreWrite (host : HostId) (n o : Nat) (value : Word) (page : PageRead) : Access :=
  { writeTo host (byteAt (fCore n) 0 o) false (narrow value) with page := page }

theorem isCoreFrame_fCore (hn : n < 256) : isCoreFrame (fCore n) = true := by
  simp only [isCoreFrame, fCore, Bool.and_eq_true, decide_eq_true_eq]; omega

theorem State.frameAdmits_core {write : Bool} (hn : n < 256) :
    v.frameAdmits (fCore n) host write = v.sampled.coreAdmits n host.toNat := by
  simp [State.frameAdmits, isCoreFrame_fCore hn]

theorem placeOf_core (hn : n < 256) (hv : view < 4) (ho : o < 0x1000) :
    placeOf (byteAt (fCore n) view o) = .frame (fCore n) view o :=
  placeOf_byteAt (.inr ⟨by simp only [fCore]; omega, by simp only [fCore]; omega⟩) hv ho

/-! ### Writes -/

/-- A write to a register of a core's page is the one half of its frame. -/
theorem port_coreWrite (ho : s.portOpen dt) (hn : n < 256) (had : (s.portEdge dt).sampled.coreAdmits n host.toNat = true)
    (hlt : o < 0x1000) (h4 : o % 4 = 0) :
    s.portAccess dt (coreWrite host n o value page) = .next (s.left ((s.portEdge dt).writeFrame
      (coreWrite host n o value page) (byteAt (fCore n) 0 o) (fCore n) 0 o value).answer) := by
  have hp : placeOf (coreWrite host n o value page).byte = .frame (fCore n) 0 o := placeOf_core hn (by decide) hlt
  have hb4 : (coreWrite host n o value page).byte % 4 = 0 := (byteAt_mod (.inl rfl)).trans h4
  have hgate : (s.portEdge dt).frameAdmits (fCore n) host true = true := (State.frameAdmits_core hn).trans had
  have hdata : loWord (coreWrite host n o value page).data = value := loWord_narrow value
  rw [State.portAccess_open _ ho, State.perform_write (State.portOpen_ready ho) hp rfl rfl rfl hb4 hgate, hdata]
  rfl

/-- A write whose half is answered OK. -/
theorem port_coreWrite_ok (ho : s.portOpen dt) (hn : n < 256) (had : (s.portEdge dt).sampled.coreAdmits n host.toNat = true)
    (hlt : o < 0x1000) (h4 : o % 4 = 0)
    (hw : ∀ a byte, a.host = host → a.page = page → (s.portEdge dt).writeFrame a byte (fCore n) 0 o value = ok t 0#32) :
    s.portAccess dt (coreWrite host n o value page) = .next (s.left (t.answerUnlessHeld .ok 0#64)) := by
  rw [port_coreWrite ho hn had hlt h4, hw _ _ rfl rfl, State.ok_zero_answerUnlessHeld]

/-- A write whose half is refused. -/
theorem port_coreWrite_refused {reason : Nat} (ho : s.portOpen dt) (hn : n < 256)
    (had : (s.portEdge dt).sampled.coreAdmits n host.toNat = true) (hlt : o < 0x1000) (h4 : o % 4 = 0)
    (hh : t.front.hold = none)
    (hw : ∀ a byte, a.host = host → (s.portEdge dt).writeFrame a byte (fCore n) 0 o value = t.refuse a byte reason) :
    s.portAccess dt (coreWrite host n o value page) =
      .next (s.left (t.refusedAt (fCore n) reason 0 o false host)) := by
  rw [port_coreWrite ho hn had hlt h4, hw _ _ rfl, State.refuse_answer (placeOf_core hn (by decide) hlt) hh]
  rfl

/-! ### Reads -/

/-- No register of a core's page holds the ordering point. -/
theorem State.holdRead_core (hn : n < 256) (hp : placeOf a.byte = .frame (fCore n) view o) : v.holdRead a = none := by
  by_cases ho : o = 0x30
  · subst ho
    have hport : ¬ (2 ≤ fCore n ∧ fCore n < 0x12) := by simp only [fCore]; omega
    unfold State.holdRead
    rw [hp]
    exact if_neg hport
  · exact State.holdRead_frame hp ho

/-- A 32-bit read of a register of a core's page is the one half of its frame. -/
theorem port_coreRead (ho : s.portOpen dt) (hn : n < 256) (had : (s.portEdge dt).sampled.coreAdmits n host.toNat = true)
    (hv : view < 4) (hlt : o < 0x1000) (h4 : o % 4 = 0) :
    s.portAccess dt (coreRead host n view o false page) = .next (s.left ((s.portEdge dt).readFrame
      (coreRead host n view o false page) (byteAt (fCore n) view o) (fCore n) view o).answer) := by
  have hp : placeOf (coreRead host n view o false page).byte = .frame (fCore n) view o := placeOf_core hn hv hlt
  have hb4 : (coreRead host n view o false page).byte % 4 = 0 := (byteAt_mod (.inl rfl)).trans h4
  rw [State.portAccess_open _ ho, State.perform_read hp rfl rfl rfl hb4 ((State.frameAdmits_core hn).trans had)
    (State.holdRead_core hn hp)]
  rfl

/-- A 64-bit read of a frame that holds nothing at the ordering point performs its two halves, the register at 0x30 among them. -/
theorem State.perform_readPair {f : Nat} {lo hi : HalfResult} (hk : a.keeper = false) (hw : a.write = false)
    (hn : a.wide = true) (hb : a.byte % 8 = 0) (hp : placeOf a.byte = .frame f view o) (had : v.sampled.admits a = true)
    (hnone : v.holdRead a = none) (hlo : v.half a a.byte (loWord a.data) = lo)
    (hhi : lo.s.half a (a.byte + 4) (hiWord a.data) = hi) :
    v.perform a = hi.s.answerPair (lo.code.worse hi.code) (joinWords lo.data hi.data) := by
  have hb4 : a.byte % 4 = 0 := by omega
  subst hlo hhi
  unfold State.perform
  simp [hp, hk, hw, hn, hb, hb4, had, hnone]

/-- A 64-bit read of two registers of a core's page performs its lower half and then its upper one. -/
theorem port_coreReadPair {u : State} {x y : Word} (ho : s.portOpen dt) (hn : n < 256)
    (had : (s.portEdge dt).sampled.coreAdmits n host.toNat = true) (hv : view < 4) (hlt : o + 4 < 0x1000) (h8 : o % 8 = 0)
    (hh : u.front.hold = none)
    (hlo : (s.portEdge dt).readFrame (coreRead host n view o true page) (byteAt (fCore n) view o) (fCore n) view o = ok t x)
    (hhi : ∀ byte, t.readFrame (coreRead host n view o true page) byte (fCore n) view (o + 4) = ok u y) :
    s.portAccess dt (coreRead host n view o true page) = .next (s.left (u.answer .ok (joinWords x y))) := by
  have hp : placeOf (coreRead host n view o true page).byte = .frame (fCore n) view o := placeOf_core hn hv (by omega)
  have hp' : placeOf ((coreRead host n view o true page).byte + 4) = .frame (fCore n) view (o + 4) := by
    show placeOf (byteAt (fCore n) view o + 4) = _
    rw [byteAt_add, placeOf_core hn hv hlt]
  have hb8 : (coreRead host n view o true page).byte % 8 = 0 := (byteAt_mod (.inr rfl)).trans h8
  have hgate : (s.portEdge dt).sampled.admits (coreRead host n view o true page) = true :=
    (State.admits_of_frame hp).trans ((State.frameAdmits_core hn).trans had)
  have lower : (s.portEdge dt).half (coreRead host n view o true page) (coreRead host n view o true page).byte
      (loWord (coreRead host n view o true page).data) = ok t x := by
    simp only [State.half, hp]
    exact hlo
  have upper : (ok t x).s.half (coreRead host n view o true page) ((coreRead host n view o true page).byte + 4)
      (hiWord (coreRead host n view o true page).data) = ok u y := by
    simp only [State.half, hp']
    exact hhi _
  rw [State.portAccess_open _ ho, State.perform_readPair rfl rfl rfl hb8 hp hgate (State.holdRead_core hn hp) lower upper,
    State.answerPair_halves hh]

end Sys2Proof.Machine
end

section
/-! SUPPORT. The registers of a core's page that show its presentations, and their acknowledge (R79, R94, R99, R390). -/

namespace Sys2Proof.Machine
variable {v : State} {n o view byte : Nat} {a : Access} {fast : Bool} {p : Slot} {page : PageRead}

/-- The presentation of a class that a read at this edge samples. -/
def State.seen (v : State) (n : Nat) (fast : Bool) : Option Slot := if fast then v.seenF n else v.seenN n

/-- The acknowledge register of a class; the presented register stands in the word above. -/
def ackOffset (fast : Bool) : Nat := if fast then 0x30 else 0x20

theorem ackOffset_cases (fast : Bool) : ackOffset fast = 0x20 ∨ ackOffset fast = 0x30 := by
  cases fast
  · exact .inl rfl
  · exact .inr rfl

/-! ### What holds an INTID's state -/

/-- INTIDs 4,096 and up have their state in a page of the reservoir. -/
theorem storedInPage {key : Nat} (h : 4096 ≤ key) (h' : key < 131072) : (decide (4096 ≤ key) && !isPrivate key) = true := by
  simp [isPrivate]; omega

/-- The INTIDs below 4,096 and the cores' own have theirs in flops (log entry 14). -/
theorem storedInFlops {key : Nat} (h : key < 4096 ∨ 131072 ≤ key) : (decide (4096 ≤ key) && !isPrivate key) = false := by
  simp [isPrivate]; omega

/-! ### The acknowledge -/

theorem State.ackRead_empty (h : v.seen n fast = none) :
    v.ackRead n fast page = ok (v.count (fCore n) 5) 0x80000000#32 := by
  unfold State.seen at h
  simp [State.ackRead, h]

theorem State.ackRead_flops (h : v.seen n fast = some p) (hp : p.intid < 4096 ∨ 131072 ≤ p.intid) :
    v.ackRead n fast page = ok (v.take n fast p) (slotWord (some p)) := by
  unfold State.seen at h
  simp [State.ackRead, h, storedInFlops hp]

theorem State.ackRead_page {r : PageResult × State} (h : v.seen n fast = some p) (hlo : 4096 ≤ p.intid)
    (hhi : p.intid < 131072) (hr : v.readPage 2 (reservoirPage p.intid) 2 false page = r) :
    v.ackRead n fast page =
      if r.1.usable then
        if r.1.leadError then { s := r.2.take n fast p, code := .uncorrectable, data := 0#32 }
        else ok (r.2.take n fast p) (slotWord (some p))
      else { s := if fast then r.2.withdrawF n else r.2.withdrawN n, code := .uncorrectable, data := 0#32 } := by
  unfold State.seen at h
  subst hr
  simp [State.ackRead, h, storedInPage hlo hhi]

/-! ### Reads of the page -/

/-- A core's page is none of the global ones whose reads have a rule of their own. -/
theorem fCore_ne_global : fCore n ≠ fFast ∧ fCore n ≠ fReservoir ∧ fCore n ≠ fPump := by
  simp only [fCore, fFast, fReservoir, fPump]; omega

theorem State.readAdmits_core {h : Nat} : v.readAdmits (fCore n) o h = true := by
  simp [State.readAdmits, fCore_ne_global]

/-- A base-view read of an acknowledge register acknowledges. -/
theorem State.readFrame_ack (hn : n < 256) :
    v.readFrame a byte (fCore n) 0 (ackOffset fast) = v.ackRead n fast a.page := by
  cases fast <;> simp [State.readFrame, State.readAdmits_core, isCoreFrame_fCore hn, ackOffset, fCore]

/-- A register of a core's page that is not guarded reads from the core's state. -/
theorem State.readReg_core (hn : n < 256) (ho : 0x20 ≤ o) (hlt : o < 0x40) :
    v.readReg (fCore n) o = v.readCore n o := by
  have hrwg : ¬ (rwgMask (fCore n) o).isSome = true := by
    simp only [rwgMask_isSome, isRwg, fCore]; omega
  have helse : elsewhere (fCore n) o = true := by simp only [elsewhere, isCoreFrame_fCore hn, Bool.true_or]
  have h20 : ¬ o < 0x20 := by omega
  have hcnt : ¬ (0x400 ≤ o ∧ o < 0x600) := by omega
  have hheld : ¬ (0x600 ≤ o ∧ o < 0x800) := by omega
  have hcomp : ¬ 0x800 ≤ o := by omega
  simp [State.readReg, hrwg, helse, h20, hcnt, hheld, hcomp, State.readStatus, isCoreFrame_fCore hn]

/-- The acknowledge register and the presented register of a class read as the slot. -/
theorem State.readReg_slot (hn : n < 256) (ho : o = ackOffset fast ∨ o = ackOffset fast + 4) :
    v.readReg (fCore n) o = slotWord (v.seen n fast) := by
  cases fast <;> rcases ho with rfl | rfl <;> rw [State.readReg_core hn (by decide) (by decide)] <;> rfl

/-- A read of a slot that acknowledges nothing. -/
theorem State.readFrame_slot (hn : n < 256) (ho : o = ackOffset fast ∧ view ≠ 0 ∨ o = ackOffset fast + 4) :
    v.readFrame a byte (fCore n) view o = ok v (slotWord (v.sampled.seen n fast)) := by
  have hword := State.readReg_slot (v := v.sampled) (fast := fast) hn (ho.imp_left And.left)
  have hoff := ackOffset_cases fast
  have hback : (decide (view = 0) && (decide (o = 0x20) || decide (o = 0x30))) = false := by
    simp; omega
  have hsmall : ¬ 0x400 ≤ o ∧ ¬ 0x800 ≤ o := by
    omega
  have hpage : v.sampled.pageOfRead (fCore n) o = none := by simp [State.pageOfRead, groupPageRead, hsmall, fCore_ne_global]
  simp [State.readFrame, State.readAdmits_core, Bool.and_assoc, hback, hpage, State.readHalf, PageResult.answers, hword,
    hsmall, fCore_ne_global, groupPageRead]

end Sys2Proof.Machine
end

section
/-! SUPPORT. ACK_N and ACK_F at the port (R79, R94, R99). -/

namespace Sys2Proof.Machine
variable {s : State} {dt n view : Nat} {host : HostId} {page : PageRead} {fast : Bool} {p : Slot}

theorem port_ackRead (ho : s.portOpen dt) (hn : n < 256) (had : (s.portEdge dt).sampled.coreAdmits n host.toNat = true) :
    s.portAccess dt (coreRead host n 0 (ackOffset fast) false page) =
      .next (s.left ((s.portEdge dt).ackRead n fast page).answer) := by
  have hoff := ackOffset_cases fast
  rw [port_coreRead ho hn had (by decide) (by omega) (by omega), State.readFrame_ack hn]
  rfl

theorem port_ackRead_empty (ho : s.portOpen dt) (hn : n < 256)
    (had : (s.portEdge dt).sampled.coreAdmits n host.toNat = true) (h : (s.portEdge dt).seen n fast = none) :
    s.portAccess dt (coreRead host n 0 (ackOffset fast) false page) =
      .next (s.left (((s.portEdge dt).count (fCore n) 5).answer .ok 0x80000000#64)) := by
  rw [port_ackRead ho hn had, State.ackRead_empty h, State.ok_answer ((State.count_hold ..).trans (State.portOpen_hold ho))]
  rfl

theorem port_ackRead_taken (ho : s.portOpen dt) (hn : n < 256)
    (had : (s.portEdge dt).sampled.coreAdmits n host.toNat = true) (h : (s.portEdge dt).seen n fast = some p)
    (hp : p.intid < 4096 ∨ 131072 ≤ p.intid) :
    s.portAccess dt (coreRead host n 0 (ackOffset fast) false page) =
      .next (s.left (((s.portEdge dt).take n fast p).answer .ok ((slotWord (some p)).setWidth 64))) := by
  rw [port_ackRead ho hn had, State.ackRead_flops h hp,
    State.ok_answer ((State.samePort.take ..).hold.trans (State.portOpen_hold ho))]

/-- With a state kept from before the edge, the word above the acknowledge register is as the slot stood there. -/
theorem port_ackPair {t : State} {x : Word} (ho : s.portOpen dt) (hn : n < 256)
    (had : (s.portEdge dt).sampled.coreAdmits n host.toNat = true) (hb : (s.portEdge dt).before ≠ none)
    (ht : (s.portEdge dt).samePort t) (hack : (s.portEdge dt).ackRead n fast page = ok t x) :
    s.portAccess dt (coreRead host n 0 (ackOffset fast) true page) =
      .next (s.left (t.answer .ok (joinWords x (slotWord ((s.portEdge dt).sampled.seen n fast))))) := by
  have hoff := ackOffset_cases fast
  have hseen : t.sampled.seen n fast = (s.portEdge dt).sampled.seen n fast := by
    obtain ⟨hN, hF⟩ := ht.sampled_seen hb n
    simp only [State.seen, hN, hF]
  refine port_coreReadPair ho hn had (by decide) (by omega) (by omega) (ht.hold.trans (State.portOpen_hold ho))
    ((State.readFrame_ack hn).trans hack) fun byte => ?_
  rw [State.readFrame_slot hn (.inr rfl), hseen]

theorem port_slotRead (ho : s.portOpen dt) (hn : n < 256) (had : (s.portEdge dt).sampled.coreAdmits n host.toNat = true)
    (hv : view < 4) (hview : view ≠ 0) :
    s.portAccess dt (coreRead host n view (ackOffset fast) false page) =
      .next (s.left ((s.portEdge dt).answer .ok ((slotWord ((s.portEdge dt).sampled.seen n fast)).setWidth 64))) := by
  have hoff := ackOffset_cases fast
  rw [port_coreRead ho hn had hv (by omega) (by omega), State.readFrame_slot hn (.inl ⟨rfl, hview⟩),
    State.ok_answer (State.portOpen_hold ho)]

end Sys2Proof.Machine
end

section
open Sys2Proof Sys2Proof.Machine

/-- Settles O15, by what the slot of the class holds. -/
theorem acknowledgeTakesThePresentation : Obligations.AcknowledgeTakesThePresentation := by
  intro s v dt host core view page n ho hv hn had
  subst hv hn
  have hlt : core.toNat < 256 := core.isLt
  have exec_ackN (wide : Bool) : exec (.ackN dt host core ⟨view, wide⟩ page) s =
    s.portAccess dt (coreRead host core.toNat view.toNat (ackOffset false) wide page) := rfl
  have exec_ackF (wide : Bool) : exec (.ackF dt host core ⟨view, wide⟩ page) s =
    s.portAccess dt (coreRead host core.toNat view.toNat (ackOffset true) wide page) := rfl
  simp only [exec_ackN, exec_ackF]
  refine ⟨fun h0 h => ?_, fun h0 h => ?_, fun p h0 h hp => ?_, fun p h0 h hp => ?_, fun p r h0 h hlo hhi hr => ?_, ?_, ?_, ?_⟩
  · exact h0 ▸ port_ackRead_empty (fast := false) ho hlt had h
  · exact h0 ▸ port_ackRead_empty (fast := true) ho hlt had h
  · exact h0 ▸ port_ackRead_taken (fast := false) ho hlt had h hp
  · exact h0 ▸ port_ackRead_taken (fast := true) ho hlt had h hp
  · rw [h0, port_ackRead ho hlt had, State.ackRead_page (fast := false) h hlo hhi hr,
      if_neg Bool.false_ne_true]
    split_ifs <;> rfl
  · intro h0 hb h
    rw [h0]
    exact port_ackPair (fast := false) ho hlt had hb (.count ..) (State.ackRead_empty h)
  · intro p h0 hb h hp
    rw [h0]
    exact port_ackPair (fast := true) ho hlt had hb (.take ..) (State.ackRead_flops h hp)
  · intro hview
    exact ⟨port_slotRead ho hlt had view.isLt hview, port_slotRead ho hlt had view.isLt hview⟩
end

section
/-! SUPPORT. Writes of a core's page that act on its interrupts: EOI, SGI_SEND and PEND_SET (R86 to R88, R95, R96, R100, R457). -/

namespace Sys2Proof.Machine
variable {v : State} {n o x key host byte : Nat} {a : Access} {w : Word} {fast : Bool} {page : PageRead} {b : ActSlot}

/-- A write to one of the action registers of a core's page. -/
theorem State.writeFrame_action (hn : n < 256) (ho : o = 0x28 ∨ o = 0x38 ∨ o = 0x48 ∨ o = 0x4C) :
    v.writeFrame a byte (fCore n) 0 o w =
      if o = 0x28 then ok (v.eoi n false w a.page) 0#32 else if o = 0x38 then ok (v.eoi n true w a.page) 0#32
      else if o = 0x48 then v.sgiSend a byte n w else v.pendSet a byte n w := by
  have hg : isGuarded (fCore n) o = false := by
    rw [Bool.eq_false_iff, ne_eq, isGuarded_iff]
    simp only [isRwg, fCore]; omega
  rcases ho with rfl | rfl | rfl | rfl <;> simp [State.writeFrame, hg, isCoreFrame_fCore hn]

/-! ### The end of an interrupt (R95, R100, R390) -/

/-- The end-of-interrupt register of a class. -/
def eoiOffset (fast : Bool) : Nat := if fast then 0x38 else 0x28

theorem State.writeFrame_eoi (hn : n < 256) :
    v.writeFrame a byte (fCore n) 0 (eoiOffset fast) w = ok (v.eoi n fast w a.page) 0#32 := by
  cases fast <;> rw [State.writeFrame_action hn (by decide)] <;> rfl

theorem State.eoi_other (h : ∀ b, v.act n fast = some b → intidOf b.intid ≠ bits w 16 0) :
    v.eoi n fast w page = v.event (fCore n) 7 132 := by
  unfold State.eoi
  split
  · next b hb => exact if_neg (h b hb)
  · rfl

/-- A release of an INTID in flops: no page of it can be poisoned. -/
theorem State.release_flops (hb : b.intid < 4096 ∨ 131072 ≤ b.intid) :
    v.release n fast b true = ((v.freeSlot n fast).deactivate b.intid).updateInt b.intid (coreUnit n) := by
  have hsound : (v.freeSlot n fast).intPoisoned b.intid = false := by
    simp only [State.intPoisoned, Bool.and_eq_false_iff, decide_eq_false_iff_not]; omega
  simp [State.release, hsound]

theorem State.eoi_flops (h : v.act n fast = some b) (hid : intidOf b.intid = bits w 16 0)
    (hb : b.intid < 4096 ∨ 131072 ≤ b.intid) :
    v.eoi n fast w page = ((((v.freeSlot n fast).deactivate b.intid).updateInt b.intid (coreUnit n)).count (fCore n) 6).count
      fReservoir 6 := by
  rw [← State.release_flops hb]
  simp [State.eoi, h, hid, storedInFlops hb]

theorem State.eoi_page {r : PageResult × State} (h : v.act n fast = some b) (hid : intidOf b.intid = bits w 16 0)
    (hlo : 4096 ≤ b.intid) (hhi : b.intid < 131072) (hr : v.readPage 2 (reservoirPage b.intid) 4 false page = r) :
    v.eoi n fast w page = ((r.2.release n fast b r.1.usable).count (fCore n) 6).count fReservoir 6 := by
  subst hr
  simp [State.eoi, h, hid, storedInPage hlo hhi]

/-! ### Software sets (R86 to R88, R96) -/

theorem State.writeFrame_sgi (hn : n < 256) : v.writeFrame a byte (fCore n) 0 0x48 w = v.sgiSend a byte n w := by
  rw [State.writeFrame_action hn (by decide)]; rfl

theorem State.writeFrame_pendSet (hn : n < 256) : v.writeFrame a byte (fCore n) 0 0x4C w = v.pendSet a byte n w := by
  rw [State.writeFrame_action hn (by decide)]; rfl

/-- A software set of an INTID in flops reads no page. -/
theorem State.swSet_flops (hk : key < 4096 ∨ 131072 ≤ key) :
    v.swSet key host page = (v.count fReservoir 4).pend key (.software v.clock.edge) := by
  simp [State.swSet, storedInFlops hk]

theorem State.swSet_page {r : PageResult × State} (hlo : 4096 ≤ key) (hhi : key < 131072)
    (hr : v.readPage 2 (reservoirPage key) 4 false page = r) :
    v.swSet key host page = if r.1.usable then (r.2.count fReservoir 4).pend key (.software v.clock.edge)
      else r.2.spillRec (madeRec key 6 host) := by
  subst hr
  simp [State.swSet, storedInPage hlo hhi, intidOf, hhi]

theorem State.sgiSend_admitted (h : v.sampled.coreAdmits (bits w 23 16) a.host.toNat = true) :
    v.sgiSend a byte n w = ok (((v.count fReservoir 4).pend (privKey (bits w 23 16) (bits w 3 0))
      (.software v.clock.edge)).count (fCore n) 8) 0#32 := by
  have hk : 131072 ≤ privKey (bits w 23 16) (bits w 3 0) := by simp only [privKey]; omega
  simp [State.sgiSend, h, State.swSet_flops (.inr hk)]

theorem State.sgiSend_denied (h : v.sampled.coreAdmits (bits w 23 16) a.host.toNat = false) :
    v.sgiSend a byte n w = v.refuse a byte rsDenied := by
  simp [State.sgiSend, h]

/-- An INTID below 64 is the page's core's own. -/
theorem State.pendSet_ownCore (hx : bits w 16 0 = x) (h : x < 64) :
    v.pendSet a byte n w = ok ((v.count fReservoir 4).pend (privKey n x) (.software v.clock.edge)) 0#32 := by
  have hk : 131072 ≤ privKey n x := by simp only [privKey]; omega
  subst hx
  simp [State.pendSet, h, State.swSet_flops (.inr hk)]

theorem State.pendSet_denied (hx : bits w 16 0 = x) (h : 64 ≤ x) (had : v.sampled.ownerAdmits x a.host.toNat = false) :
    v.pendSet a byte n w = (v.ftRead x).refuse a byte rsDenied := by
  subst hx
  simp [State.pendSet, Nat.not_lt.mpr h, had]

/-- A shared INTID named by its owner: what its route says. -/
theorem State.pendSet_shared (hx : bits w 16 0 = x) (h : 64 ≤ x) (had : v.sampled.ownerAdmits x a.host.toNat = true) :
    v.pendSet a byte n w =
      if rtEnable (v.sampled.route x) then
        if rtMode (v.sampled.route x) then
          if (v.ftRead x).localRoom (rtCistern (v.sampled.route x)) then
            ok ((v.ftRead x).pushLocal (rtCistern (v.sampled.route x)) (madeRec x 0x0C a.host.toNat)) 0#32
          else ok ((v.ftRead x).heldWith (.pendSet a.host x (rtCistern (v.sampled.route x)) .ok)) 0#32
        else ok ((v.ftRead x).swSet x a.host.toNat a.page) 0#32
      else ok ((v.ftRead x).spillRec (madeRec x 9 a.host.toNat)) 0#32 := by
  subst hx
  cases hen : rtEnable (v.sampled.route (bits w 16 0)) <;> simp [State.pendSet, Nat.not_lt.mpr h, had, hen, State.heldWith]

/-- A write that holds the ordering point is not answered before its record has been placed. -/
theorem State.answerUnlessHeld_pendSet {h : HostId} {c : Nat} (d : DWord) :
    (v.heldWith (.pendSet h x c .ok)).answerUnlessHeld .ok d = v.heldWith (.pendSet h x c .ok) := rfl

/-- Only an INTID below 4,096 has an entry of the fast table. -/
theorem State.ftRead_beyond (h : 4096 ≤ x) : v.ftRead x = v := by
  have hx : ¬ (64 ≤ x ∧ x < 4096) := by omega
  exact if_neg hx

end Sys2Proof.Machine
end

section
open Sys2Proof Sys2Proof.Machine

/-- Settles O16, by what the active slot of the class holds. -/
theorem endOfInterruptReleasesTheActiveInterrupt : Obligations.EndOfInterruptReleasesTheActiveInterrupt := by
  intro s v dt host core value page n fast x ho hv hn had hx
  subst hv hn
  have hlt : core.toNat < 256 := core.isLt
  have hexec : exec x s = s.portAccess dt (coreWrite host core.toNat (eoiOffset fast) value page) := by
    subst hx
    cases fast <;> rfl
  have hwrite : s.portAccess dt (coreWrite host core.toNat (eoiOffset fast) value page) =
      .next (s.left (((s.portEdge dt).eoi core.toNat fast value page).answerUnlessHeld .ok 0#64)) := by
    refine port_coreWrite_ok ho hlt had (by cases fast <;> decide) (by cases fast <;> rfl) fun a byte _ hpage => ?_
    rw [State.writeFrame_eoi hlt, hpage]
  rw [hexec, hwrite]
  refine ⟨fun h => ?_, fun a h hid ha => ?_, fun a r h hid hlo hhi hr => ?_⟩
  · rw [State.eoi_other h, State.answerUnlessHeld_none ((State.event_hold ..).trans (State.portOpen_hold ho))]
  · have hfree : ((((s.portEdge dt).freeSlot core.toNat fast).deactivate a.intid).updateInt a.intid
        (coreUnit core.toNat)).front.hold = none := (State.updateInt_hold ..).trans (State.portOpen_hold ho)
    rw [State.eoi_flops h hid ha,
      State.answerUnlessHeld_none ((State.count_hold ..).trans ((State.count_hold ..).trans hfree))]
  · rw [State.eoi_page h hid hlo hhi hr]

/-- Settles O17, by whether the target core's page admits the host. -/
theorem sgiSetsThePrivateInterrupt : Obligations.SgiSetsThePrivateInterrupt := by
  intro s v dt host core value ho hv had
  subst hv
  have hlt : core.toNat < 256 := core.isLt
  have hexec : exec (.sgiSend dt host core value) s = s.portAccess dt (coreWrite host core.toNat 0x48 value cleanRead) := rfl
  rw [hexec]
  refine ⟨fun h => ?_, fun h => ?_⟩
  · rw [← State.answerUnlessHeld_none ((State.count_hold ..).trans ((State.pend_hold ..).trans ((State.count_hold ..).trans
      (State.portOpen_hold ho))))]
    refine port_coreWrite_ok ho hlt had (by decide) rfl fun a byte hhost _ => ?_
    rw [State.writeFrame_sgi hlt, State.sgiSend_admitted (hhost ▸ h)]
  · refine port_coreWrite_refused ho hlt had (by decide) rfl (State.portOpen_hold ho) fun a byte hhost => ?_
    rw [State.writeFrame_sgi hlt, State.sgiSend_denied (hhost ▸ h)]

/-- Settles O18, by the INTID, its owner and its route. -/
theorem pendSetFollowsTheRoute : Obligations.PendSetFollowsTheRoute := by
  intro s v dt host core value page x u ho hv had hx hu
  subst hv hu
  have hlt : core.toNat < 256 := core.isLt
  have hopen := State.portOpen_hold ho
  have hread : ((s.portEdge dt).ftRead x).front.hold = none := (State.ftRead_hold ..).trans hopen
  have hexec : exec (.pendSet dt host core value page) s = s.portAccess dt (coreWrite host core.toNat 0x4C value page) := rfl
  have answered {t : State} (h : ∀ a byte, a.host = host → a.page = page →
      (s.portEdge dt).pendSet a byte core.toNat value = ok t 0#32) :
      exec (.pendSet dt host core value page) s = .next (s.left (t.answerUnlessHeld .ok 0#64)) :=
    hexec.trans (port_coreWrite_ok ho hlt had (by decide) rfl fun a byte hhost hpage =>
      (State.writeFrame_pendSet hlt).trans (h a byte hhost hpage))
  refine ⟨fun h => ?_, fun h hown => ?_, fun h hown => ⟨fun hen => ?_, fun hen hmode hroom => ?_, fun hen hmode hroom => ?_,
    fun hen hmode hlow => ?_, fun r hen hmode hhigh hr => ?_⟩⟩
  · rw [← State.answerUnlessHeld_none ((State.pend_hold ..).trans ((State.count_hold ..).trans hopen))]
    exact answered fun a byte _ _ => State.pendSet_ownCore hx h
  · rw [hexec]
    refine port_coreWrite_refused ho hlt had (by decide) rfl hread fun a byte hhost => ?_
    rw [State.writeFrame_pendSet hlt, State.pendSet_denied hx h (hhost ▸ hown)]
  · rw [← State.answerUnlessHeld_none (v := ((s.portEdge dt).ftRead x).spillRec _) hread]
    refine answered fun a byte hhost _ => ?_
    subst hhost
    rw [State.pendSet_shared hx h hown, hen]
    rfl
  · rw [← State.answerUnlessHeld_none (v := ((s.portEdge dt).ftRead x).pushLocal _ _) hread]
    refine answered fun a byte hhost _ => ?_
    subst hhost
    rw [State.pendSet_shared hx h hown, if_pos hen, if_pos hmode, if_pos hroom]
  · rw [← State.answerUnlessHeld_pendSet 0#64]
    refine answered fun a byte hhost _ => ?_
    subst hhost
    rw [State.pendSet_shared hx h hown, if_pos hen, if_pos hmode, hroom]
    rfl
  · rw [← State.answerUnlessHeld_none ((State.pend_hold ..).trans ((State.count_hold ..).trans hread))]
    refine answered fun a byte hhost _ => ?_
    subst hhost
    rw [State.pendSet_shared hx h hown, if_pos hen, hmode, State.swSet_flops (.inl hlow), State.ftRead_clock]
    rfl
  · have hx17 : x < 131072 := hx ▸ Nat.mod_lt _ (by decide)
    refine answered fun a byte hhost hpage => ?_
    subst hhost hpage
    rw [State.pendSet_shared hx h hown, if_pos hen, hmode, State.ftRead_beyond hhigh, State.swSet_page hhigh hx17 hr]
    rfl
end

section
/-! SUPPORT. How the head of a normal or of a fast FIFO takes effect (R118, R131, R220, R232, R253, R390). -/

namespace Sys2Proof.Machine
variable {s u : State} {dt p : Nat} {port : BitVec 4} {page : PageRead} {d : Doorbell} {rest : List Doorbell}

theorem exec_doorbellEffect (hu : s.elapse dt = u) (hr : u.running = true) (hp : port.toNat = p) :
    exec (.doorbellEffect dt port page) s = .next (s.left (u.effectN p page)) := by
  subst hu hp
  exact State.plane_on (f := fun s => s.effectN port.toNat page) hr

theorem exec_fastDoorbellEffect (hu : s.elapse dt = u) (hr : u.running = true) (hp : port.toNat = p) :
    exec (.fastDoorbellEffect dt port) s = .next (s.left (u.effectF p)) := by
  subst hu hp
  exact State.plane_on (f := fun s => s.effectF port.toNat) hr

/-! ### The normal channel -/

theorem State.effectN_notReady (h : u.headReady p = none) : u.effectN p page = u := by
  simp [State.effectN, h]

/-- The gate's verdict goes before any other outcome of a head. -/
theorem State.effectN_fault (h : u.headReady p = some d) (hg : d.gate ≠ 0) :
    u.effectN p page = u.headFault p d d.gate := by
  simp [State.effectN, h, hg]

theorem State.effectN_diverted {reason : BitVec 6} (h : u.headReady p = some d) (hg : d.gate = 0)
    (hd : d.divert = some reason) : u.effectN p page = u.headDivert p d reason.toNat := by
  simp [State.effectN, h, hg, hd]

theorem State.effectN_direct (h : u.headReady p = some d) (hg : d.gate = 0) (hd : d.divert = none)
    (hc : d.cistern = none) : u.effectN p page = u.headSet p d page := by
  simp [State.effectN, h, hg, hd, hc]

/-- A head that passed on a direct route leaves its FIFO with its INTID set and its doorbell settled. -/
def State.setByHead (u : State) (p : Nat) (d : Doorbell) : State :=
  ((((((u.passCounts d.attributed).fill p d).popN p).markError p d).pend (dbIntid d.data) (.doorbell d.accEdge)).settleDb p d.id
    1#2)

/-- An INTID held in flops is set without a page read (R217). -/
theorem State.headSet_flops (hx : dbIntid d.data < 4096) : u.headSet p d page = u.setByHead p d := by
  simp [State.headSet, State.setByHead, hx]

theorem State.headSet_page {r : PageResult × State} (hx : 4096 ≤ dbIntid d.data)
    (hr : u.readPage 2 (reservoirPage (dbIntid d.data)) 4 false page = r) :
    u.headSet p d page = if r.1.usable then r.2.setByHead p d else r.2.headDivert p d 6 := by
  simp [State.headSet, State.setByHead, Nat.not_lt.mpr hx, hr]

/-- A faulting head whose record the spillway takes, once its counts have been made, leaves its FIFO. -/
theorem State.headFault_taken {reason : Nat} {t : State} (h : (u.spillTake (dbRecord p d reason)).isSome = true)
    (ht : (u.faultCounts p d false reason d.attributed).spillTake (dbRecord p d reason) = some t) :
    u.headFault p d reason = t.popN p := by
  obtain ⟨_, hv⟩ := Option.isSome_iff_exists.mp h
  simp [State.headFault, hv, ht]

theorem State.headFault_waits {reason : Nat} (h : u.spillTake (dbRecord p d reason) = none) :
    u.headFault p d reason = u := by
  simp [State.headFault, h]

/-! ### The fast channel -/

@[simp] theorem State.passCounts_clock (s : State) (host : Nat) : (s.passCounts host).clock = s.clock := by
  simp [State.passCounts]

@[simp] theorem State.faultCounts_clock (s : State) (p : Nat) (d : Doorbell) (fast : Bool) (reason host : Nat) :
    (s.faultCounts p d fast reason host).clock = s.clock := by
  unfold State.faultCounts
  dsimp only
  split <;> simp [State.markCode, State.recordFault]

/-- The head of a fast FIFO waits for the fifth edge after its acceptance. -/
theorem State.effectF_early (h : (u.port p).fast = d :: rest) (he : u.clock.dp < d.acc + 5) : u.effectF p = u := by
  simp [State.effectF, h, he]

section Due
variable (h : (u.port p).fast = d :: rest) (he : d.acc + 5 ≤ u.clock.dp) (hl : (u.port p).lastFast ≠ some u.clock.dp)
include h he hl

theorem State.effectF_passed (hv : d.verdict = 0) :
    u.effectF p = ((((u.passCounts d.owner.toNat).modPort p fun x => { x with fast := rest, lastFast := some u.clock.dp }).pend
      (dbIntid d.data) (.doorbell d.accEdge)).settleDb p d.id 1#2) := by
  simp [State.effectF, h, Nat.not_lt.mpr he, hl, hv]

theorem State.effectF_waits (hv : d.verdict ≠ 0) (hq : 4 ≤ (u.sampled.port p).faultQueue.length) : u.effectF p = u := by
  simp [State.effectF, h, Nat.not_lt.mpr he, hl, hv, hq]

theorem State.effectF_faults (hv : d.verdict ≠ 0) (hq : (u.sampled.port p).faultQueue.length < 4) :
    u.effectF p = ((u.faultCounts p d true d.verdict d.owner.toNat).modPort p fun x =>
      { x with fast := rest, lastFast := some u.clock.dp }).modPort p fun x =>
        { x with faultQueue := x.faultQueue ++ [dbRecord p d d.verdict] } := by
  simp [State.effectF, h, Nat.not_lt.mpr he, hl, hv, Nat.not_le.mpr hq]
end Due

end Sys2Proof.Machine
end

section
open Sys2Proof Sys2Proof.Machine

/-- Settles O21, by the verdict and the route of the head, on each channel. -/
theorem doorbellsTakeEffectByTheirVerdict : Obligations.DoorbellsTakeEffectByTheirVerdict := by
  refine ⟨?_, ?_⟩
  · intro s u dt port page p hu hr hp
    rw [exec_doorbellEffect hu hr hp]
    refine ⟨fun h => ?_, fun d h hg hd hc hx => ?_, fun d r h hg hd hc hx hpage => ⟨fun huse => ?_, fun huse => ?_⟩,
      fun d reason h hg hd => ?_, fun d t h hg hsome ht => ?_, fun d h hg hnone => ?_⟩
    · rw [State.effectN_notReady h]
    · rw [State.effectN_direct h hg hd hc, State.headSet_flops hx]
      rfl
    · rw [State.effectN_direct h hg hd hc, State.headSet_page hx hpage, if_pos huse]
      rfl
    · rw [State.effectN_direct h hg hd hc, State.headSet_page hx hpage, huse]
      rfl
    · rw [State.effectN_diverted h hg hd]
    · rw [State.effectN_fault h hg, State.headFault_taken hsome ht]
    · rw [State.effectN_fault h hg, State.headFault_waits hnone]
  · intro s u dt port p d rest hu hr hp hfast
    rw [exec_fastDoorbellEffect hu hr hp]
    refine ⟨fun he => ?_, fun he hl => ⟨fun hv => ?_, fun hv hq => ?_, fun hv hq => ?_⟩⟩
    · rw [State.effectF_early hfast he]
    · rw [State.effectF_passed hfast he hl hv]
    · rw [State.effectF_waits hfast he hl hv hq]
    · rw [State.effectF_faults hfast he hl hv hq]
end

section
/-! SUPPORT. How the oldest non-posted doorbell of a port is answered (R122, R126). -/

namespace Sys2Proof.Machine
variable {u : State} {p : Nat} {a : Awaiting} {rest : List Awaiting} {c : BitVec 2}

theorem exec_dbResponse {s : State} {dt : Nat} {port : BitVec 4} (hu : s.elapse dt = u) (hr : u.running = true)
    (hp : port.toNat = p) : exec (.dbResponse dt port) s = .next (s.left (u.respond p)) := by
  subst hu hp
  exact State.plane_on (f := fun s => s.respond port.toNat) hr

/-- The oldest doorbell has not settled: none behind it is answered either. -/
theorem State.respond_unsettled (h : (u.port p).awaiting = a :: rest) (hc : a.code = none) : u.respond p = u := by
  simp [State.respond, h, hc]

theorem State.respond_early (h : (u.port p).awaiting = a :: rest) (hc : a.code = some c)
    (he : (u.port p).respAt = some u.clock.edge ∨ u.clock.edge ≤ a.settledAt) : u.respond p = u := by
  simp [State.respond, h, hc, he]

theorem State.respond_due (h : (u.port p).awaiting = a :: rest) (hc : a.code = some c)
    (hn : (u.port p).respAt ≠ some u.clock.edge) (he : a.settledAt < u.clock.edge) :
    u.respond p =
      if a.discard then
        (u.modPort p fun x => { x with awaiting := rest, resp := 0#2, respAt := some u.clock.edge }).count (fPort p) 9
      else u.modPort p fun x => { x with awaiting := rest, resp := c, respAt := some u.clock.edge } := by
  simp [State.respond, h, hc, hn, Nat.not_le.mpr he]

end Sys2Proof.Machine
end

section
open Sys2Proof Sys2Proof.Machine

/-- Settles O23, by whether the oldest doorbell has settled, its edge has come, and its response is to be driven. -/
theorem responsesLeaveInOrder : Obligations.ResponsesLeaveInOrder := by
  intro s u dt port p a rest hu hr hp h
  rw [exec_dbResponse hu hr hp]
  refine ⟨fun hc => ?_, fun c hc he => ?_, fun c hc hn he hd => ?_, fun c hc hn he hd => ?_⟩
  · rw [State.respond_unsettled h hc]
  · rw [State.respond_early h hc he]
  · rw [State.respond_due h hc hn he, hd]
    rfl
  · rw [State.respond_due h hc hn he, if_pos hd]
end

section
/-! SUPPORT. A granted route or rights item at its write edge, its page read clean (R132 to R135, R156, R158). -/

namespace Sys2Proof.Machine
variable {s u : State} {dt g : Nat} {page : PageRead} {r : Run} {i : List Byte} {rest : List (List Byte)}

theorem exec_routeItemWrite (hu : s.elapse dt = u) (hr : u.running = true) :
    exec (.routeItemWrite dt page) s = .next (s.left (u.routeItem page)) := by
  subst hu
  exact State.plane_on (f := fun s => s.routeItem page) hr

theorem exec_rightsItemWrite (hu : s.elapse dt = u) (hr : u.running = true) :
    exec (.rightsItemWrite dt page) s = .next (s.left (u.rightsItem page)) := by
  subst hu
  exact State.plane_on (f := fun s => s.rightsItem page) hr

/-- A page that needed no correction is written three edges after its grant (R156). -/
@[simp] theorem writeEdge_clean (g : Nat) : writeEdge g 0 = g + 3 := rfl

/-- Route `x` written at this edge, the old entry kept in the commit shadow and nothing left that the write has made
untenable. -/
def State.routeWritten (u : State) (x : Nat) (e : DWord) : State :=
  (((u.rewriteEpoch 0 (u.routes.rt.physical (x / 8))).shadowWrite false x).setRoute x e).emptyCaches.recheck

theorem State.routeItem_clean {x : Nat} (hph : u.phaseOf 0x10 .items = some r) (htodo : r.todo = i :: rest)
    (hg : r.granted = some g) (hx : ofLe (i.take 4) % 131072 = x) (hs : u.pagesSound)
    (hep : u.epochBad 0 (u.routes.rt.physical (x / 8)) = false) :
    u.routeItem cleanRead =
      if u.clock.dp < g + 3 then u
      else (((u.routeWritten x (BitVec.ofNat 64 (ofLe (i.drop 4)))).count fRoute 14).unlock 0
        (u.routes.rt.bank (x / 8))).nextItem r := by
  subst hx
  simp [State.routeItem, hph, htodo, hg, State.readPage_clean hs hep, State.routeWritten]

/-- A half of a rights entry after an item: the item's bytes where it names the half, else what the half held. -/
def halfAfter (i : List Byte) (old : BitVec 128) : Bool → DWord
  | false => if gwHalves i % 2 = 1 then gwHalf i false else rgHalf old false
  | true => if 2 ≤ gwHalves i then gwHalf i true else rgHalf old true

/-- The rights entry of an item written at this edge, half by half, the old entry kept in the commit shadow. -/
def State.rightsWritten (u : State) (i : List Byte) : State :=
  let w := (u.rewriteEpoch 1 (u.routes.rg.physical (gwRid i / 4))).shadowWrite true (gwRid i)
  let old := u.rightsEntry (gwRid i)
  State.emptyCaches { w with
    gate.rights := ins 0#128 w.gate.rights (gwRid i) (rgJoin (halfAfter i old false) (halfAfter i old true)) }

/-- The host of the command names the half in force for itself (R135). -/
def State.namesInForce (u : State) (h : Nat) (i : List Byte) : Bool := gwNames i (bit u.sampled.gate.setB h)

theorem State.rightsItem_clean (hph : u.phaseOf 0x20 .items = some r) (htodo : r.todo = i :: rest)
    (hg : r.granted = some g) (hs : u.pagesSound) (hep : u.epochBad 1 (u.routes.rg.physical (gwRid i / 4)) = false)
    (he : g + 3 ≤ u.clock.dp) :
    u.rightsItem cleanRead =
      if r.cmd.host ≠ 0 && u.namesInForce r.cmd.host i then u.failItem r stDenied 1 (u.routes.rg.bank (gwRid i / 4))
      else (((u.rightsWritten i).count fGate 6).unlock 1 (u.routes.rg.bank (gwRid i / 4))).nextItem r := by
  have hread : u.readPage 1 (u.routes.rg.physical (ofLe (i.take 2) / 4)) 3 false cleanRead = (⟨true, false, 0⟩, u) :=
    State.readPage_clean hs hep
  simp only [State.rightsItem, hph, htodo, hg, hread, writeEdge_clean, Nat.not_lt.mpr he, if_false, Bool.not_true,
    Bool.false_eq_true]
  rfl

end Sys2Proof.Machine
end

section
open Sys2Proof Sys2Proof.Machine

/-- Settles O26: each item by its write edge, a rights item also by whether its host names the half in force. -/
theorem itemsWriteTheStores : Obligations.ItemsWriteTheStores := by
  refine ⟨?_, ?_⟩
  · intro s u w dt r i rest g x hu hr hph htodo hg hx hs hep
    rw [exec_routeItemWrite hu hr, State.routeItem_clean hph htodo hg hx hs hep]
    refine ⟨fun he => ?_, fun he hw => ?_⟩
    · rw [if_pos he]
    · subst hw
      rw [if_neg (Nat.not_lt.mpr he)]
      rfl
  · intro s u dt r i rest g rid halves a b old names hu hr hph htodo hg hrid hhalves hold hs hep he hnames ha hb
    subst hrid hhalves hold
    have hforce : u.namesInForce r.cmd.host i = names := hnames
    have hfirst : halfAfter i (u.rightsEntry (gwRid i)) false = a := ha
    have hsecond : halfAfter i (u.rightsEntry (gwRid i)) true = b := hb
    rw [exec_rightsItemWrite hu hr, State.rightsItem_clean hph htodo hg hs hep he, hforce]
    refine ⟨fun hpermit w hw => ?_, fun hhost hn => ?_⟩
    · have hfree : ¬ (r.cmd.host ≠ 0 && names) = true := by
        rcases hpermit with h | h <;> simp [h]
      rw [if_neg hfree, State.rightsWritten, hfirst, hsecond, ← hw]
      rfl
    · rw [if_pos (by simp [hhost, hn])]
      rfl
end

section
/-! SUPPORT. The table commands: their checks, and the start and the write edges of their items (R133, R134, R157, R205, R214). -/

namespace Sys2Proof.Machine
variable {s u : State} {dt : Nat} {r : Run} {i : List Byte} {rest : List (List Byte)}

theorem exec_routeWrite (hu : s.elapse dt = u) (hr : u.running = true) :
    exec (.routeWrite dt) s = .next (s.left u.cmdRouteWrite) := by
  subst hu
  exact State.keeperBy_on hr

theorem exec_rightsWrite (hu : s.elapse dt = u) (hr : u.running = true) :
    exec (.rightsWrite dt) s = .next (s.left u.cmdRightsWrite) := by
  subst hu
  exact State.keeperBy_on hr

theorem exec_fastWrite (hu : s.elapse dt = u) (hr : u.running = true) :
    exec (.fastWrite dt) s = .next (s.left u.cmdFastWrite) := by
  subst hu
  exact State.keeperBy_on hr

theorem exec_groupWrite {pages : List PageRead} (hu : s.elapse dt = u) (hr : u.running = true) :
    exec (.groupWrite dt pages) s = .next (s.left (u.cmdGroupWrite pages)) := by
  subst hu
  exact State.keeperBy_on (f := fun s => s.cmdGroupWrite pages) hr

/-! ### The commit-shadow entry of an item (R133) -/

/-- A commit-shadow entry reserved by an item and not written yet. -/
def Run.reserved (r : Run) : Shadow :=
  { rights := decide (r.cmd.opcode = 0x20#8), idx := 0, old := 0#128, edge := none }

theorem State.reserveShadow_room {counted : Bool} (h : u.gate.shadow.length < 16) :
    u.reserveShadow r counted =
      State.setRun { u with gate.shadow := u.gate.shadow ++ [r.reserved] } { r with marked := true } := by
  have hroom : u.shadowUsed + 1 ≤ 16 := h
  simp only [State.reserveShadow, State.reserveShadows, hroom, if_true]
  rfl

theorem State.reserveShadow_full (h : 16 ≤ u.gate.shadow.length) :
    u.reserveShadow r true = (u.setRun { r with marked := false }).count fGate 7 := by
  have hfull : ¬ u.shadowUsed + 1 ≤ 16 := Nat.not_le.mpr (Nat.lt_succ_of_le h)
  simp only [State.reserveShadow, State.reserveShadows, hfull, if_false, if_true]

/-! ### ROUTE_WRITE and RIGHTS_WRITE (R134, R157) -/

/-- What the checks of ROUTE_WRITE have read of the fast table once the items' shapes are right (R216). -/
def State.routeRead (u : State) (c : Cmd) : State :=
  if routeShapes c = stOk then u.ftReads (((c.itemList 12).filter fun i => rtClass (riEntry i)).map riIntid) else u

theorem State.cmdRouteWrite_fails (h : u.runOf 0x10 .fresh = some r) (hst : u.routeChecks r.cmd ≠ stOk) :
    u.cmdRouteWrite = (u.routeRead r.cmd).endCount (u.routeChecks r.cmd) 0 := by
  simp only [State.cmdRouteWrite, h, if_pos hst, State.routeRead]

theorem State.cmdRouteWrite_passes (h : u.runOf 0x10 .fresh = some r) (hst : u.routeChecks r.cmd = stOk) :
    u.cmdRouteWrite = (u.routeRead r.cmd).routeCisterns (r.cmd.items + 1) r := by
  simp only [State.cmdRouteWrite, h, hst, ne_eq, not_true, if_false, State.routeRead]

theorem Cmd.itemList_one {c : Cmd} (h : c.items = 1) (k : Nat) : c.itemList k = [(c.payload.drop 4).take k] := by
  simp [Cmd.itemList, h, cut]

/-- H0 may name any cistern: the one item of its command is begun at once. -/
theorem State.routeCisterns_one (h : r.cmd.items = 1) (hstep : r.step = 0) (hhost : r.cmd.host = 0) :
    u.routeCisterns (r.cmd.items + 1) r = u.reserveShadow (({ r with step := 1 } : Run).beginItems 12) true := by
  simp [h, State.routeCisterns, hstep, hhost, Cmd.itemList_one h, twice]

theorem State.cmdRightsWrite_fails (h : u.runOf 0x20 .fresh = some r) (hst : u.rightsChecks r.cmd ≠ stOk) :
    u.cmdRightsWrite = u.endCount (u.rightsChecks r.cmd) 0 := by
  simp only [State.cmdRightsWrite, h, if_pos hst]

theorem State.cmdRightsWrite_passes (h : u.runOf 0x20 .fresh = some r) (hst : u.rightsChecks r.cmd = stOk) :
    u.cmdRightsWrite = u.reserveShadow (r.beginItems 20) true := by
  simp only [State.cmdRightsWrite, h, hst, ne_eq, not_true, if_false]

/-! ### FAST_WRITE (R214, R216) -/

/-- A read of the fast table takes no failover and ends none: its vote goes into the record of votes only. -/
@[simp] theorem State.ftRead_frozen (u : State) (x : Nat) : (u.ftRead x).frozen = u.frozen := by
  have hvote (copy : Nat) : (u.voteFixed false copy 0 0 x).frozen = u.frozen := by
    simp [State.frozen, State.voteFixed]
  unfold State.ftRead State.ftFix
  split
  · split
    · rfl
    · split
      · rfl
      · next copy _ => exact hvote copy
  · rfl

@[simp] theorem State.ftReads_frozen (u : State) (l : List Nat) : (u.ftReads l).frozen = u.frozen := by
  induction l generalizing u with
  | nil => rfl
  | cons x l ih => exact (ih _).trans (u.ftRead_frozen x)

/-- What the checks of FAST_WRITE have read of the fast table once the items' shapes are right (R216). -/
def State.fastRead (u : State) (c : Cmd) : State :=
  if fastShapes c = stOk then u.ftReads (((c.itemList 4).filter fun i => !fiEn i).map fiIntid) else u

theorem State.fastRead_frozen (u : State) (c : Cmd) : (u.fastRead c).frozen = u.frozen := by
  unfold State.fastRead
  split <;> simp

/-- An item of FAST_WRITE sets the enable of its entry and counts. -/
def State.fastItem (u : State) (i : List Byte) : State := (u.setFastEn (fiIntid i) (fiEn i)).count fFast 8

theorem State.cmdFastWrite_fails (h : u.runOf 0x11 .fresh = some r) (hst : u.fastChecks r.cmd ≠ stOk) :
    u.cmdFastWrite = (u.fastRead r.cmd).endCount (u.fastChecks r.cmd) 0 := by
  simp only [State.cmdFastWrite, h, if_pos hst, State.fastRead]

theorem State.cmdFastWrite_passes (h : u.runOf 0x11 .fresh = some r) (hst : u.fastChecks r.cmd = stOk) :
    u.cmdFastWrite = (u.fastRead r.cmd).plainItem (r.beginItems 4) fun i s => s.fastItem i := by
  simp only [State.cmdFastWrite, h, hst, ne_eq, not_true, if_false, State.fastRead]
  rfl

/-- An item written at an edge at which none has been written yet: the command goes on, or ends with its last item. -/
theorem State.plainItem_writes {write : List Byte → State → State} (htodo : r.todo = i :: rest) (hg : r.granted = none)
    (hf : u.frozen = false) :
    u.plainItem r write =
      let w := write i u
      let v := w.setRun { r with todo := rest, written := r.written + 1, granted := some w.clock.edge }
      if rest = [] then v.endCount stOk (r.written + 1) else v := by
  simp [State.plainItem, htodo, hg, hf]

/-! ### GROUP_WRITE (R205) -/

theorem State.cmdGroupWrite_fails {pages : List PageRead} (h : u.runOf 0x12 .fresh = some r)
    (hst : u.groupChecks r.cmd ≠ stOk) : u.cmdGroupWrite pages = u.endCount (u.groupChecks r.cmd) 0 := by
  simp only [State.cmdGroupWrite, h, if_pos hst]

theorem State.cmdGroupWrite_passes {pages : List PageRead} (h : u.runOf 0x12 .fresh = some r)
    (hst : u.groupChecks r.cmd = stOk) : u.cmdGroupWrite pages = u.setRun (r.beginItems 8) := by
  simp only [State.cmdGroupWrite, h, hst, ne_eq, not_true, if_false]

theorem State.cmdGroupWrite_items {page : PageRead} (h : u.runOf 0x12 .items = some r) :
    u.cmdGroupWrite [page] = u.groupStep r page := by
  have hfresh : u.runOf 0x12 .fresh = none := State.runOf_other h (by decide)
  simp [State.cmdGroupWrite, h, hfresh]

theorem State.groupStep_ungranted {page : PageRead} (hg : r.granted = none) : u.groupStep r page = u := by
  unfold State.groupStep
  split
  · next hsome => simp [hg] at hsome
  · rfl

/-- A granted item whose group-state page reads clean is written three edges after its grant (R156, R194). -/
theorem State.groupStep_clean {g : Nat} (htodo : r.todo = i :: rest) (hg : r.granted = some g) (hs : u.pagesSound) :
    u.groupStep r cleanRead =
      if u.clock.dp < g + 3 then u
      else
        let v := (((u.groupItem i).wroteWhole 3 (giGroup i / 4)).unlock 3 0).setRun
          { r with todo := rest, written := r.written + 1, granted := none }
        if rest = [] then v.endCount stOk (r.written + 1) else v := by
  have hread : u.readPage 3 (giGroup i / 4) 3 false cleanRead = (⟨true, false, 0⟩, u) :=
    State.readPage_clean hs (State.epochBad_other (by decide))
  simp [State.groupStep, htodo, hg, hread]

end Sys2Proof.Machine
end

section
open Sys2Proof Sys2Proof.Machine

/-- Settles O44, command by command: its checks fail, or its first item is taken up; and the write edge of a group's item. -/
theorem tableCommandsCheckThenWriteTheirItems : Obligations.TableCommandsCheckThenWriteTheirItems := by
  intro s u dt r hu hr
  refine ⟨fun w h hw => ⟨fun st hst hbad => ?_, fun hst hone hstep hhost => ⟨fun hroom => ?_, fun hfull => ?_⟩⟩,
    fun h => ⟨fun st hst hbad => ?_, fun hst hroom => ?_⟩,
    fun h v w hv => ⟨fun st hst hbad => ?_, fun i rest hst hitems hw => ?_⟩,
    fun h pages => ⟨fun st hst hbad => ?_, fun hst => ?_⟩,
    fun h w i rest g htodo hs => ⟨fun hg => ?_, fun hg he => ?_, fun hg he hw => ?_⟩⟩
  · have hread : u.routeRead r.cmd = w := hw
    subst hst
    rw [exec_routeWrite hu hr, State.cmdRouteWrite_fails h hbad, hread]
  · have hread : u.routeRead r.cmd = w := hw
    rw [exec_routeWrite hu hr, State.cmdRouteWrite_passes h hst, State.routeCisterns_one hone hstep hhost, hread,
      State.reserveShadow_room hroom]
    rfl
  · have hread : u.routeRead r.cmd = w := hw
    rw [exec_routeWrite hu hr, State.cmdRouteWrite_passes h hst, State.routeCisterns_one hone hstep hhost, hread,
      State.reserveShadow_full hfull]
    rfl
  · subst hst
    rw [exec_rightsWrite hu hr, State.cmdRightsWrite_fails h hbad]
  · rw [exec_rightsWrite hu hr, State.cmdRightsWrite_passes h hst, State.reserveShadow_room hroom]
    rfl
  · have hread : u.fastRead r.cmd = v := hv
    subst hst
    rw [exec_fastWrite hu hr, State.cmdFastWrite_fails h hbad, hread]
  · have hread : u.fastRead r.cmd = v := hv
    have hfrozen : v.frozen = false := hread ▸ (u.fastRead_frozen r.cmd).trans (State.not_frozen_of_running hr)
    subst hw
    rw [exec_fastWrite hu hr, State.cmdFastWrite_passes h hst, hread, State.plainItem_writes hitems rfl hfrozen]
    rfl
  · subst hst
    rw [exec_groupWrite hu hr, State.cmdGroupWrite_fails h hbad]
  · rw [exec_groupWrite hu hr, State.cmdGroupWrite_passes h hst]
    rfl
  · rw [exec_groupWrite hu hr, State.cmdGroupWrite_items h, State.groupStep_ungranted hg]
  · rw [exec_groupWrite hu hr, State.cmdGroupWrite_items h, State.groupStep_clean htodo hg hs, if_pos he]
  · subst hw
    rw [exec_groupWrite hu hr, State.cmdGroupWrite_items h, State.groupStep_clean htodo hg hs,
      if_neg (Nat.not_lt.mpr he)]
end

section
/-! SUPPORT. The reporting commands (R307, R311, R313 to R316, R345) and the digests of the configuration (R315, R347,
R390). -/

namespace Sys2Proof.Machine
variable {s u : State} {dt : Nat} {r : Run} {found : List SweptPage}

/-- A keeper's step leaves what its function makes of the state at its edge. -/
theorem State.keeperBy_eq {f : State → State} {t : State} (hu : s.elapse dt = u) (hr : u.running = true)
    (hf : f u = t) : s.keeperBy dt f = .next (s.left t) := by
  subst hu hf
  exact State.keeperBy_on hr

theorem State.endZero_of_run {st : Nat} (h : u.keeper.run = some r) : u.endZero st = u.endRun st r.cmd.blank := by
  simp only [State.endZero, h]

/-! ### Reports at their own edge -/

theorem State.cmdNop_fresh (h : u.runOf 0x00 .fresh = some r) : u.cmdNop = u.endRun stOk [] := by
  simp only [State.cmdNop, h]

theorem State.cmdInfo_fresh (h : u.runOf 0x01 .fresh = some r) :
    u.cmdInfo = u.endRun stOk
      (leBytes 4 keepVersion.toNat ++ leBytes 1 u.lifecycle ++
        leBytes 1 ((if u.anyMarg then 1 else 0) + (if u.levels.rndHealth then 0 else 2) +
          (if u.keeper.staged.isSome then 4 else 0)) ++
        leBytes 1 u.userEpoch ++ zeros 1 ++ leBytes 4 u.sampled.clock.sclkCount.toNat ++ leBytes 2 u.pump.bootId.toNat ++
        zeros 2) := by
  simp only [State.cmdInfo, h]

/-- Copying the counters into their holding pairs leaves the number of the last snapshot. -/
theorem State.foldl_holdCounter_snapSeq (b : State) (l : List Nat) (u : State) :
    (l.foldl b.holdCounter u).front.snapSeq = u.front.snapSeq := by
  induction l generalizing u with
  | nil => rfl
  | cons k l ih => exact ih _

/-- The first snapshot of an edge takes the next number (R55). -/
theorem State.takeSnapshot_snapSeq (h : u.front.snapAt ≠ some u.clock.edge) :
    u.takeSnapshot.front.snapSeq = u.front.snapSeq + 1 := by
  simp only [State.takeSnapshot, if_neg h, State.foldl_holdCounter_snapSeq]

theorem State.cmdSnapshot_fresh (h : u.runOf 0x40 .fresh = some r) :
    u.cmdSnapshot = u.takeSnapshot.endRun stOk (leBytes 4 u.takeSnapshot.front.snapSeq.toNat) := by
  simp only [State.cmdSnapshot, h]

theorem State.cmdTwinStatus_fresh (h : u.runOf 0xA0 .fresh = some r) :
    u.cmdTwinStatus = u.endRun stOk
      (leBytes 1 u.twin.pair.code ++ leBytes 1 (if u.twin.leadB then 1 else 0) ++ leBytes 1 (min u.twin.retries 3) ++
        zeros 1 ++ leBytes 4 (u.countOf fTwin 3) ++ leBytes 1 (bits u.twin.lastEvent 30 28) ++ zeros 3) := by
  simp only [State.cmdTwinStatus, h]

/-- The result of a STAGE_STATUS with nothing staged (R313). -/
theorem Cmd.blank_stageStatus {c : Cmd} (h : c.opcode = 0x62#8) : c.blank = zeros 76 := by
  rw [Cmd.blank, h]
  rfl

theorem State.cmdStageStatus_empty (h : u.runOf 0x62 .fresh = some r) (hg : u.keeper.staged = none) :
    u.cmdStageStatus = u.endRun stOk (zeros 76) := by
  obtain ⟨_, _, _, hop, _, _⟩ := State.runOf_fields h
  simp only [State.cmdStageStatus, h, hg, Cmd.blank_stageStatus hop]

theorem State.cmdStageStatus_staged {g : Staged} (h : u.runOf 0x62 .fresh = some r) (hg : u.keeper.staged = some g) :
    u.cmdStageStatus = u.endRun stOk
      (leBytes 4 g.stageId.toNat ++ [g.kind, BitVec.ofNat 8 g.approvals.length] ++ zeros 2 ++
        leBytes 4 g.windowEnd.toNat ++ g.nonce ++ g.digest) := by
  simp only [State.cmdStageStatus, h, hg]

theorem State.cmdOfficerList_fresh (h : u.runOf 0x71 .fresh = some r) :
    u.cmdOfficerList = u.endRun stOk
      (leBytes 1 u.occupied ++ zeros 3 ++ u.slotDigest ++ ((List.range 8).map u.slotBytes).flatten) := by
  simp only [State.cmdOfficerList, h]

theorem State.cmdCertRead_marginal (h : u.runOf 0x81 .fresh = some r) (hm : u.anyMarg = true) :
    u.cmdCertRead = u.endZero stMarginal := by
  simp only [State.cmdCertRead, h, hm, if_true]

theorem State.cmdCertRead_sound (h : u.runOf 0x81 .fresh = some r) (hm : u.anyMarg = false) :
    u.cmdCertRead = u.endRun stOk (leBytes 2 u.certificate.length ++ zeros 2 ++ u.certificate) := by
  simp only [State.cmdCertRead, h, hm, Bool.false_eq_true, if_false]

theorem State.cmdSha_fresh (h : u.runOf 0x90 .fresh = some r) : u.cmdSha = u.endRun stOk (sha256 r.cmd.payload) := by
  simp only [State.cmdSha, h]

/-! ### CONFIG_DIGEST (R315, R347) -/

theorem exec_configDigest {t : State} (hu : s.elapse dt = u) (hr : u.running = true) (hf : u.cmdConfigDigest found = t) :
    exec (.configDigest dt found) s = .next (s.left t) :=
  State.keeperBy_eq (f := fun s => s.cmdConfigDigest found) hu hr hf

/-- CONFIG_DIGEST's scope is its first byte. -/
theorem Run.scope_configDigest {ph : Phase} (h : u.runOf 0x91 ph = some r) : r.scope = ofLe (r.cmd.payload.take 1) := by
  obtain ⟨_, _, _, hop, _, _⟩ := State.runOf_fields h
  rw [Run.scope, hop, if_neg (by decide)]

/-- The parts that the low four bits of a scope name, joined in bit order. -/
def namedParts (scope : Nat) (a b c d : List Byte) : List Byte :=
  ((([(0, a), (1, b), (2, c), (3, d)] : List (Nat × List Byte)).filter fun e => scope.testBit e.1).map Prod.snd).flatten

theorem State.digestsOf_eq (u : State) (scope : Nat) :
    u.digestsOf scope = namedParts scope u.routeDigest u.rightsDigest u.vaultDigest u.slotDigest := rfl

section
variable (a b c d : List Byte)

theorem namedParts_routes : namedParts 1 a b c d = a := by simp [namedParts, Nat.testBit]
theorem namedParts_rights : namedParts 2 a b c d = b := by simp [namedParts, Nat.testBit]
theorem namedParts_vaults : namedParts 4 a b c d = c := by simp [namedParts, Nat.testBit]
theorem namedParts_slots : namedParts 8 a b c d = d := by simp [namedParts, Nat.testBit]
theorem namedParts_flops : namedParts 12 a b c d = c ++ d := by simp [namedParts, Nat.testBit]
theorem namedParts_all : namedParts 15 a b c d = a ++ (b ++ (c ++ d)) := by simp [namedParts, Nat.testBit]

end

/-- A scope of neither page store is answered at once. -/
theorem State.cmdConfigDigest_flops (h : u.runOf 0x91 .fresh = some r) (h0 : r.scope.testBit 0 = false)
    (h1 : r.scope.testBit 1 = false) : u.cmdConfigDigest found = u.endRun stOk (u.digestsOf r.scope) := by
  simp only [State.cmdConfigDigest, h, h0, h1, Bool.or_self, Bool.false_eq_true, if_false]

theorem State.cmdConfigDigest_pages (h : u.runOf 0x91 .fresh = some r)
    (hp : r.scope.testBit 0 = true ∨ r.scope.testBit 1 = true) : u.cmdConfigDigest found = u.beginDigest r := by
  simp only [State.cmdConfigDigest, h, Bool.or_eq_true, if_pos hp]

/-- A reading that goes on: the command waits for it. -/
theorem State.cmdConfigDigest_reading (h : u.runOf 0x91 .items = some r) (hn : u.digestNext.isSome = true) :
    u.cmdConfigDigest found = u := by
  have hfresh : u.runOf 0x91 .fresh = none := State.runOf_other h (by decide)
  have hend : u.digestEnd r found = none := if_pos hn
  simp only [State.cmdConfigDigest, h, hfresh, hend]

/-- Every page of the scope is read, and each was clean. -/
theorem State.cmdConfigDigest_read (h : u.runOf 0x91 .items = some r) (ha : u.digestAt = none) :
    u.cmdConfigDigest [] = u.endRun stOk (u.digestsOf r.scope) := by
  have hfresh : u.runOf 0x91 .fresh = none := State.runOf_other h (by decide)
  have hn : u.digestNext = none := by simp [State.digestNext, ha]
  have hend : u.digestEnd r [] = some (true, u) := by simp [State.digestEnd, State.digestPages, ha, hn]
  simp only [State.cmdConfigDigest, h, hfresh, hend]

/-- The reading stops at a poisoned page (R390). -/
theorem State.cmdConfigDigest_poisoned (h : u.runOf 0x91 .items = some r) (ha : u.digestAt.isSome = true)
    (hn : u.digestNext = none) :
    u.cmdConfigDigest found =
      (u.count fIntegrity 8).endRun stUncorr (zeros ((u.count fIntegrity 8).digestsOf r.scope).length) := by
  have hfresh : u.runOf 0x91 .fresh = none := State.runOf_other h (by decide)
  have hend : u.digestEnd r found = some (false, u.count fIntegrity 8) := by simp [State.digestEnd, ha, hn]
  simp only [State.cmdConfigDigest, h, hfresh, hend]

end Sys2Proof.Machine
end

section
open Sys2Proof Sys2Proof.Machine

/-- Settles O43, command by command: each report at its own edge, a digest by its scope and by what its reading found. -/
theorem reportCommandsReturnTheirFields : Obligations.ReportCommandsReturnTheirFields := by
  intro s u dt r hu hr
  refine ⟨fun h => State.keeperBy_eq hu hr (State.cmdNop_fresh h),
    fun h => State.keeperBy_eq hu hr (State.cmdInfo_fresh h),
    fun h hs => State.keeperBy_eq hu hr ?_, fun h => State.keeperBy_eq hu hr (State.cmdTwinStatus_fresh h),
    fun h => ⟨fun hg => State.keeperBy_eq hu hr (State.cmdStageStatus_empty h hg),
      fun g hg => State.keeperBy_eq hu hr (State.cmdStageStatus_staged h hg)⟩,
    fun h => State.keeperBy_eq hu hr (State.cmdOfficerList_fresh h),
    fun h => ⟨fun hm => State.keeperBy_eq hu hr (State.cmdCertRead_marginal h hm),
      fun hm => State.keeperBy_eq hu hr (State.cmdCertRead_sound h hm)⟩,
    fun h => State.keeperBy_eq hu hr (State.cmdSha_fresh h), fun h scope found hscope => ?_, fun h scope hscope => ?_⟩
  · rw [State.cmdSnapshot_fresh h, State.takeSnapshot_snapSeq hs]
  · have hsc : r.scope = scope := (Run.scope_configDigest h).trans hscope
    subst hsc
    refine ⟨fun e => ?_, fun e => ?_, fun e => ?_, fun hp =>
      exec_configDigest hu hr (State.cmdConfigDigest_pages h hp)⟩
    all_goals
      rw [exec_configDigest hu hr (State.cmdConfigDigest_flops h (by rw [e]; rfl) (by rw [e]; rfl)),
        State.digestsOf_eq, e]
    · rw [namedParts_slots]
    · rw [namedParts_vaults]
    · rw [namedParts_flops]
  · have hsc : r.scope = scope := (Run.scope_configDigest h).trans hscope
    subst hsc
    refine ⟨fun hn found => exec_configDigest hu hr (State.cmdConfigDigest_reading h hn),
      fun ha => ⟨fun e => ?_, fun e => ?_, fun e => ?_⟩,
      fun ha hn found => exec_configDigest hu hr (State.cmdConfigDigest_poisoned h ha hn)⟩
    all_goals rw [exec_configDigest hu hr (State.cmdConfigDigest_read h ha), State.digestsOf_eq, e]
    · rw [namedParts_routes]
    · rw [namedParts_rights]
    · rw [namedParts_all]
end

section
/-! SUPPORT. The resumable table and integrity commands: the admission to their group, and how each starts and
ends (R161, R304, R394, R398). -/

namespace Sys2Proof.Machine
variable {s u : State} {dt : Nat} {r : Run}

/-! ### The admission to a group (R304) -/

/-- Another mailbox holds a live token of the group. -/
theorem State.enterGroup_token {c : Cmd} {g : Nat} (hg : opGroup c.opcode.toNat = some g)
    (h : ∃ m ∈ u.tokensOf g, m ≠ c.host) : u.enterGroup c = none := by
  simp only [State.enterGroup, hg]
  exact if_pos (by simpa using h)

/-- A re-pair attempt keeps SCRUB and STRENGTH_SET out (R374). -/
theorem State.enterGroup_repair {c : Cmd} (hg : opGroup c.opcode.toNat = some 1) (h : u.twin.repair.isSome = true) :
    u.enterGroup c = none := by
  simp [State.enterGroup, hg, h]

/-- No token of the group is live: a command of it enters, and voids nothing. -/
theorem State.enterGroup_free {c : Cmd} {g : Nat} (hg : opGroup c.opcode.toNat = some g) (h : u.tokensOf g = [])
    (hi : g = 1 → u.reencodeHolds = false ∧ u.twin.repair = none) : u.enterGroup c = some u := by
  by_cases h1 : g = 1
  · obtain ⟨hre, hrep⟩ := hi h1
    simp [State.enterGroup, hg, h, hre, hrep]
  · simp [State.enterGroup, hg, h, h1]

theorem State.runOf_group {op : Nat} {ph : Phase} (h : u.runOf op ph = some r) :
    opGroup r.cmd.opcode.toNat = opGroup (BitVec.ofNat 8 op).toNat := by
  obtain ⟨_, _, _, hop, _, _⟩ := State.runOf_fields h
  rw [hop]

/-! ### ROUTE_REKEY (R161) -/

theorem State.cmdRekey_keptOut (h : u.runOf 0x13 .fresh = some r) (he : u.enterGroup r.cmd = none) :
    u.cmdRekey = u.endZero stBusy := by
  simp only [State.cmdRekey, h, he]

theorem State.cmdRekey_enters (h : u.runOf 0x13 .fresh = some r) (he : u.enterGroup r.cmd = some u) :
    u.cmdRekey =
      if u.rekeyBusy r.cmd false || u.rekeyBusy r.cmd true then u.endZero stBusy
      else (u.askRekey r.cmd true).askWords r := by
  simp only [State.cmdRekey, h, he]

/-- TABLE 1 names the route store alone. -/
theorem rekeyNames_routes {c : Cmd} (h : c.field 0 1 = 1) (rights : Bool) : rekeyNames c rights = !rights := by
  rw [rekeyNames, h]
  cases rights <;> rfl

theorem State.rekeyBusy_routes {c : Cmd} (h : c.field 0 1 = 1) :
    (u.rekeyBusy c false || u.rekeyBusy c true) = (u.routes.rt.migActive || !u.spaced u.routes.rt) := by
  simp [State.rekeyBusy, rekeyNames_routes h, State.hash]

theorem State.askRekey_routes {c : Cmd} (h : c.field 0 1 = 1) (v : Bool) :
    u.askRekey c v = { u with routes.rt.asked := v } := by
  simp [State.askRekey, rekeyNames_routes h, State.hash, State.setHash]

/-! ### SCRUB (R394) -/

theorem State.cmdScrub_keptOut (h : u.runOf 0x41 .fresh = some r) (he : u.enterGroup r.cmd = none) :
    u.cmdScrub = u.endZero stBusy := by
  simp only [State.cmdScrub, h, he]

/-- A pass over at least one store starts. -/
theorem State.cmdScrub_starts (h : u.runOf 0x41 .fresh = some r) (he : u.enterGroup r.cmd = some u)
    (hm : r.cmd.field 0 2 ≠ 0) :
    u.cmdScrub =
      State.setRun { u with integrity.pass := some (ScrubPass.start (storesOf (r.cmd.field 0 2))) }
        { r with phase := .waiting } := by
  simp only [State.cmdScrub, h, he, if_neg hm]

theorem State.cmdScrub_waiting (h : u.runOf 0x41 .waiting = some r) : u.cmdScrub = u.scrubOn r := by
  have hfresh : u.runOf 0x41 .fresh = none := State.runOf_other h (by decide)
  simp only [State.cmdScrub, h, hfresh]

/-- What a pass still asks for does not depend on the number of its step. -/
theorem State.setRun_passDone {r' : Run} (h : u.keeper.run = some r) (hop : r'.cmd = r.cmd) (hph : r'.phase = r.phase)
    (p : ScrubPass) : (u.setRun r').passDone p = u.passDone p := by
  have hruns : (u.setRun r').scrubRuns = u.scrubRuns := by
    simp only [State.scrubRuns, State.setRun, h, hop, hph]
  simp only [State.passDone, State.passBanks, hruns, State.setRun_integrity, State.scrubbing, State.setRun_sluice,
    State.setRun_clock]

/-- A pass that is done ends, and its summary is the result. -/
theorem State.scrubOn_done {p : ScrubPass} (h : u.keeper.run = some r) (hp : u.integrity.pass = some p)
    (hd : u.passDone p = true) :
    u.scrubOn r =
      State.endRun { u.setRun { r with step := p.pages } with integrity.pass := none } stOk
        ((u.setRun { r with step := p.pages }).scrubSummary (r.cmd.field 0 2) p) := by
  have hd' : (u.setRun { r with step := p.pages }).passDone p = true := (State.setRun_passDone h rfl rfl p).trans hd
  simp [State.scrubOn, hp, hd']

/-! ### STRENGTH_SET (R398) -/

theorem State.cmdStrength_range (h : u.runOf 0x42 .fresh = some r)
    (ht : ¬(r.cmd.field 2 1 = 2 ∨ r.cmd.field 2 1 = 4 ∨ r.cmd.field 2 1 = 6 ∨ r.cmd.field 2 1 = 8)) :
    u.cmdStrength = u.endZero stRange := by
  simp only [State.cmdStrength, h, if_pos ht]

section
variable (h : u.runOf 0x42 .fresh = some r)
  (ht : r.cmd.field 2 1 = 2 ∨ r.cmd.field 2 1 = 4 ∨ r.cmd.field 2 1 = 6 ∨ r.cmd.field 2 1 = 8)
include h ht

theorem State.cmdStrength_denied
    (hm : (r.cmd.field 0 2).testBit 5 = true ∨ (r.cmd.field 0 2).testBit 6 = true) :
    u.cmdStrength = u.endZero stDenied := by
  simp only [State.cmdStrength, h, ht, not_true, if_false, Bool.or_eq_true, if_pos hm]

variable (h5 : (r.cmd.field 0 2).testBit 5 = false) (h6 : (r.cmd.field 0 2).testBit 6 = false)
include h5 h6

theorem State.cmdStrength_repair (hrep : u.twin.repair.isSome = true) : u.cmdStrength = u.endZero stBusy := by
  simp [State.cmdStrength, h, ht, h5, h6, hrep]

/-- With no journal, each named store that is not at the target yet is re-encoded, from its first page. -/
theorem State.cmdStrength_starts (hrep : u.twin.repair = none) (he : u.enterGroup r.cmd = some u)
    (hj : u.integrity.journal = none) (hl : u.strengthList (r.cmd.field 0 2) (r.cmd.field 2 1) ≠ []) :
    u.cmdStrength =
      (u.setRun { r with phase := .items, acc := [0] }).beginReencode
        (u.strengthList (r.cmd.field 0 2) (r.cmd.field 2 1)) (r.cmd.field 2 1) [] := by
  simp [State.cmdStrength, h, ht, h5, h6, hrep, he, hj, hl]

end

theorem State.strengthList_no_journal (hj : u.integrity.journal = none) (mask t : Nat) :
    u.strengthList mask t = (List.range 7).filter fun i => mask.testBit i && decide (u.strengthOf i ≠ t) := by
  simp only [State.strengthList, hj, storesOf, List.filter_filter, Bool.and_comm]

/-- The first store of a command's list takes the target and its journal. -/
theorem State.beginReencode_cons (store : Nat) (rest : List Nat) (t : Nat) :
    u.beginReencode (store :: rest) t [] =
      { u with
        integrity.strength := ins 4 u.integrity.strength store t
        integrity.journal := some
          { store := store, oldT := u.strengthOf store, newT := t, next := 0, target := t, rest := rest, olds := [],
            running := true } } := rfl

end Sys2Proof.Machine
end

section
open Sys2Proof Sys2Proof.Machine

/-- Settles O45: each command by its admission to its group, then by its own checks, its start and its end. -/
theorem rekeyScrubAndStrengthStart : Obligations.RekeyScrubAndStrengthStart := by
  intro s u dt r hu hr
  refine ⟨fun h => ⟨fun hm => State.keeperBy_eq hu hr ?_,
      fun hfree htable => ⟨fun hb => State.keeperBy_eq hu hr ?_, fun hmig hsp => State.keeperBy_eq hu hr ?_⟩⟩,
    fun h => ⟨fun hb => State.keeperBy_eq hu hr ?_, fun hfree hre hrep hmask => State.keeperBy_eq hu hr ?_⟩,
    fun h p hp hd => State.keeperBy_eq hu hr ?_,
    fun h mask t hmask ht => ⟨fun n2 n4 n6 n8 => State.keeperBy_eq hu hr ?_,
      fun hlegal => ⟨fun hv => State.keeperBy_eq hu hr ?_, fun h5 h6 hrep => State.keeperBy_eq hu hr ?_,
        fun store rest h5 h6 hrep hfree hj hl => State.keeperBy_eq hu hr ?_⟩⟩⟩
  · exact State.cmdRekey_keptOut h (State.enterGroup_token (State.runOf_group h) hm)
  · have he := State.enterGroup_free (State.runOf_group h) hfree nofun
    rw [State.cmdRekey_enters h he, State.rekeyBusy_routes htable, if_pos (by simpa using hb)]
  · have he := State.enterGroup_free (State.runOf_group h) hfree nofun
    rw [State.cmdRekey_enters h he, State.rekeyBusy_routes htable, if_neg (by simp [hmig, hsp]),
      State.askRekey_routes htable]
    rfl
  · rcases hb with hm | hrep
    · exact State.cmdScrub_keptOut h (State.enterGroup_token (State.runOf_group h) hm)
    · exact State.cmdScrub_keptOut h (State.enterGroup_repair (State.runOf_group h) hrep)
  · have he := State.enterGroup_free (State.runOf_group h) hfree fun _ => ⟨hre, hrep⟩
    exact State.cmdScrub_starts h he hmask
  · obtain ⟨_, _, hrun, _⟩ := State.runOf_fields h
    exact (State.cmdScrub_waiting h).trans (State.scrubOn_done hrun hp hd)
  · subst ht
    exact State.cmdStrength_range h (by simp [n2, n4, n6, n8])
  all_goals subst hmask ht
  · exact State.cmdStrength_denied h hlegal hv
  · exact State.cmdStrength_repair h hlegal h5 h6 hrep
  · have hre : u.reencodeHolds = false := by simp only [State.reencodeHolds, hj]
    have he := State.enterGroup_free (State.runOf_group h) hfree fun _ => ⟨hre, hrep⟩
    have hlist := (State.strengthList_no_journal hj _ _).trans hl
    rw [State.cmdStrength_starts h hlegal h5 h6 hrep he hj (by simp [hlist]), hlist, State.beginReencode_cons]
    rfl
end

section
/-! SUPPORT. A mailbox round between commands: what holds it up, and how the command that it takes goes on (R289, R295, R297, R298). -/

namespace Sys2Proof.Machine
variable {u : State} {box : Nat} {c : Cmd} {st : Nat}

theorem exec_mailboxRound {s : State} {dt : Nat} (hu : s.elapse dt = u) (hr : u.running = true) :
    exec (.mailboxRound dt) s = .next (s.left u.mailboxRound) := by
  subst hu
  exact State.plane_on (f := State.mailboxRound) hr

theorem State.atKclk_even (h : u.clock.edge % 2 = 0) : u.atKclk = true := decide_eq_true h

theorem State.atKclk_odd (h : u.clock.edge % 2 ≠ 0) : u.atKclk = false := decide_eq_false h

/-- A winner's command is taken where no command runs and no ended engine operation waits. -/
theorem State.mailboxRound_takes (hg : u.keeperGoes = true) (hrun : u.keeper.run = none) (hk : u.clock.edge % 2 = 0)
    (he : u.engineReady = none) (hw : u.arbWinner 51 u.queuedBoxes = some box)
    (hc : look none (u.arbCharge 51 box u.queuedBoxes [box]).keeper.submitted box = some c) :
    u.mailboxRound = (u.arbCharge 51 box u.queuedBoxes [box]).takeCmd c := by
  simp [State.mailboxRound, hg, State.atKclk_even hk, hrun, he, hw, hc]

theorem State.mailboxRound_idle (hrun : u.keeper.run = none)
    (h : u.clock.edge % 2 ≠ 0 ∨ u.engineReady ≠ none ∨ u.arbWinner 51 u.queuedBoxes = none) : u.mailboxRound = u := by
  rcases h with h | h | h
  · simp [State.mailboxRound, State.atKclk_odd h]
  · simp [State.mailboxRound, hrun, Option.isSome_iff_ne_none.mpr h]
  · simp [State.mailboxRound, hrun, h]

/-- A command that is not resumable runs to its end (R301). -/
theorem State.mailboxRound_runs {r : Run} (hrun : u.keeper.run = some r) (h : opGroup r.cmd.opcode.toNat = none) :
    u.mailboxRound = u := by
  simp [State.mailboxRound, hrun, h]

/-- The mailbox of a command emptied of it and RUNNING, the memories of mailboxes and keeper asked for. -/
def State.tookCmd (u : State) (c : Cmd) : State :=
  ((State.setBox { u with keeper.submitted := ins none u.keeper.submitted c.host none } c.host
    { u.box c.host with st := .running }).askUnit 6 1 0).askUnit 5 0 0

/-- How a command taken goes on after its checks: a refusal is counted and has no result. -/
def State.goesOn (w : State) (c : Cmd) : Checked → State
  | .proceed => w.setRun (Run.start c)
  | .status st true => (w.count fKeeper 4).finish c st []
  | .status st false => w.finish c st c.blank

theorem State.takeCmd_unreadable (h : c.unreadable = true) : u.takeCmd c = (u.tookCmd c).done c stUncorr [] :=
  if_pos h

theorem State.takeCmd_readable (h : c.unreadable = false) :
    u.takeCmd c = (u.tookCmd c).goesOn c ((u.tookCmd c).check c) := by
  refine (if_neg (by rw [h]; decide)).trans ?_
  change (match (u.tookCmd c).check c with
    | .status st refused =>
      if refused then ((u.tookCmd c).count fKeeper 4).finish c st [] else (u.tookCmd c).finish c st c.blank
    | .proceed => (u.tookCmd c).setRun (Run.start c)) = _
  cases (u.tookCmd c).check c with
  | proceed => rfl
  | status st refused => cases refused <;> rfl

/-! ### The first checks of R298 -/

theorem State.check_length (h : 4088 < c.len) : u.check c = .status stLength true := if_pos h

theorem State.check_unknown (h : c.len ≤ 4088) (hi : opInfo c.opcode.toNat = none) : u.check c = .status stRange true := by
  simp [State.check, Nat.not_lt.mpr h, hi]

theorem State.check_reserved {i : OpInfo} (h : c.len ≤ 4088) (hi : opInfo c.opcode.toNat = some i)
    (hf : c.top ≠ 0#8 ∨ c.flags.toNat &&& (255 - i.flags) ≠ 0) : u.check c = .status stRange true := by
  simp only [State.check, Nat.not_lt.mpr h, if_false, hi, if_pos hf]

theorem State.check_denied {i : OpInfo} (h : c.len ≤ 4088) (hi : opInfo c.opcode.toNat = some i)
    (ht : c.top = 0#8) (hf : c.flags = 0#8) (h0 : i.h0 = true) (hh : c.host ≠ 0) : u.check c = .status stDenied true := by
  have hadm : u.admitted c i = false := by simp [State.admitted, h0, hh]
  simp [State.check, Nat.not_lt.mpr h, hi, ht, hf, hadm]

end Sys2Proof.Machine
end

section
open Sys2Proof Sys2Proof.Machine

/-- Settles O39: the round takes its winner, whose command goes on by its first failing check; and what holds a round up. -/
theorem mailboxRoundTakesTheWinner : Obligations.MailboxRoundTakesTheWinner := by
  intro s u v w dt box q c hu hr hg hq
  rw [exec_mailboxRound hu hr]
  subst hq
  refine ⟨fun hrun hk he hwin hv hc hbox hw => ?_, fun hrun h => by rw [State.mailboxRound_idle hrun h],
    fun r hrun h => by rw [State.mailboxRound_runs hrun h]⟩
  subst hv hbox
  have hw : (u.arbCharge 51 c.host u.queuedBoxes [c.host]).tookCmd c = w := hw
  subst hw
  rw [State.mailboxRound_takes hg hrun hk he hwin hc]
  have readable {x : Checked} (h : c.unreadable = false)
      (hx : ((u.arbCharge 51 c.host u.queuedBoxes [c.host]).tookCmd c).check c = x) :
      (u.arbCharge 51 c.host u.queuedBoxes [c.host]).takeCmd c =
        ((u.arbCharge 51 c.host u.queuedBoxes [c.host]).tookCmd c).goesOn c x := by
    rw [State.takeCmd_readable h, hx]
  refine ⟨fun h => ?_, fun h hx => ?_, fun st h hx => ?_, fun st h hx => ?_, fun st h hst => ?_⟩
  · rw [State.takeCmd_unreadable h]
  · rw [readable h hx]; rfl
  · rw [readable h hx]; rfl
  · rw [readable h hx]; rfl
  rw [readable (x := .status st true) h]
  · rfl
  obtain ⟨hlen, rfl⟩ | ⟨hlen, hi, rfl⟩ | ⟨i, hlen, hi, hf, rfl⟩ | ⟨i, hlen, hi, htop, hflags, h0, hhost, rfl⟩ := hst
  · exact State.check_length hlen
  · exact State.check_unknown hlen hi
  · exact State.check_reserved hlen hi hf
  · exact State.check_denied hlen hi htop hflags h0 hhost
end

section
/-! SUPPORT. An awaited response: the steps of a fetch by what they bring, and the accesses that fail (R240, R242, R438). -/

namespace Sys2Proof.Machine
variable {s u v : State} {dt n c : Nat} {a : OutAccess} {k : OutKind} {x : Cached}

/-- A response that the block awaits takes effect at its edge (R360, R438). -/
theorem exec_awaited {t : State} (i : Instr) (hu : s.elapse dt = u) (h : u.awaits n a) (ht : u.applyAnswer i = t) :
    s.always dt (fun s => s.response i) = .next (s.left t) := by
  obtain ⟨hreset, hfrozen, _, _, _⟩ := h
  simp [State.always_eq, hu, State.response, hreset, hfrozen, ht]

section
variable {read : Bool} {fits : OutKind → Bool} {act : OutKind → State → State} (h : u.awaits n a) (hk : a.req.kind = k)
include h hk

/-- An awaited answer of the right direction and kind frees its tag and does what its access is for. -/
theorem State.answered_ok (hread : k.isRead = read) (hfits : fits k = true) :
    u.answered n read true fits act = act k (u.freeTag n) := by
  obtain ⟨_, _, haccess, htaken, htime⟩ := h
  simp [State.answered, haccess, Option.isSome_iff_ne_none.mp htaken, hk, hread, hfits, htime]

/-- A failure status counts in OUT_ERRORS besides. -/
theorem State.answered_failed (hread : k.isRead = read) (hfits : fits k = true) :
    u.answered n read false fits act = act k ((u.freeTag n).count fOut 5) := by
  obtain ⟨_, _, haccess, htaken, htime⟩ := h
  simp [State.answered, haccess, Option.isSome_iff_ne_none.mp htaken, hk, hread, hfits, htime]

end

/-! ### What each response does -/

section
variable (h : u.awaits n a)
include h

theorem State.level1Response_ok {e : DWord} (hk : a.req.kind = .level1 c) :
    u.level1Response n true e = (u.freeTag n).gotLevel1 c e := State.answered_ok h hk rfl rfl

theorem State.descriptorResponse_ok {w0 w1 w2 w3 : DWord} (hk : a.req.kind = .descriptor c) :
    u.descriptorResponse n true w0 w1 w2 w3 = (u.freeTag n).gotDescriptor c w0 w1 w2 w3 := State.answered_ok h hk rfl rfl

theorem State.controlResponse_ok {consumed producer : DWord} (hk : a.req.kind = .control c) :
    u.controlResponse n true consumed producer = (u.freeTag n).gotControl c consumed producer :=
  State.answered_ok h hk rfl rfl

theorem State.level1Response_failed {e : DWord} (hk : a.req.kind = .level1 c) :
    u.level1Response n false e = ((u.freeTag n).count fOut 5).failFetch c .level1 2 1 := State.answered_failed h hk rfl rfl

theorem State.descriptorResponse_failed {w0 w1 w2 w3 : DWord} (hk : a.req.kind = .descriptor c) :
    u.descriptorResponse n false w0 w1 w2 w3 = ((u.freeTag n).count fOut 5).failFetch c .descriptor 2 2 :=
  State.answered_failed h hk rfl rfl

theorem State.controlResponse_failed {consumed producer : DWord} (hk : a.req.kind = .control c) :
    u.controlResponse n false consumed producer = ((u.freeTag n).count fOut 5).failFetch c .control 2 3 :=
  State.answered_failed h hk rfl rfl

theorem State.headResponse_failed {consumed : DWord} (hk : a.req.kind = .head c) :
    u.headResponse n false consumed = ((u.freeTag n).count fOut 5).failEvicted c 2 0x11 3 := by
  rw [State.headResponse, State.answered_failed (read := true) h hk rfl rfl]
  simp [State.failPump]

/-- A write that fails is not kept for a failover's rewrite. -/
theorem State.producerResponse_failed {word : DWord} (hk : a.req.kind = .producer c word) :
    u.producerResponse n false = ((u.freeTag n).count fOut 5).failEvicted c 5 0x14 5 := by
  have answer : u.answered n false false OutKind.isProducer (fun k s => s.failPump k 0) = _ :=
    State.answered_failed h hk rfl rfl
  obtain ⟨_, _, haccess, _, _⟩ := h
  simpa [State.producerResponse, haccess, State.failPump] using answer

theorem State.lineAnswer_failed {items : List Buffered} (hk : a.req.kind = .line c items) :
    u.lineAnswer n false = ((u.freeTag n).count fOut 5).failLine c items 0x14 5 := by
  have answer : u.answered n false false OutKind.isLine (fun k s => s.failPump k 0) = _ :=
    State.answered_failed h hk rfl rfl
  obtain ⟨_, _, haccess, _, _⟩ := h
  simpa [State.lineAnswer, State.lineResponse, haccess, hk, OutKind.isStaging, State.failPump] using answer

end

/-! ### The three reads of a fetch -/

section
variable (hx : v.cached c = some x)
include hx

theorem State.gotLevel1_idle {e : DWord} (hst : x.st = .level1) (he : level1Idle e = true) :
    v.gotLevel1 c e = v.setCached c (some { x with st := .notOpen }) := by
  simp [State.gotLevel1, hx, hst, he]

theorem State.gotLevel1_valid {e : DWord} (hst : x.st = .level1) (he : level1Idle e = false) :
    v.gotLevel1 c e = ((v.setCached c (some { x with st := .descriptor })).updateCached c 0).request
      (unitRead (.descriptor c) (descriptorAddr e c) 0) := by
  simp [State.gotLevel1, hx, hst, he]

section Descriptor
variable {w0 w1 w2 w3 : DWord} (hst : x.st = .descriptor)
include hst

theorem State.gotDescriptor_idle (hv : dscValid w0 = false) :
    v.gotDescriptor c w0 w1 w2 w3 = v.setCached c (some { x with st := .notOpen }) := by
  simp [State.gotDescriptor, hx, hst, hv]

theorem State.gotDescriptor_bad (hv : dscValid w0 = true) (hb : descriptorBad w0 w1 w2 w3 = true) :
    v.gotDescriptor c w0 w1 w2 w3 = v.breakCistern c 0x12 4 2 := by
  simp [State.gotDescriptor, hx, hst, hv, hb]

theorem State.gotDescriptor_outside (hv : dscValid w0 = true) (hb : descriptorBad w0 w1 w2 w3 = false)
    (hp : v.descriptorPermitted w0 w1 w2 = false) :
    v.gotDescriptor c w0 w1 w2 w3 = (v.count fOut 6).breakCistern c 0x11 1 3 := by
  simp [State.gotDescriptor, hx, hst, hv, hb, hp]

theorem State.gotDescriptor_good (hv : dscValid w0 = true) (hb : descriptorBad w0 w1 w2 w3 = false)
    (hp : v.descriptorPermitted w0 w1 w2 = true) :
    v.gotDescriptor c w0 w1 w2 w3 =
      ((v.setCached c (some { x with st := .control, w0 := w0, w1 := w1, w2 := w2 })).updateCached c 0).request
        (unitRead (.control c) (dscCb w1) (dscOwner w2)) := by
  simp [State.gotDescriptor, hx, hst, hv, hb, hp]

end Descriptor

theorem State.gotControl_stale {consumed producer : DWord} (hst : x.st = .control)
    (hb : bits producer 63 48 ≠ v.pump.bootId.toNat) :
    v.gotControl c consumed producer = v.setCached c (some { x with st := .notOpen }) := by
  simp [State.gotControl, hx, hst, hb]

theorem State.gotControl_opens {consumed producer : DWord} (hst : x.st = .control)
    (hb : bits producer 63 48 = v.pump.bootId.toNat) :
    v.gotControl c consumed producer =
      v.opened c x (BitVec.ofNat 16 (bits producer 47 32)) (loWord producer) (loWord consumed) 0 := by
  simp [State.gotControl, hx, hst, hb]

/-! ### Failures -/

theorem State.failFetch_awaited {at_ : CState} {cause step : Nat} (hst : x.st = at_) :
    v.failFetch c at_ cause step = v.breakCistern c 0x11 cause step := by
  simp [State.failFetch, hx, hst]

theorem State.failEvicted_cached {cause reason step : Nat} :
    v.failEvicted c cause reason step = v.breakCistern c reason cause step := by
  simp [State.failEvicted, hx]

end

/-- A freed tag leaves the cache, and with it what is read of it, alone. -/
theorem State.freeTag_cached (h : u.cached c = some x) : (u.freeTag n).cached c = some x := h

theorem State.freeTag_count_cached (h : u.cached c = some x) : ((u.freeTag n).count fOut 5).cached c = some x := by
  rw [State.cached, State.count_pump]
  exact h

/-- What memory is permitted does not depend on the tags in use. -/
theorem State.freeTag_permitted (w0 w1 w2 : DWord) :
    (u.freeTag n).descriptorPermitted w0 w1 w2 = u.descriptorPermitted w0 w1 w2 := by
  unfold State.descriptorPermitted State.permitted State.sampled State.freeTag
  cases u.before <;> rfl

end Sys2Proof.Machine
end

section
open Sys2Proof Sys2Proof.Machine

/-- Settles O34: each read by what it brings, then each access that fails. -/
theorem fetchStepsOpenOrBreakTheCistern : Obligations.FetchStepsOpenOrBreakTheCistern := by
  refine ⟨?_, ?_⟩
  · intro s u w dt tag a c x hu h hw hx
    subst hw
    have hx' := State.freeTag_cached (n := tag.toNat) hx
    refine ⟨fun e hk hst => ?_, fun w0 w1 w2 w3 hk hst => ?_, fun consumed producer hk hst => ?_⟩
    · have got := State.level1Response_ok (e := e) h hk
      exact ⟨fun he => exec_awaited _ hu h (got.trans (State.gotLevel1_idle hx' hst he)),
        fun he => exec_awaited _ hu h (got.trans (State.gotLevel1_valid hx' hst he))⟩
    · have got := State.descriptorResponse_ok (w0 := w0) (w1 := w1) (w2 := w2) (w3 := w3) h hk
      rw [← State.freeTag_permitted (n := tag.toNat)]
      exact ⟨fun hv => exec_awaited _ hu h (got.trans (State.gotDescriptor_idle hx' hst hv)),
        fun hv hb => exec_awaited _ hu h (got.trans (State.gotDescriptor_bad hx' hst hv hb)),
        fun hv hb hp => exec_awaited _ hu h (got.trans (State.gotDescriptor_outside hx' hst hv hb hp)),
        fun hv hb hp => exec_awaited _ hu h (got.trans (State.gotDescriptor_good hx' hst hv hb hp))⟩
    · have got := State.controlResponse_ok (consumed := consumed) (producer := producer) h hk
      exact ⟨fun hb => exec_awaited _ hu h (got.trans (State.gotControl_stale hx' hst hb)),
        fun hb => exec_awaited _ hu h (got.trans (State.gotControl_opens hx' hst hb))⟩
  · intro s u w dt tag a c x d w0 w1 w2 w3 hu h hw hx
    subst hw
    have hx' := State.freeTag_count_cached (n := tag.toNat) hx
    refine ⟨fun hk hst => ?_, fun hk hst => ?_, fun hk hst => ?_, fun hk => ?_, fun word hk => ?_, fun items hk => ?_⟩
    · exact exec_awaited _ hu h ((State.level1Response_failed h hk).trans (State.failFetch_awaited hx' hst))
    · exact exec_awaited _ hu h ((State.descriptorResponse_failed h hk).trans (State.failFetch_awaited hx' hst))
    · exact exec_awaited _ hu h ((State.controlResponse_failed h hk).trans (State.failFetch_awaited hx' hst))
    · exact exec_awaited _ hu h ((State.headResponse_failed h hk).trans (State.failEvicted_cached hx'))
    · exact exec_awaited _ hu h ((State.producerResponse_failed h hk).trans (State.failEvicted_cached hx'))
    · exact exec_awaited _ hu h (State.lineAnswer_failed h hk)
end

section
/-! SUPPORT. Lists of indices in rising order hold each index once. -/

namespace Sys2Proof.Machine

theorem mem_putIn {k n : Nat} {l : List Nat} : n ∈ putIn k l ↔ n = k ∨ n ∈ l := by
  induction l with
  | nil => simp [putIn]
  | cons j t ih =>
    unfold putIn
    split
    · simp
    · split
      · next heq => simp [heq]
      · simp only [List.mem_cons, ih]; tauto

theorem pairwise_putIn {k : Nat} {l : List Nat} (h : l.Pairwise (· < ·)) : (putIn k l).Pairwise (· < ·) := by
  induction l with
  | nil => simp [putIn]
  | cons j t ih =>
    obtain ⟨hj, ht⟩ := List.pairwise_cons.mp h
    unfold putIn
    split
    · next hlt =>
      refine List.pairwise_cons.mpr ⟨fun n hn => ?_, h⟩
      rcases List.mem_cons.mp hn with rfl | hn
      · exact hlt
      · exact hlt.trans (hj n hn)
    · split
      · exact h
      · refine List.pairwise_cons.mpr ⟨fun n hn => ?_, ih ht⟩
        rcases mem_putIn.mp hn with rfl | hn
        · omega
        · exact hj n hn

theorem mem_sorted {n : Nat} {l : List Nat} : n ∈ sorted l ↔ n ∈ l := by
  induction l with
  | nil => rfl
  | cons k t ih => rw [sorted, mem_putIn, ih, List.mem_cons]

theorem nodup_sorted (l : List Nat) : (sorted l).Nodup := by
  have h : (sorted l).Pairwise (· < ·) := by
    induction l with
    | nil => exact .nil
    | cons k t ih => exact pairwise_putIn ih
  exact h.imp Nat.ne_of_lt

end Sys2Proof.Machine
end

section
/-! SUPPORT. What the arbiters' own work writes: the sluice and the counters, and nothing else of the block (R174 to R207). -/

namespace Sys2Proof.Machine
variable {s t u : State} {g : Nat}

/-- The second state is the first but for its sluice and its counters. -/
def State.arbOnly (s t : State) : Prop :=
  ∃ (c : Tbl Counter) (n : Nat) (x : Sluice), t = { s with front.counters := c, ovfs := n, sluice := x }

theorem State.arbOnly.refl (s : State) : s.arbOnly s := ⟨_, _, _, rfl⟩

theorem State.arbOnly.trans (h : s.arbOnly t) (h' : t.arbOnly u) : s.arbOnly u := by
  obtain ⟨_, _, _, rfl⟩ := h
  obtain ⟨_, _, _, rfl⟩ := h'
  exact ⟨_, _, _, rfl⟩

theorem State.arbOnly.ite {c : Prop} [Decidable c] (ht : s.arbOnly t) (hu : s.arbOnly u) : s.arbOnly (if c then t else u) := by
  split
  · exact ht
  · exact hu

theorem State.arbOnly.foldl {α : Type} {f : State → α → State} (hf : ∀ s a, State.arbOnly s (f s a)) (s : State) (l : List α) :
    s.arbOnly (l.foldl f s) :=
  List.foldlRecOn (motive := s.arbOnly) l f (.refl s) fun t ht a _ => ht.trans (hf t a)

theorem State.arbOnly.count (s : State) (f i : Nat) : s.arbOnly (s.count f i) := by
  unfold State.count State.countBy
  dsimp only
  split
  · exact ⟨_, _, _, rfl⟩
  · exact ⟨_, _, _, rfl⟩

theorem State.arbOnly.modGroup (s : State) (g : Nat) (f : Group → Group) : s.arbOnly (s.modGroup g f) := ⟨_, _, _, rfl⟩

theorem State.arbOnly.refillArb (s : State) (id : Nat) (waits : List Nat) : s.arbOnly (s.refillArb id waits) :=
  ⟨_, _, _, rfl⟩

theorem State.arbOnly.snapRefill (s : State) (kind : WindowKind) : s.arbOnly (s.snapRefill kind) := by
  cases kind with
  | target => exact .refl s
  | bank | outbound | mailbox => exact .foldl (fun _ _ => ⟨_, _, _, rfl⟩) _ _

theorem State.arbOnly.setWindow (s : State) (kind : WindowKind) (e : Nat) : s.arbOnly (s.setWindow kind e) := by
  cases kind <;> exact ⟨_, _, _, rfl⟩

/-! ### What is read of such a state -/

/-- What actions sample differs no further. -/
theorem State.arbOnly.sampled (h : s.arbOnly t) : s.sampled.arbOnly t.sampled := by
  obtain ⟨c, n, x, rfl⟩ := h
  unfold State.sampled
  cases hb : s.before with
  | none => simp only; exact ⟨c, n, x, by rw [hb]⟩
  | some b => simp only; exact ⟨b.front.counters, n, b.sluice, rfl⟩

theorem State.arbOnly.clock (h : s.arbOnly t) : t.clock = s.clock := by
  obtain ⟨_, _, _, rfl⟩ := h
  rfl

theorem State.arbOnly.windowCtrl (h : s.arbOnly t) (kind : WindowKind) : t.windowCtrl kind = s.windowCtrl kind := by
  obtain ⟨_, _, _, rfl⟩ := h
  cases kind <;> rfl

/-- Of the sluice, a group's eligibility rests on the group alone (R177). -/
theorem State.arbOnly.eligible (h : s.arbOnly t) (hg : t.group g = s.group g) (e : Nat) :
    t.eligibleSomewhere g e = s.eligibleSomewhere g e := by
  have hopen : t.groupOpen g e = s.groupOpen g e := by rw [State.groupOpen, hg, State.groupOpen]
  rw [State.eligibleSomewhere, hopen, State.eligibleSomewhere]
  obtain ⟨_, _, _, rfl⟩ := h
  rfl

/-- A group that stands as it stood is sampled as it was: from before the edge, or as it stands. -/
theorem State.arbOnly.sampled_group (h : s.arbOnly t) (hg : t.group g = s.group g) :
    t.sampled.group g = s.sampled.group g := by
  obtain ⟨c, n, x, rfl⟩ := h
  unfold State.sampled
  cases hb : s.before with
  | none => simpa only [hb] using hg
  | some b => rfl

end Sys2Proof.Machine
end

section
/-! SUPPORT. The refill of the groups at the end of a target window (R180). -/

namespace Sys2Proof.Machine
variable {s t u : State} {g k n : Nat} {l : List Nat}

theorem State.group_modGroup_same (f : Group → Group) (h : rising 0 s.sluice.groups = true) :
    (s.modGroup g f).group g = f (s.group g) := look_ins_same _ h _ _

theorem State.group_modGroup_other (f : Group → Group) (h : g ≠ k) : (s.modGroup k f).group g = s.group g :=
  look_ins_other _ _ h

theorem State.rising_modGroup (f : Group → Group) (h : rising 0 s.sluice.groups = true) :
    rising 0 (s.modGroup g f).sluice.groups = true := rising_ins _ h (Nat.zero_le _) _

/-- A group after its refill, eligible since the last boundary or at this edge. -/
def State.refilled (s : State) (g : Nat) : Group :=
  Group.refill { s.group g with used := (s.group g).used || s.sampled.eligibleSomewhere g s.clock.dp }
    (s.sampled.group g).weight.toNat

def State.refillGroup (s : State) (g : Nat) : State := s.modGroup g fun _ => s.refilled g

theorem State.arbOnly.refilled (h : s.arbOnly t) (hg : t.group g = s.group g) : t.refilled g = s.refilled g := by
  have hsampled := h.sampled_group hg
  rw [State.refilled, hg, hsampled, h.clock, h.sampled.eligible hsampled, State.refilled]

theorem State.group_foldl_refill_other (h : g ∉ l) : (l.foldl State.refillGroup s).group g = s.group g :=
  List.foldlRecOn (motive := fun t : State => t.group g = s.group g) l _ rfl fun _ ht _ hk =>
    (State.group_modGroup_other _ (ne_of_mem_of_not_mem hk h).symm).trans ht

/-- Each group is refilled by what it was before any of them. -/
theorem State.group_foldl_refill (hl : l.Nodup) (hr : rising 0 s.sluice.groups = true) (hg : g ∈ l) :
    (l.foldl State.refillGroup s).group g = s.refilled g := by
  induction l generalizing s with
  | nil => cases hg
  | cons k l ih =>
    obtain ⟨hk, hl⟩ := List.nodup_cons.mp hl
    rw [List.foldl_cons]
    by_cases hgk : g = k
    · subst hgk
      rw [State.group_foldl_refill_other hk]
      exact State.group_modGroup_same _ hr
    · have hr' : rising 0 (s.refillGroup k).sluice.groups = true := State.rising_modGroup _ hr
      rw [ih hl hr' ((List.mem_cons.mp hg).resolve_left hgk)]
      exact State.arbOnly.refilled (.modGroup ..) (State.group_modGroup_other _ hgk)

theorem State.refilled_eligible (hw : (s.group g).weight ≠ 0#8) (hn : (s.sampled.group g).weight.toNat = n) (h0 : n ≠ 0)
    (h : (s.group g).used = true ∨ s.sampled.eligibleSomewhere g s.clock.dp = true) :
    s.refilled g = { s.group g with credit := min ((s.group g).credit + 16 * n) 65535, used := false } := by
  have h' : ((s.group g).used || s.sampled.eligibleSomewhere g s.clock.dp) = true := by simpa using h
  simp [State.refilled, Group.refill, hw, hn, h0, h']

theorem State.refilled_idle (hw : (s.group g).weight ≠ 0#8) (hn : (s.sampled.group g).weight.toNat = n) (h0 : n ≠ 0)
    (hu : (s.group g).used = false) (he : s.sampled.eligibleSomewhere g s.clock.dp = false) :
    s.refilled g = { s.group g with credit := 16 * n, used := false } := by
  simp [State.refilled, Group.refill, hw, hn, h0, hu, he]

end Sys2Proof.Machine
end

section
/-! SUPPORT. A window's boundary by its kind, and the end of a group's hold (R179, R180, R190). -/

namespace Sys2Proof.Machine
variable {s u : State} {dt : Nat} {kind : WindowKind}

theorem exec_windowBoundary (hu : s.elapse dt = u) (hr : u.running = true) :
    exec (.windowBoundary dt kind) s = .next (s.left (u.boundaryDue kind)) := by
  subst hu
  exact State.plane_on (f := fun s => s.boundaryDue kind) hr

theorem exec_trickleHoldEnd {group : BitVec 10} {g : Nat} (hu : s.elapse dt = u) (hr : u.running = true)
    (hg : group.toNat = g) : exec (.trickleHoldEnd dt group) s = .next (s.left (u.holdEnds g)) := by
  subst hu hg
  exact State.plane_on (f := fun s => s.holdEnds group.toNat) hr

/-- The groups of the sluice refilled, and the boundary counted. -/
def State.groupsRefilled (u : State) : State :=
  (sorted (keys u.sluice.groups)).foldl State.refillGroup (u.count fSluice 12)

/-- The requesters of a kind's arbiters refilled, and the credit of the idle ones taken. -/
def State.arbitersRefilled (u : State) (waits : Nat → List Nat) (kind : WindowKind) : State :=
  (((keys u.sluice.arbiters).filter (arbOfKind kind)).foldl (fun (s : State) id => s.refillArb id (waits id)) u).snapRefill
    kind

/-- What the boundary of a window refills, by its kind. -/
def State.windowRefilled (u : State) (waits : Nat → List Nat) : WindowKind → State
  | .target => u.groupsRefilled
  | kind => u.arbitersRefilled waits kind

theorem State.groupsRefilled_arbOnly : u.arbOnly u.groupsRefilled :=
  (State.arbOnly.count ..).trans (.foldl (fun s g => .modGroup s g _) _ _)

theorem State.arbitersRefilled_arbOnly {waits : Nat → List Nat} : u.arbOnly (u.arbitersRefilled waits kind) :=
  (State.arbOnly.foldl (fun s id => .refillArb s id (waits id)) ..).trans (.snapRefill ..)

theorem State.windowRefilled_arbOnly {waits : Nat → List Nat} : u.arbOnly (u.windowRefilled waits kind) := by
  cases kind with
  | target => exact State.groupsRefilled_arbOnly
  | bank | outbound | mailbox => exact State.arbitersRefilled_arbOnly

theorem State.boundary_eq (u : State) (kind : WindowKind) (waits : Nat → List Nat) :
    u.boundary kind waits = (u.windowRefilled waits kind).setWindow kind
      (u.clock.dp + ctrlWindow (u.sampled.windowCtrl kind)) := by
  have h := State.windowRefilled_arbOnly (u := u) (kind := kind) (waits := waits)
  rw [← h.clock, ← h.sampled.windowCtrl]
  cases kind <;> rfl

theorem State.boundary_arbOnly {waits : Nat → List Nat} : u.arbOnly (u.boundary kind waits) := by
  rw [State.boundary_eq]
  exact State.windowRefilled_arbOnly.trans (.setWindow ..)

theorem State.windowEnd_setWindow (s : State) (kind : WindowKind) (e : Nat) : (s.setWindow kind e).windowEnd kind = e := by
  cases kind <;> rfl

theorem State.boundary_windowEnd {waits : Nat → List Nat} :
    (u.boundary kind waits).windowEnd kind = u.clock.dp + ctrlWindow (u.sampled.windowCtrl kind) := by
  rw [State.boundary_eq, State.windowEnd_setWindow]

theorem State.boundary_counters {waits : Nat → List Nat} :
    (u.boundary .target waits).front.counters = (u.count fSluice 12).front.counters := by
  rw [State.boundary_eq]
  exact List.foldlRecOn (motive := fun t : State => t.front.counters = (u.count fSluice 12).front.counters) _ _ rfl
    fun _ ht _ _ => ht

theorem State.boundary_group {waits : Nat → List Nat} {g : Nat} (hr : rising 0 u.sluice.groups = true)
    (hg : g ∈ keys u.sluice.groups) : (u.boundary .target waits).group g = u.refilled g := by
  have hcount : (u.count fSluice 12).group g = u.group g := by rw [State.group, State.count_sluice, State.group]
  rw [State.boundary_eq]
  refine (State.group_foldl_refill (nodup_sorted _) ?_ (mem_sorted.mpr hg)).trans (State.arbOnly.refilled (.count ..) hcount)
  rw [State.count_sluice, hr]

theorem State.boundaryDue_early (h : u.clock.dp < u.windowEnd kind) : u.boundaryDue kind = u :=
  if_neg (Nat.not_le.mpr h)

theorem State.boundaryDue_due (h : u.windowEnd kind ≤ u.clock.dp) : u.boundaryDue kind = u.boundary kind u.waitsAt :=
  if_pos h

end Sys2Proof.Machine
end

section
open Sys2Proof Sys2Proof.Machine

/-- Settles O29: the boundary by its kind and, at a target window, group by group; then the hold. -/
theorem windowsRefillAndHoldsEnd : Obligations.WindowsRefillAndHoldsEnd := by
  refine ⟨?_, ?_⟩
  · intro s u dt kind hu hr
    rw [exec_windowBoundary hu hr]
    refine ⟨fun h => by rw [State.boundaryDue_early h], fun h => ⟨u.boundary kind u.waitsAt, by rw [State.boundaryDue_due h],
      State.boundary_windowEnd, ?_⟩⟩
    obtain ⟨hints, hcores, hports, hregs⟩ :
        (u.boundary kind u.waitsAt).ints = u.ints ∧ (u.boundary kind u.waitsAt).cores = u.cores ∧
          (u.boundary kind u.waitsAt).ports = u.ports ∧ (u.boundary kind u.waitsAt).front.regs = u.front.regs := by
      obtain ⟨_, _, _, heq⟩ := State.boundary_arbOnly (u := u) (kind := kind) (waits := u.waitsAt)
      rw [heq]
      exact ⟨rfl, rfl, rfl, rfl⟩
    refine ⟨hints, hcores, hports, hregs, ?_⟩
    rintro rfl
    refine ⟨State.boundary_counters, fun hrise g n hg hw hn h0 => ?_⟩
    rw [State.boundary_group hrise hg]
    exact ⟨State.refilled_eligible hw hn h0, State.refilled_idle hw hn h0⟩
  · intro s u dt group g hu hr hg
    rw [exec_trickleHoldEnd hu hr hg]
    exact ⟨fun h => by rw [State.holdEnds, if_pos h], fun h => by rw [State.holdEnds, if_neg (Nat.not_le.mpr h)]⟩
end

section
/-! SUPPORT. A target round by its winner: what it counts, presents, charges and ages (R176, R185 to R193). -/

namespace Sys2Proof.Machine
variable {s t u : State} {dt g k n key : Nat} {bids : List Bid}

theorem exec_targetRound {target : BitVec 9} (hu : s.elapse dt = u) (hr : u.running = true) (hn : target.toNat = n) :
    exec (.targetRound dt target) s = .next (s.left (u.targetRound n)) := by
  subst hu hn
  exact State.plane_on (f := fun s => s.targetRound target.toNat) hr

theorem State.targetRound_idle (h : u.roundDue n = false ∨ roundWinner (u.targetPtr n) (u.targetBids n u.clock.dp) = none) :
    u.targetRound n = u := by
  rcases h with h | h
  · simp [State.targetRound, h]
  · simp [State.targetRound, h]

/-- What a round counts by its bids: itself, several groups, a forced win, a tie (R208). -/
def State.roundTallied (u : State) (bids : List Bid) : State :=
  let s := u.count fSluice 3
  let s := if 2 ≤ bids.length then s.count fSluice 4 else s
  let s := if roundForced bids then s.count fSluice 5 else s
  if roundTied bids then s.count fSluice 6 else s

/-- The length of the hold that a win of the group starts, by the INTERVAL in force before the edge (R190). -/
def State.holdSpan (s : State) (g : Nat) : Nat := (s.sampled.group g).interval.toNat

/-- The counts of a round that the group wins, a hold's start among them. -/
def State.roundCounted (u : State) (g : Nat) (bids : List Bid) : State :=
  let s := u.roundTallied bids
  if s.holdSpan g ≠ 0 && !(s.group g).before.won then s.count fSluice 8 else s

/-- Every bidder of a list loses. -/
def State.loseAll (s : State) (l : List Bid) : State := l.foldl (fun s b => s.modGroup b.idx Group.lose) s

/-- The bidders but for the winner lose. -/
def State.losers (s : State) (g : Nat) (bids : List Bid) : State :=
  s.loseAll (bids.filter fun b => decide (b.idx ≠ g))

theorem State.targetRound_won (hd : u.roundDue n = true)
    (hw : roundWinner (u.targetPtr n) (u.targetBids n u.clock.dp) = some g) (hk : u.pickFor n g u.clock.dp = some key) :
    ∃ (moves : Bool) (span : Nat), u.targetRound n =
      (((u.roundCounted g (u.targetBids n u.clock.dp)).presentN n g key).modGroup g
        fun x => x.win n key u.clock.dp moves span).losers g (u.targetBids n u.clock.dp) := by
  refine ⟨decide (g ≠ (u.roundCounted g (u.targetBids n u.clock.dp)).sampled.privGroup),
    (u.roundTallied (u.targetBids n u.clock.dp)).holdSpan g, ?_⟩
  simp only [State.targetRound, hd, hw, hk]
  rfl

/-! ### The counts of a round -/

theorem State.roundTallied_arbOnly : u.arbOnly (u.roundTallied bids) := by
  have step {s : State} {c : Prop} [Decidable c] (h : u.arbOnly s) (i : Nat) :
      u.arbOnly (if c then s.count fSluice i else s) := .ite (h.trans (.count ..)) h
  exact step (step (step (.count ..) 4) 5) 6

theorem State.roundCounted_arbOnly : u.arbOnly (u.roundCounted g bids) :=
  .ite (State.roundTallied_arbOnly.trans (.count ..)) State.roundTallied_arbOnly

theorem State.roundCounted_sluice : (u.roundCounted g bids).sluice = u.sluice := by
  have step {s : State} {c : Prop} [Decidable c] (h : s.sluice = u.sluice) (i : Nat) :
      (if c then s.count fSluice i else s).sluice = u.sluice := by
    split
    · rw [State.count_sluice, h]
    · exact h
  exact step (step (step (step (State.count_sluice ..) 4) 5) 6) 8

/-! ### The presentation -/

theorem State.arbOnly.privGroup (h : s.arbOnly t) : t.privGroup = s.privGroup := by
  obtain ⟨_, _, _, rfl⟩ := h
  rfl

theorem State.arbOnly.core (h : s.arbOnly t) (n : Nat) : t.core n = s.core n := by
  obtain ⟨_, _, _, rfl⟩ := h
  rfl

theorem State.presentN_core (h : u.arbOnly s) (hr : rising 0 u.cores = true) :
    (s.presentN n g key).core n = { u.core n with
      presN := some { intid := key, dup := (u.int key).dup, loadAt := u.clock.dp + 1, group := g }
      ptr := some ((g + 1) % 1024)
      pp := if g = u.sampled.privGroup then (privPos key + 1) % 131072 else (u.core n).pp
      lineN := drive (u.core n).lineN u.clock.edge (u.clock.edge + 3) true } := by
  rw [← h.sampled.privGroup]
  obtain ⟨_, _, _, rfl⟩ := h
  exact look_ins_same _ hr _ _

theorem State.presentN_core_other (h : u.arbOnly s) (hk : k ≠ n) : (s.presentN n g key).core k = u.core k :=
  (look_ins_other _ _ hk).trans (h.core k)

/-! ### The winner and the losers -/

/-- A group that has lost at an edge loses no more there. -/
theorem Group.lose_lose (x : Group) : x.lose.lose = x.lose := by
  by_cases h : (x.before.won || x.before.lost || decide (x.weight = 0#8)) = true
  · rw [show x.lose = { x with used := true, snap := some x.before } from if_pos h]
    exact if_pos h
  · rw [show x.lose = { x with
      age := min (x.before.age + 1) 15, wait := min (x.before.wait + 1) 1023, used := true
      snap := some { x.before with lost := true } } from if_neg h]
    exact if_pos (by simp [Group.before])

theorem Group.lose_fresh {x : Group} (hw : x.weight ≠ 0#8) (hs : x.snap = none) :
    x.lose.age = min (x.age + 1) 15 ∧ x.lose.wait = min (x.wait + 1) 1023 ∧ x.lose.credit = x.credit := by
  simp [Group.lose, Group.before, hw, hs]

theorem State.loseAll_arbOnly (l : List Bid) : s.arbOnly (s.loseAll l) := .foldl (fun _ _ => .modGroup ..) ..

theorem State.group_loseAll_other {l : List Bid} (h : ∀ b ∈ l, b.idx ≠ k) : (s.loseAll l).group k = s.group k :=
  List.foldlRecOn (motive := fun t : State => t.group k = s.group k) l _ rfl fun _ ht b hb =>
    (State.group_modGroup_other _ (h b hb).symm).trans ht

/-- A group that bids more than once loses once. -/
theorem State.group_loseAll {l : List Bid} (hr : rising 0 s.sluice.groups = true) (hk : ∃ b ∈ l, b.idx = k) :
    (s.loseAll l).group k = (s.group k).lose := by
  induction l generalizing s with
  | nil => simp at hk
  | cons a l ih =>
    change ((s.modGroup a.idx Group.lose).loseAll l).group k = (s.group k).lose
    by_cases hl : ∃ b ∈ l, b.idx = k
    · rw [ih (State.rising_modGroup _ hr) hl]
      by_cases ha : k = a.idx
      · rw [ha, State.group_modGroup_same _ hr, Group.lose_lose]
      · rw [State.group_modGroup_other _ ha]
    · have ha : a.idx = k := by simpa [hl] using hk
      rw [State.group_loseAll_other fun b hb he => hl ⟨b, hb, he⟩, ← ha, State.group_modGroup_same _ hr]

/-! ### The groups and the rest of the state after a round -/

section
variable (hd : u.roundDue n = true) (hw : roundWinner (u.targetPtr n) (u.targetBids n u.clock.dp) = some g)
  (hk : u.pickFor n g u.clock.dp = some key)
include hd hw hk

/-- But for the sluice and the counters, a round is its presentation. -/
theorem State.targetRound_presents : ∃ v, u.arbOnly v ∧ (v.presentN n g key).arbOnly (u.targetRound n) := by
  obtain ⟨moves, span, heq⟩ := State.targetRound_won hd hw hk
  rw [heq]
  exact ⟨_, State.roundCounted_arbOnly, (State.arbOnly.modGroup ..).trans (State.loseAll_arbOnly _)⟩

theorem State.targetRound_group (hr : rising 0 u.sluice.groups = true) :
    ∃ (moves : Bool) (span : Nat),
      (u.targetRound n).group g = (u.group g).win n key u.clock.dp moves span ∧
      (∀ b ∈ u.targetBids n u.clock.dp, b.idx ≠ g → (u.targetRound n).group b.idx = (u.group b.idx).lose) ∧
      ∀ k, k ≠ g → (∀ b ∈ u.targetBids n u.clock.dp, b.idx ≠ k) → (u.targetRound n).group k = u.group k := by
  obtain ⟨moves, span, heq⟩ := State.targetRound_won hd hw hk
  have hsame (k : Nat) : ((u.roundCounted g (u.targetBids n u.clock.dp)).presentN n g key).group k = u.group k := by
    rw [State.group, State.presentN, State.modCore_sluice, State.roundCounted_sluice, State.group]
  have hrise : rising 0 ((u.roundCounted g (u.targetBids n u.clock.dp)).presentN n g key).sluice.groups = true := by
    rw [State.presentN, State.modCore_sluice, State.roundCounted_sluice, hr]
  refine ⟨moves, span, ?_, fun b hb hne => ?_, fun k hne hall => ?_⟩
  · rw [heq, State.losers, State.group_loseAll_other, State.group_modGroup_same _ hrise, hsame]
    exact fun b hb => of_decide_eq_true (List.mem_filter.mp hb).2
  · rw [heq, State.losers, State.group_loseAll (State.rising_modGroup _ hrise)
      ⟨b, List.mem_filter.mpr ⟨hb, decide_eq_true hne⟩, rfl⟩, State.group_modGroup_other _ hne, hsame]
  · rw [heq, State.losers, State.group_loseAll_other fun b hb => hall b (List.mem_filter.mp hb).1,
      State.group_modGroup_other _ hne, hsame]

end

end Sys2Proof.Machine
end

section
/-! SUPPORT. A fast round by its pick (R221, R222, R228). -/

namespace Sys2Proof.Machine
variable {u : State} {n key : Nat}

theorem exec_fastRound {s : State} {dt : Nat} {target : BitVec 9} (hu : s.elapse dt = u) (hr : u.running = true)
    (hn : target.toNat = n) : exec (.fastRound dt target) s = .next (s.left (u.fastRound n)) := by
  subst hu hn
  exact State.plane_on (f := fun s => s.fastRound target.toNat) hr

/-- No round stands where the lane is closed, the core waits for its edge or its slot is full, or nothing is a candidate. -/
theorem State.fastRound_off (h : u.sampled.fastOpen n = false ∨ 256 < n ∨ u.clock.dp < (u.core n).fromF ∨
    (u.core n).presF ≠ none ∨ u.fastPick n u.clock.dp = none) : u.fastRound n = u := by
  rcases h with h | h | h | h | h
  · simp [State.fastRound, State.fastDue, h]
  · simp [State.fastRound, State.fastDue, Nat.not_le.mpr h]
  · simp [State.fastRound, State.fastDue, Nat.not_le.mpr h]
  · simp [State.fastRound, State.fastDue, h]
  · simp [State.fastRound, h]

theorem State.fastDue_on (hr : u.running = true) (hs : u.levels.stbyOk = false) (hn : n ≤ 256)
    (ho : u.sampled.fastOpen n = true) (hp : (u.core n).presF = none) (hf : (u.core n).fromF ≤ u.clock.dp) :
    u.fastDue n = true := by
  simp [State.fastDue, State.ready_of_running hr, hs, hn, ho, hp, hf]

theorem State.fastRound_picks (hd : u.fastDue n = true) (hk : u.fastPick n u.clock.dp = some key) :
    u.fastRound n = (u.count fFast 4).modCore n fun c =>
      { c with
        presF := some { intid := key, dup := (u.int key).dup, loadAt := u.clock.dp + 1, group := 0 }
        fptr := (fastPos key + 1) % 4096
        lat := if bit (u.reg fFast 0x20) 1 then
            c.lat ++ ((u.sampled.int key).origin.map fun o =>
              ({ rise := u.clock.edge + 3, origin := o, intid := intidOf key } : LatWait)).toList
          else c.lat
        lineF := drive c.lineF u.clock.edge (u.clock.edge + 3) true } := by
  have hreg : (u.count fFast 4).reg fFast 0x20 = u.reg fFast 0x20 := by
    obtain ⟨_, _, _, heq⟩ := State.arbOnly.count u fFast 4
    rw [heq]
    rfl
  simp [State.fastRound, hd, hk, hreg, State.int]

end Sys2Proof.Machine
end

section
open Sys2Proof Sys2Proof.Machine

/-- Settles O28: a target round by its winner, field by field, then a fast round by its pick. -/
theorem roundsPresentTheirWinner : Obligations.RoundsPresentTheirWinner := by
  refine ⟨?_, ?_⟩
  · intro s u dt target n bids hu hr hn hbids
    rw [exec_targetRound hu hr hn]
    subst hbids
    refine ⟨fun h => by rw [State.targetRound_idle h], fun g key hd hw hk hcores hgroups => ⟨u.targetRound n, rfl, ?_⟩⟩
    obtain ⟨v, huv, hround⟩ := State.targetRound_presents hd hw hk
    obtain ⟨moves, span, hwin, hlose, hrest⟩ := State.targetRound_group hd hw hk hgroups
    refine ⟨(hround.core n).trans (State.presentN_core huv hcores), ?_, ?_, ?_, fun b hb hne hweight hsnap => ?_, hrest,
      fun k hne => (hround.core k).trans (State.presentN_core_other huv hne), ?_⟩
    · rw [hwin]; rfl
    · rw [hwin]; rfl
    · rw [hwin]; rfl
    · rw [hlose b hb hne]
      exact Group.lose_fresh hweight hsnap
    · obtain ⟨_, _, _, hround⟩ := hround
      obtain ⟨_, _, _, rfl⟩ := huv
      rw [hround]
      exact ⟨rfl, rfl, rfl, rfl, rfl, rfl, rfl, rfl, rfl⟩
  · intro s u dt target n hu hr hn
    rw [exec_fastRound hu hr hn]
    refine ⟨fun h => ?_, fun key hs hle ho hp hf hk => ?_⟩
    · rw [State.fastRound_off h]
    · rw [State.fastRound_picks (State.fastDue_on hr hs hle ho hp hf) hk]
end

section
/-! SUPPORT. The walkers' ticks, the grant of a scrub access, and what the access does at its edges (R392, R393). -/

namespace Sys2Proof.Machine
variable {s u v : State} {dt : Nat} {l : Lock} {n : ScrubNow}

/-! ### The walkers (R392) -/

theorem exec_scrubWalkerTick {store : BitVec 3} (hu : s.elapse dt = u) (hr : u.running = true) :
    exec (.scrubWalkerTick dt store) s = .next (s.left (u.walkerTick store.toNat)) := by
  subst hu
  exact State.plane_on (f := fun s => s.walkerTick store.toNat) hr

theorem State.walkerTick_due {m : Nat} (hr : u.running = true) (hm : m < 7) (hw : u.walkerRuns m = true)
    (hd : (u.walker m).tickedAt + u.walkInterval ≤ u.clock.dp) :
    u.walkerTick m = u.setWalker m { u.walker m with wants := true, tickedAt := u.clock.dp } := by
  simp [State.walkerTick, hr, hm, hw, hd]

theorem State.walkerTick_early {m : Nat} (hd : u.clock.dp < (u.walker m).tickedAt + u.walkInterval) :
    u.walkerTick m = u := by
  simp [State.walkerTick, Nat.not_le.mpr hd]

theorem State.walkerTick_stopped {m : Nat} (hw : u.walkerRuns m = false) : u.walkerTick m = u := by
  simp [State.walkerTick, hw]

/-! ### The grant (R393, R394) -/

theorem exec_scrubAccess {store : BitVec 3} {bank : BitVec 4} {page : PageRead} (hu : s.elapse dt = u) (hr : u.running = true) :
    exec (.scrubAccess dt store bank page) s = .next (s.left (u.scrubAccess store.toNat bank.toNat page)) := by
  subst hu
  exact State.plane_on (f := fun s => s.scrubAccess store.toNat bank.toNat page) hr

theorem State.scrubAccess_denied {m b : Nat} {pr : PageRead}
    (h : u.scrubBanks.contains (m, b) = false ∨ u.maintWins 1 m b = false) : u.scrubAccess m b pr = u :=
  if_pos (by rcases h with h | h <;> rw [h] <;> simp)

/-- The hold of a scrub access over its bank: nine edges from its grant. -/
def scrubLock (m b page g : Nat) (pr : PageRead) (owned : Bool) : Lock :=
  { memory := m, bank := b, owner := 3, grant := g, lasts := g + 8, unit := none, ended := false,
    scrub := some { page := page, read := pr, owned := owned, found := none } }

/-- A lock added to those of the sluice, the access counted. -/
def State.scrubHeld (s : State) (l : Lock) : State :=
  State.count { s with sluice.locks := s.sluice.locks ++ [l] } fIntegrity 10

/-- The access takes the next page of the pass in its bank, or the next of the walker, which then asks for none. -/
theorem State.scrubAccess_granted {m b a : Nat} {pr : PageRead} {owned : Bool} {p : ScrubPass} {w : State}
    (hr : u.running = true) (hb : u.scrubBanks.contains (m, b) = true) (hm : u.maintWins 1 m b = true)
    (ho : u.passBanks.contains (m, b) = owned) (hp : owned = true → u.integrity.pass = some p)
    (ha : (if owned then look 0 p.next (16 * m + b) * banksOf m + b else (u.walker m).next) = a)
    (hw : (u.chargeMaint 1 m b).scrubHeld (scrubLock m b a (u.chargeMaint 1 m b).clock.dp pr owned) = w) :
    u.scrubAccess m b pr = if owned then w else w.setWalker m { w.walker m with wants := false } := by
  subst ha hw
  simp only [State.scrubAccess, hr, hb, hm, ho]
  cases owned with
  | false => rfl
  | true => rw [hp rfl]; rfl

/-! ### The edges of an access (R393) -/

theorem State.scrubEdges_unread (hl : u.sluice.locks = [l]) (hn : l.scrub = some n) (he : l.ended = false)
    (hf : n.found = none) : u.scrubEdges = if l.grant + 2 ≤ u.clock.dp then u.scrubVerdict l n else u := by
  simp [State.scrubEdges, hl, hn, he, hf]

theorem State.scrubEdges_read {c h : Bool} (hl : u.sluice.locks = [l]) (hn : l.scrub = some n) (he : l.ended = false)
    (hf : n.found = some (c, h)) : u.scrubEdges = if l.grant + 8 ≤ u.clock.dp then
      (State.rewriteEpoch { u with sluice.locks := [{ l with ended := true }] } l.memory n.page).scrubbed l n true c h
    else u := by
  simp [State.scrubEdges, hl, hn, he, hf]

/-- A page that needs no correction is neither corrected nor heavy. -/
theorem State.scrubVerdict_clean (hl : u.sluice.locks = [l])
    (hp : u.readPage l.memory n.page 0 true n.read = (⟨true, false, 0⟩, v))
    (hc : v.countOf fIntegrity 4 = u.countOf fIntegrity 4) (hs : v.sluice = u.sluice) :
    u.scrubVerdict l n =
      { v with sluice.locks := [{ l with scrub := some { n with found := some (false, false) } }] } := by
  simp [State.scrubVerdict, hp, hc, hs, hl]

theorem State.scrubbed_of_walker {usable c h : Bool} (ho : n.owned = false) :
    u.scrubbed l n usable c h = u.walkerStep l.memory :=
  if_neg (by simp [ho])

end Sys2Proof.Machine
end

section
/-! SUPPORT. The rebuild of a page from flops, and the write edge of a page to re-encode (R391, R398). -/

namespace Sys2Proof.Machine
variable {s u : State} {dt : Nat} {j : Reencode} {l : Lock} {page : PageRead}

theorem exec_pageRebuild {store : BitVec 3} {index : BitVec 16} (hu : s.elapse dt = u) (hr : u.running = true) :
    exec (.pageRebuild dt store index) s = .next (s.left (u.rebuild store.toNat index.toNat)) := by
  subst hu
  exact State.plane_on (f := fun s => s.rebuild store.toNat index.toNat) hr

theorem State.rebuild_due {m p : Nat} (hr : u.running = true) (hp : u.integrity.rebuilds.contains (m, p) = true)
    (hf : u.maintFree m 0 = true) : u.rebuild m p = State.count (State.unpoison
      { u with integrity.rebuilds := u.integrity.rebuilds.filter fun e => decide (e ≠ (m, p)) } m p) fIntegrity 9 :=
  if_pos (by rw [hr, hp, hf]; rfl)

theorem exec_reencodePage (hu : s.elapse dt = u) (hr : u.running = true) :
    exec (.reencodePage dt page) s = .next (s.left (u.reencodePage page)) := by
  subst hu
  exact State.plane_on (f := fun s => s.reencodePage page) hr

/-- The page of a journal written back and its bank freed, an unusable descriptor page broken. -/
def State.pageReencoded (s : State) (j : Reencode) (l : Lock) (usable : Bool) : State :=
  let s := (s.rewriteEpoch j.store j.next).unlock l.memory l.bank
  if j.store = 4 ∧ !usable then s.breakPage j.next else s

/-- A granted page waits for the write edge of its locked sequence. -/
theorem State.reencodePage_granted (hr : u.running = true) (hj : u.integrity.journal = some j) (hl : u.markedLock = some l)
    (hk : u.keeperAlive = true) (hg : j.running = true) (hm : l.memory = j.store) (ht : u.clock.dp < l.grant + 64) :
    u.reencodePage page =
      if u.clock.dp < writeEdge l.grant (u.readPage j.store j.next 6 false page).1.correction then u
      else ((u.readPage j.store j.next 6 false page).2.pageReencoded j l
        (u.readPage j.store j.next 6 false page).1.usable).pageEncoded j := by
  simp only [State.reencodePage, hj, hl]
  exact if_neg (by simp [hr, hk, hg, hm, ht])

theorem State.pageReencoded_kept {usable : Bool} (h : j.store ≠ 4 ∨ usable = true) :
    u.pageReencoded j l usable = (u.rewriteEpoch j.store j.next).unlock l.memory l.bank :=
  if_neg fun ⟨h4, hu⟩ => h.elim (· h4) fun h => by simp [h] at hu

/-- A page that is not its store's last, of a re-encode that no command runs, moves the journal on by itself. -/
theorem State.pageEncoded_next (hn : j.next + 1 ≠ Config.storePages j.store) (hs : (u.count fIntegrity 12).strengthRuns = false) :
    u.pageEncoded j = { u.count fIntegrity 12 with integrity.journal := some { j with next := j.next + 1 } } := by
  rw [State.pageEncoded, if_neg hn]
  generalize u.count fIntegrity 12 = v at hs
  have hs' : State.strengthRuns { v with integrity.journal := some { j with next := j.next + 1 } } = false := hs
  dsimp only
  split
  · rw [hs']; rfl
  · rfl

end Sys2Proof.Machine
end

section
/-! SUPPORT. The upsets of an edge, and the entry that the sweep of the fast table reads (R216). -/

namespace Sys2Proof.Machine
variable {s u w : State} {dt i : Nat} {upsets : List Upset}

theorem exec_fastTableSweep (hu : s.elapse dt = u) (hr : u.running = true) :
    exec (.fastTableSweep ⟨dt, upsets⟩) s = .next (s.left (u.fastSweep upsets)) := by
  subst hu
  exact State.plane_on (f := fun s => s.fastSweep upsets) hr

/-- The upsets of an edge: the fast table keeps them, the flops are voted. -/
def State.struckBy (s : State) (upsets : List Upset) : State :=
  (cellsOf upsets).foldl (fun (v : State) c => v.voteFlops upsets c) (upsets.foldl State.upset s)

theorem State.fastSweep_off (hw : u.struckBy upsets = w) (hb : bit (w.reg fFast 0x20) 0 = false) :
    u.fastSweep upsets = w := by
  subst hw
  exact if_pos (by rw [State.struckBy] at hb; rw [hb]; rfl)

theorem State.fastSweep_on (hw : u.struckBy upsets = w) (hb : bit (w.reg fFast 0x20) 0 = true) (hi : w.routes.sweepAt = i) :
    u.fastSweep upsets = { w.ftFix true i with routes.sweepAt := if 4095 ≤ i then 64 else i + 1 } := by
  subst hw hi
  exact if_neg (by rw [State.struckBy] at hb; rw [hb]; simp)

/-- A copy found odd by the sweep is recorded with the sweep's flag, as store 0 of the fast lane. -/
theorem State.ftFix_sweep_odd {copy : Nat} (hback : w.routes.ftBack.contains i = false) (ho : (w.ft i).odd = some copy) :
    w.ftFix true i =
      { w.voteFixed true copy 0 0 i with routes.ftBack := (w.event fFast 7 139).routes.ftBack ++ [i] } := by
  rw [State.ftFix, hback, ho]
  rfl

end Sys2Proof.Machine
end

section
open Sys2Proof Sys2Proof.Machine

/-- Settles O57: a walker by its interval, a scrub access by its grant and its edges, then the rebuild, the re-encode by the
write edge, and the sweep by the vote of its entry. -/
theorem integrityWorkGoesPageByPage : Obligations.IntegrityWorkGoesPageByPage := by
  intro s u dt hu hr
  refine ⟨fun store hs hruns w hw => ?_, fun store h => ?_, fun store bank page v owned p a hb hm hv ho hp ha w hw => ?_,
    fun l n hl hn he => ⟨fun hf hd => ?_, fun v hf hd hread hc hsl => ?_, fun c h v hf => ⟨fun hd => ?_, fun hd ho hv => ?_⟩⟩,
    fun store bank page h => ?_, fun store index hp hf => ?_, fun j l page r v hj hl hk hg hm ht hread => ⟨fun hd => ?_, ?_⟩,
    fun upsets w hw => ⟨fun hb => ?_, fun i hb hi => ⟨fun ho => ?_, fun copy v hback ho hv => ?_⟩⟩⟩
  · rw [exec_scrubWalkerTick hu hr]
    subst hw
    exact ⟨fun hd => by rw [State.walkerTick_due hr hs hruns hd], fun hd => by rw [State.walkerTick_early hd]⟩
  · rw [exec_scrubWalkerTick hu hr, State.walkerTick_stopped h]
  · subst hv
    rw [exec_scrubAccess hu hr, State.scrubAccess_granted hr hb hm ho hp ha hw]
  · rw [State.scrubEdges_unread hl hn he hf, if_neg (Nat.not_le.mpr hd)]
  · rw [State.scrubEdges_unread hl hn he hf, if_pos hd, State.scrubVerdict_clean hl hread hc hsl]
  · rw [State.scrubEdges_read hl hn he hf, if_neg (Nat.not_le.mpr hd)]
  · rw [State.scrubEdges_read hl hn he hf, if_pos hd, State.scrubbed_of_walker ho, hv]
  · rw [exec_scrubAccess hu hr, State.scrubAccess_denied h]
  · rw [exec_pageRebuild hu hr, State.rebuild_due hr hp hf]
  · subst hread
    rw [exec_reencodePage hu hr, State.reencodePage_granted hr hj hl hk hg hm ht, if_pos hd]
  · intro hd husable hv hnext hs
    subst hread hv
    rw [exec_reencodePage hu hr, State.reencodePage_granted hr hj hl hk hg hm ht, if_neg (Nat.not_lt.mpr hd),
      State.pageReencoded_kept husable, State.pageEncoded_next hnext hs]
  · rw [exec_fastTableSweep hu hr, State.fastSweep_off hw hb]
  · rw [exec_fastTableSweep hu hr, State.fastSweep_on hw hb hi, State.ftFix_agreed (.inl ho)]
  · subst hv
    rw [exec_fastTableSweep hu hr, State.fastSweep_on hw hb hi, State.ftFix_sweep_odd hback ho]
    rfl
end

section
/-! SUPPORT. The timers of the pump, and the answer to a head read (R245, R246, R250). -/

namespace Sys2Proof.Machine
variable {s u v : State} {dt n c : Nat} {a : OutAccess} {x y : Cached}

/-! ### Head reads (R245) -/

theorem State.headResponse_ok {consumed : DWord} (h : u.awaits n a) (hk : a.req.kind = .head c) :
    u.headResponse n true consumed = (u.freeTag n).refresh c (loWord consumed) := State.answered_ok h hk rfl rfl

section
variable {consumed value : Word} (hx : v.cached c = some x)
include hx

/-- An entry that has asked for no refresh takes none. -/
theorem State.refresh_unasked (ho : x.headOut = false) : v.refresh c consumed = v := by
  simp [State.refresh, hx, ho]

section
variable (ho : x.headOut = true)
  (hvalue : (if x.size < (x.total - consumed).toNat then x.total - BitVec.ofNat 32 x.size else consumed) = value)
  (hy : { x with consumed := value, headOut := false, wanted := false, asked := false,
                 fresh := if x.asked || x.held.isSome then some x.total else none } = y)
include ho hvalue hy

/-- The refresh ends where no further one is wanted, or the ring has space. -/
theorem State.refresh_ends (hend : x.wanted = false ∨ y.fill < y.size) :
    v.refresh c consumed =
      (if x.size < (x.total - consumed).toNat then v.count fPump 12 else v).setCached c (some y) := by
  subst hvalue hy
  have hagain : ¬ (x.wanted = true ∧ _ ≤ _) := fun h => hend.elim (by simp [h.1]) (Nat.not_lt.mpr h.2)
  simp only [State.refresh, hx, ho, decide_eq_true_eq, Bool.and_eq_true]
  rw [if_neg (by simp), if_neg hagain]

/-- A further refresh that this one does not satisfy is made at once. -/
theorem State.refresh_again (hwanted : x.wanted = true) (hfull : y.size ≤ y.fill) :
    v.refresh c consumed =
      ((if x.size < (x.total - consumed).toNat then v.count fPump 12 else v).setCached c
        (some { y with asked := x.asked, fresh := none })).headRead c := by
  subst hvalue hy
  simp only [State.refresh, hx, ho, decide_eq_true_eq, Bool.and_eq_true]
  rw [if_neg (by simp), if_pos ⟨hwanted, hfull⟩]

end

end

/-! ### Timers -/

section
variable {w : State} {cistern : BitVec 15} (hu : s.elapse dt = u) (hr : u.running = true)
include hu hr

theorem exec_floatPoll (hw : u.floatPoll cistern.toNat = w) : exec (.floatPoll dt cistern) s = .next (s.left w) := by
  subst hu hw
  exact State.plane_on (f := fun s => s.floatPoll cistern.toNat) hr

theorem exec_holdRefresh (hw : u.holdRefresh cistern.toNat = w) : exec (.holdRefresh dt cistern) s = .next (s.left w) := by
  subst hu hw
  exact State.plane_on (f := fun s => s.holdRefresh cistern.toNat) hr

theorem exec_holdLimitExpire (hw : u.holdLimit cistern.toNat = w) :
    exec (.holdLimitExpire dt cistern) s = .next (s.left w) := by
  subst hu hw
  exact State.plane_on (f := fun s => s.holdLimit cistern.toNat) hr

theorem exec_coalTimerExpire (hw : u.coalTimer cistern.toNat = w) :
    exec (.coalTimerExpire dt cistern) s = .next (s.left w) := by
  subst hu hw
  exact State.plane_on (f := fun s => s.coalTimer cistern.toNat) hr

end

section
variable (hx : v.cached c = some x)
include hx

theorem State.floatPoll_due (hf : x.floatUp = true)
    (he : v.clock.edge % (256 * atLeast1 (bits (v.sampled.reg fPump 0x20) 15 8)) = 0) :
    v.floatPoll c = v.headRead c := by
  simp [State.floatPoll, hx, hf, he]

theorem State.floatPoll_idle (h : x.floatUp = false ∨
    v.clock.edge % (256 * atLeast1 (bits (v.sampled.reg fPump 0x20) 15 8)) ≠ 0) : v.floatPoll c = v := by
  rcases h with hf | he
  · simp [State.floatPoll, hx, hf]
  · simp [State.floatPoll, hx, he]

section
variable {r : Rec} {since : Nat} (hh : x.held = some (r, since))
include hh

theorem State.holdRefresh_due (h : since < v.clock.dp) (hm : (v.clock.dp - since) % 256 = 0) :
    v.holdRefresh c = v.headRead c := by
  simp only [State.holdRefresh, hx, hh, if_pos (And.intro h hm)]

theorem State.holdRefresh_between (hm : (v.clock.dp - since) % 256 ≠ 0) : v.holdRefresh c = v := by
  simp only [State.holdRefresh, hx, hh, if_neg (fun h => hm (And.right h))]

/-- Before its limit, or once a refresh has shown space, the record stays held. -/
theorem State.holdLimit_stays
    (h : v.clock.dp < since + 256 * atLeast1 (bits (v.sampled.reg fPump 0x20) 7 0) ∨ x.fill < x.size) :
    v.holdLimit c = v := by
  simp only [State.holdLimit, hx, hh, Bool.or_eq_true, decide_eq_true_eq, if_pos h]

/-- At its limit the record at the head of a port is diverted with RING_FULL. -/
theorem State.holdLimit_diverts {p id : Nat} (hfull : x.size ≤ x.fill)
    (hd : since + 256 * atLeast1 (bits (v.sampled.reg fPump 0x20) 7 0) ≤ v.clock.dp) (hs : r.source = some (p, id))
    (hp : (v.port p).normal.any (fun d => decide (d.id = id)) = true) :
    v.holdLimit c = (v.unhold c).divertHead p id 0x13 := by
  have hdue : ¬ (v.clock.dp < since + 256 * atLeast1 (bits (v.sampled.reg fPump 0x20) 7 0) ∨ x.fill < x.size) := by omega
  have hhead : ((v.unhold c).port p).normal.any (fun d => decide (d.id = id)) = true := hp
  simp only [State.holdLimit, hx, hh, hs, Bool.or_eq_true, decide_eq_true_eq, if_neg hdue, hhead, if_true]

end

section
variable {t : Nat} (ht : x.coalAt = some t)
include ht

theorem State.coalTimer_due (hst : x.st = .opened) (h0 : dscCoalTime x.w2 ≠ 0)
    (hd : t + 64 * dscCoalTime x.w2 ≤ v.clock.dp) : v.coalTimer c = (v.setCached c (some x.makeDue)).fireDue c := by
  simp only [State.coalTimer, hx, ht, if_pos (And.intro hst (And.intro h0 hd))]

theorem State.coalTimer_early (hd : v.clock.dp < t + 64 * dscCoalTime x.w2) : v.coalTimer c = v := by
  simp only [State.coalTimer, hx, ht, if_neg (fun h => Nat.not_le.mpr hd (And.right (And.right h)))]

end

end

end Sys2Proof.Machine
end

section
open Sys2Proof Sys2Proof.Machine

/-- Settles O35: the answer to a head read by what it brings, then each timer at its edge and before it. -/
theorem headReadsAndPumpTimers : Obligations.HeadReadsAndPumpTimers := by
  refine ⟨?_, ?_⟩
  · intro s u w dt tag a c x y consumed v hu h hk hx hw
    subst hw
    have hx' := State.freeTag_cached (n := tag.toNat) hx
    have got := State.headResponse_ok (consumed := consumed) h hk
    refine ⟨fun ho => ?_, fun ho hv hy => ⟨fun hend => ?_, fun hwanted hfull => ?_⟩⟩
    · exact exec_awaited _ hu h (got.trans (State.refresh_unasked hx' ho))
    · exact exec_awaited _ hu h (got.trans (State.refresh_ends hx' ho hv hy hend))
    · exact exec_awaited _ hu h (got.trans (State.refresh_again hx' ho hv hy hwanted hfull))
  · intro s u dt cistern c x hu hr hc hx
    subst hc
    refine ⟨fun hf he => exec_floatPoll hu hr (State.floatPoll_due hx hf he),
      fun hidle => exec_floatPoll hu hr (State.floatPoll_idle hx hidle), fun r since hh => ?_, fun t ht => ?_⟩
    · exact ⟨fun hlt hm => exec_holdRefresh hu hr (State.holdRefresh_due hx hh hlt hm),
        fun hm => exec_holdRefresh hu hr (State.holdRefresh_between hx hh hm),
        fun hearly => exec_holdLimitExpire hu hr (State.holdLimit_stays hx hh (.inl hearly)),
        fun hspace => exec_holdLimitExpire hu hr (State.holdLimit_stays hx hh (.inr hspace)),
        fun p id hfull hdue hs hp => exec_holdLimitExpire hu hr (State.holdLimit_diverts hx hh hfull hdue hs hp)⟩
    · exact ⟨fun hst h0 hdue => exec_coalTimerExpire hu hr (State.coalTimer_due hx ht hst h0 hdue),
        fun hearly => exec_coalTimerExpire hu hr (State.coalTimer_early hx ht hearly)⟩
end

section
/-! SUPPORT. The outbound port: what a grant issues, when a beat is taken, and the accesses that end late (R254, R255, R438, R456). -/

namespace Sys2Proof.Machine
variable {s u v w : State} {dt n : Nat} {tag : BitVec 9} {a : OutAccess} {q : OutReq}

/-! ### The grant (R254, R417) -/

theorem exec_outboundGrant (hv : s.elapse dt = v) (hr : v.running = true) (hu : v.noteChange = u)
    (hw : u.outboundGrant = w) : exec (.outboundGrant dt) s = .next (s.left w) := by
  subst hv hu hw
  exact State.plane_on (f := State.grantOutbound) hr

/-- A rewrite goes first where a write can be granted. -/
theorem State.outboundGrant_rewrite {rest : List OutReq} (hq : u.pump.rewrites = q :: rest) (hc : u.canIssue false = true) :
    u.outboundGrant = u.grantRewrite q rest := by
  simp only [State.outboundGrant, hq, hc, List.filter_true]

/-- Without one, the oldest tier-1 request that the channel can carry is issued. -/
theorem State.outboundGrant_tier1 (hnone : u.pump.rewrites = [] ∨ u.canIssue false = false)
    (hq : u.pump.tier1.find? (fun q => u.canIssue q.kind.isRead) = some q)
    (hw : { u with pump.tier1 := u.pump.tier1.erase q } = w) : u.outboundGrant = w.issue q := by
  have hrewrites : u.pump.rewrites.filter (fun _ => u.canIssue false) = [] := by
    rcases hnone with h | h
    · rw [h, List.filter_nil]
    · rw [h, List.filter_false]
  subst hw
  simp only [State.outboundGrant, hrewrites, hq]

/-- While a beat stands on the request channel, nothing can be granted. -/
theorem State.canIssue_busy (h : u.pump.beat.isSome = true) (read : Bool) : u.canIssue read = false := by
  simp [State.canIssue, Option.isSome_iff_ne_none.mp h]

theorem State.outboundGrant_busy (h : u.pump.beat.isSome = true) : u.outboundGrant = u := by
  have hnone : u.pump.tier1.find? (fun _ => false) = none := by simp
  simp [State.outboundGrant, State.canIssue_busy h, hnone]

/-- A permitted request other than a line write stands on the channel under the lowest free tag, counted by its kind. -/
theorem State.issue_permitted {t t' : State} (hp : w.reqPermitted q = true) (hitems : q.kind.items? = none)
    (ht : { w with pump.issued := w.pump.issued ++ [{ req := q, tag := w.nextTag, takenAt := none, timedOut := false }],
                   pump.beat := some w.nextTag } = t)
    (ht' : t.countIssued q.kind = t') : w.issue q = if q.kind.isHead then t'.count fPump 8 else t' := by
  subst ht ht'
  simp only [State.issue, hp, hitems, Bool.not_true, Bool.false_eq_true, if_false]

/-- A request that is not permitted is counted and handled as failed. -/
theorem State.issue_denied (hp : w.reqPermitted q = false) : w.issue q = (w.count fOut 6).accessFailed q.kind 2 := by
  simp only [State.issue, hp, Bool.not_false, if_true]

/-! ### The beats (R255, R438) -/

theorem exec_omRequestTaken (hv : s.elapse dt = v) (hr : v.running = true) (hw : v.requestTaken = w) :
    exec (.omRequestTaken dt) s = .next (s.left w) := by
  subst hv hw
  exact State.plane_on (f := State.requestTaken) hr

/-- One beat is taken an edge. -/
theorem State.requestTaken_again (h : v.pump.beatAt = some v.clock.dp) : v.requestTaken = v := by
  simp [State.requestTaken, h]

section
variable (hr : v.running = true) (h : v.pump.beatAt ≠ some v.clock.dp)
include hr h

/-- A request's beat starts its access's timeout; a line that is written has a second beat. -/
theorem State.requestTaken_beat {t : Nat} (hb : v.pump.beat = some t) (ha : v.access t = some a) :
    v.requestTaken =
      { v with pump.issued := v.pump.issued.map fun b => if b.tag = t then { b with takenAt := some v.clock.dp } else b,
               pump.beat := none, pump.second := if a.req.line = true ∧ a.req.kind.isRead = false then some t else none,
               pump.beatAt := some v.clock.dp } := by
  have ha' : v.pump.issued.find? (fun b => decide (b.tag = t)) = some a := ha
  simp [State.requestTaken, State.not_frozen_of_running hr, h, hb, State.access, ha']

theorem State.requestTaken_second (hb : v.pump.beat = none) :
    v.requestTaken = { v with pump.second := none, pump.beatAt := some v.clock.dp } := by
  simp [State.requestTaken, State.not_frozen_of_running hr, h, hb]

end

/-! ### Timeouts, late answers and strays (R438, R456) -/

theorem exec_outboundTimeout (hu : s.elapse dt = u) (hr : u.running = true) (hw : u.outboundTimeout tag.toNat = w) :
    exec (.outboundTimeout dt tag) s = .next (s.left w) := by
  subst hu hw
  exact State.plane_on (f := fun s => s.outboundTimeout tag.toNat) hr

section
variable {t : Nat} (ha : u.access n = some a) (ht : a.takenAt = some t)
include ha ht

theorem State.outboundTimeout_early (h : u.clock.dp < t + 65536) : u.outboundTimeout n = u := by
  simp [State.outboundTimeout, ha, ht, Config.timeout, h]

/-- The access is marked, counted and handled as failed; it keeps its tag. -/
theorem State.outboundTimeout_due (hr : u.running = true) (hlate : a.timedOut = false) (h : t + 65536 ≤ u.clock.dp)
    (hw : { u with pump.issued := u.pump.issued.map fun b => if b.tag = n then { b with timedOut := true } else b } = w) :
    u.outboundTimeout n = (w.count fOut 5).accessFailed a.req.kind 1 := by
  have hdue : ¬ u.clock.dp < t + Config.timeout := Nat.not_lt.mpr h
  subst hw
  simp only [State.outboundTimeout, ha, ht, hlate, State.not_frozen_of_running hr, hdue, decide_false, Bool.or_self,
    Bool.false_eq_true, if_false]

end

theorem State.lateAnswer_late (ha : u.access n = some a) (hlate : a.timedOut = true) : u.lateAnswer n = u.freeTag n := by
  simp only [State.lateAnswer, ha, hlate, if_true]

theorem State.strayResponse_unnamed {read : Bool} (ha : u.access n = none) : u.strayResponse n read = u.count fOut 5 := by
  simp only [State.strayResponse, ha, State.stray]

/-- What memory answers takes effect at its edge where the block is clocked and not frozen (R360). -/
theorem State.response_applied {i : Instr} (hr : u.startup.inReset = false) (hf : u.frozen = false) :
    u.response i = u.applyAnswer i := by
  simp [State.response, hr, hf]

/-- In a freeze it is held for the resume edge. -/
theorem State.response_held {i : Instr} (hr : u.startup.inReset = false) (hf : u.frozen = true) :
    u.response i = { u with twin.answers := u.twin.answers ++ [i] } := by
  simp [State.response, hr, hf]

theorem exec_outboundLateAnswer (hu : s.elapse dt = u) (hw : u.response (.outboundLateAnswer 0 tag) = w) :
    exec (.outboundLateAnswer dt tag) s = .next (s.left w) := by
  subst hu hw
  rfl

theorem exec_omStrayResponse {read failed : Bool} (hu : s.elapse dt = u)
    (hw : u.response (.omStrayResponse 0 tag read failed) = w) :
    exec (.omStrayResponse dt tag read failed) s = .next (s.left w) := by
  subst hu hw
  rfl

end Sys2Proof.Machine
end

section
open Sys2Proof Sys2Proof.Machine

/-- Settles O38: the grant by what it finds on the channel, the beat, then the access that times out and the answers without
one. -/
theorem outboundAccessesAreGrantedAndTimed : Obligations.OutboundAccessesAreGrantedAndTimed := by
  refine ⟨?_, ?_⟩
  · intro s v u w dt hv hr hu
    refine ⟨fun q rest hq hc => ?_, fun q hnone hq hitems hw => ⟨fun t t' hp ht ht' => ?_, fun hp => ?_⟩, fun hb => ?_,
      fun h => ?_, fun h => ⟨fun tag a hb ha => ?_, fun hb => ?_⟩⟩
    · exact exec_outboundGrant hv hr hu (State.outboundGrant_rewrite hq hc)
    · exact exec_outboundGrant hv hr hu
        ((State.outboundGrant_tier1 hnone hq hw).trans (State.issue_permitted hp hitems ht ht'))
    · exact exec_outboundGrant hv hr hu ((State.outboundGrant_tier1 hnone hq hw).trans (State.issue_denied hp))
    · exact exec_outboundGrant hv hr hu (State.outboundGrant_busy hb)
    · exact exec_omRequestTaken hv hr (State.requestTaken_again h)
    · exact exec_omRequestTaken hv hr (State.requestTaken_beat hr h hb ha)
    · exact exec_omRequestTaken hv hr (State.requestTaken_second hr h hb)
  · intro s u w dt tag a hu
    refine ⟨fun t hr ha ht hlate => ⟨fun h => ?_, fun h hw => ?_⟩, fun hreset hf => ⟨fun ha hlate => ?_, fun ha read failed => ?_⟩,
      fun hreset hf => ?_⟩
    · exact exec_outboundTimeout hu hr (State.outboundTimeout_early ha ht h)
    · exact exec_outboundTimeout hu hr (State.outboundTimeout_due ha ht hr hlate h hw)
    · exact exec_outboundLateAnswer hu ((State.response_applied hreset hf).trans (State.lateAnswer_late ha hlate))
    · exact exec_omStrayResponse hu ((State.response_applied hreset hf).trans (State.strayResponse_unnamed ha))
    · exact exec_outboundLateAnswer hu (State.response_held hreset hf)
end

section
/-! SUPPORT. What the set of an INTID writes: its reservoir page and the votes, counts and records on its way, and nothing of the
ports, of the cache or of the accesses under way (R79, R216, R251, R386). -/

namespace Sys2Proof.Machine
variable {s t u : State}

/-- The second state is the first but for its counters and events, its interrupts, its route flops, its sluice, its twin and
integrity, and the records that wait for the spillway. -/
def State.setOnly (s t : State) : Prop :=
  ∃ (c : Tbl Counter) (o : Nat) (e : List Nat) (i : Tbl IntState) (r : Routes) (x : Sluice) (w : Twin) (g : Integrity) (l : List Rec),
    t = { s with front.counters := c, ovfs := o, raised := e, ints := i, routes := r, sluice := x, twin := w, integrity := g,
                 pump.spill.inside := l }

theorem State.setOnly.refl (s : State) : s.setOnly s := ⟨_, _, _, _, _, _, _, _, _, rfl⟩

theorem State.setOnly.trans (h : s.setOnly t) (h' : t.setOnly u) : s.setOnly u := by
  obtain ⟨_, _, _, _, _, _, _, _, _, rfl⟩ := h
  obtain ⟨_, _, _, _, _, _, _, _, _, rfl⟩ := h'
  exact ⟨_, _, _, _, _, _, _, _, _, rfl⟩

theorem State.setOnly.ite {c : Prop} [Decidable c] (ht : s.setOnly t) (hu : s.setOnly u) : s.setOnly (if c then t else u) := by
  split
  · exact ht
  · exact hu

theorem State.setOnly.foldl {α : Type} {f : State → α → State} (hf : ∀ s a, State.setOnly s (f s a)) (s : State) (l : List α) :
    s.setOnly (l.foldl f s) :=
  List.foldlRecOn (motive := s.setOnly) l f (.refl s) fun _ ht a _ => ht.trans (hf _ a)

theorem State.setOnly.count (s : State) (f i : Nat) : s.setOnly (s.count f i) := by
  obtain ⟨_, _, _, h⟩ := State.arbOnly.count s f i
  exact ⟨_, _, _, _, _, _, _, _, _, h⟩

theorem State.setOnly.raise (s : State) (fev : Nat) : s.setOnly (s.raise fev) := ⟨_, _, _, _, _, _, _, _, _, rfl⟩

theorem State.setOnly.event (s : State) (f i fev : Nat) : s.setOnly (s.event f i fev) := (State.setOnly.count ..).trans (.raise ..)

theorem State.setOnly.modWell (s : State) (b : Bool) (f : Well → Well) : s.setOnly (s.modWell b f) := by
  cases b <;> exact ⟨_, _, _, _, _, _, _, _, _, rfl⟩

/-! ### Page reads and page updates (R386 to R391) -/

theorem State.setOnly.tallyErr (s : State) (m p : Nat) (b : Bool) (v : Verdict × Verdict) : s.setOnly (s.tallyErr m p b v) := by
  have kept (t : State) (b : Bool) (v : Verdict) : t.setOnly (t.keepErrs b m p v) := by
    unfold State.keepErrs
    split
    · exact .modWell ..
    · exact .refl _
  have recorded (t : State) (w : Word) : t.setOnly { t with integrity.errLast := w } := ⟨_, _, _, _, _, _, _, _, _, rfl⟩
  have counted (h : Bool) (n : Bool) : s.setOnly (s.countErr m p b h n) := by
    have heavy : s.setOnly (if h then (s.count fIntegrity 3).event fIntegrity 4 152 else s.count fIntegrity 3) :=
      .ite ((State.setOnly.count ..).trans (.event ..)) (.count ..)
    exact .ite heavy (heavy.trans (recorded ..))
  exact ((State.setOnly.ite (counted ..) (.refl s)).trans (kept ..)).trans (kept ..)

theorem State.setOnly.trigger (s : State) (c : Nat) : s.setOnly (s.trigger c) := by
  unfold State.trigger
  repeat' split
  all_goals exact ⟨_, _, _, _, _, _, _, _, _, rfl⟩

theorem State.setOnly.takeUncorr (s : State) (m p r : Nat) (b : Bool) (v : Verdict × Verdict) :
    s.setOnly (s.takeUncorr m p r b v) := by
  have lead : s.setOnly (if isUncorr v.1 then s.poisonIn s.twin.leadB m p r else s) := .ite (.modWell ..) (.refl s)
  have poisoned : s.setOnly (s.poisonWells m p r v) := .ite (lead.trans (.modWell ..)) lead
  have counted (t : State) : t.setOnly (t.countPoison b) := (State.setOnly.event ..).trans (.count ..)
  have triggered (t : State) : t.setOnly (t.uncorrTrigger v) := .ite (.trigger ..) (.ite (.trigger ..) (.refl t))
  have rebuilt (t : State) (lost : Bool) : t.setOnly (t.askRebuild m p lost) :=
    .ite ⟨_, _, _, _, _, _, _, _, _, rfl⟩ (.refl t)
  exact ((poisoned.trans (.ite (counted _) (.refl _))).trans (triggered _)).trans (rebuilt ..)

theorem State.setOnly.readPage (s : State) (m p r : Nat) (b : Bool) (v : PageRead) : s.setOnly (s.readPage m p r b v).2 := by
  unfold State.readPage
  split
  · exact .count ..
  · dsimp only
    split
    · exact .tallyErr ..
    · exact (State.setOnly.tallyErr ..).trans (.takeUncorr ..)

theorem State.setOnly.wroteWhole (s : State) (m p : Nat) : s.setOnly (s.wroteWhole m p) := by
  have journalled (t : State) : t.setOnly (t.pageWritten m p) := by
    unfold State.pageWritten
    dsimp only
    repeat' split
    all_goals exact ⟨_, _, _, _, _, _, _, _, _, rfl⟩
  exact ((State.setOnly.modWell ..).trans (.modWell ..)).trans (journalled _)

theorem State.setOnly.updateInt (s : State) (k unit : Nat) : s.setOnly (s.updateInt k unit) := by
  have asked (t : State) (m u c : Nat) : t.setOnly (t.askUnit m u c) := ⟨_, _, _, _, _, _, _, _, _, rfl⟩
  have whole (t : State) (m u c p : Nat) : t.setOnly ((t.askUnit m u c).wroteWhole m p) := (asked ..).trans (.wroteWhole ..)
  exact .ite (.ite (asked ..) (whole ..)) (.ite (asked ..) ((State.setOnly.readPage ..).trans (whole ..)))

/-! ### Sets (R79, R216) and notifies (R251) -/

theorem State.setOnly.ftFix (s : State) (b : Bool) (i : Nat) : s.setOnly (s.ftFix b i) := by
  unfold State.ftFix State.voteFixed
  dsimp only
  repeat' split
  · exact .refl s
  · exact .refl s
  · obtain ⟨_, _, _, _, _, _, _, _, _, h⟩ := State.setOnly.event s fFast 7 139
    rw [h]
    exact ⟨_, _, _, _, _, _, _, _, _, rfl⟩

theorem State.setOnly.pend (s : State) (key : Nat) (o : Origin) : s.setOnly (s.pend key o) := by
  have read : s.setOnly (s.ftRead key) := .ite (.ftFix ..) (.refl s)
  have counted (t : State) : t.setOnly (if t.isFast key then t.count fFast 3 else t) := .ite (.count ..) (.refl t)
  have written (t : State) (x : IntState) : t.setOnly (t.setInt key x) := ⟨_, _, _, _, _, _, _, _, _, rfl⟩
  have stands := read.trans (counted _)
  exact .ite (stands.trans ((written ..).trans (.count ..))) (stands.trans ((written ..).trans (.updateInt ..)))

theorem State.setOnly.spillRec (s : State) (r : Rec) : s.setOnly (s.spillRec r) := ⟨_, _, _, _, _, _, _, _, _, rfl⟩

theorem State.setOnly.notifySet (s : State) (intid owner : Nat) (denied : Option Rec) :
    s.setOnly (s.notifySet intid owner denied) := by
  have read : s.setOnly (s.readInt intid 4).2 := by
    unfold State.readInt
    split
    · exact .readPage ..
    · exact .refl s
  unfold State.notifySet
  dsimp only
  split
  · exact .ite (read.trans ((State.setOnly.count ..).trans (.pend ..))) (read.trans (.spillRec ..))
  · split
    · exact .spillRec ..
    · exact .refl s

theorem State.setOnly.notifyCistern (s : State) (c : Nat) (x : Cached) : s.setOnly (s.notifyCistern c x) := by
  unfold State.notifyCistern
  exact .notifySet ..

/-- Making the notifies that are due is, but for its sets, the removal of these from the entry. -/
theorem State.fireDue_setOnly {c : Nat} {x : Cached} (hx : s.cached c = some x) :
    (s.setCached c (some { x with due := x.due.filter x.waitsFor })).setOnly (s.fireDue c) := by
  simp only [State.fireDue, hx]
  exact .foldl (fun _ _ => .notifyCistern ..) ..

end Sys2Proof.Machine
end

section
/-! SUPPORT. The records of an acknowledged line settle the doorbells that made them (R122, R249). -/

namespace Sys2Proof.Machine
variable {s t : State} {p q id k : Nat} {r : Rec} {items : List Buffered}

/-- No doorbell of the port under this number has still to settle. -/
def State.dbSettled (s : State) (p id : Nat) : Prop := ∀ n ∈ (s.port p).unsettled, n.id ≠ id

theorem State.settleDb_ports (s : State) (p id : Nat) (code : BitVec 2) : ∃ x, s.settleDb p id code = { s with ports := x } :=
  ⟨_, rfl⟩

theorem State.settleDb_rising {code : BitVec 2} (h : rising 0 s.ports = true) : rising 0 (s.settleDb p id code).ports = true :=
  rising_ins Port.reset h (Nat.zero_le p) _

theorem State.port_settleDb_other {code : BitVec 2} (hq : q ≠ p) : (s.settleDb p id code).port q = s.port q :=
  look_ins_other Port.reset _ hq

/-- What is left to settle is what was, but for the doorbell. -/
theorem State.unsettled_settleDb {code : BitVec 2} (h : rising 0 s.ports = true) :
    ((s.settleDb p id code).port p).unsettled = (s.port p).unsettled.filter fun n => decide (n.id ≠ id) := by
  rw [State.port, State.settleDb, State.modPort, State.setPort, look_ins_same Port.reset h]

theorem State.settleDb_settles {code : BitVec 2} (h : rising 0 s.ports = true) : (s.settleDb p id code).dbSettled p id := by
  intro n hn
  rw [State.unsettled_settleDb h] at hn
  exact of_decide_eq_true (List.mem_filter.mp hn).2

/-- A doorbell that has settled stays so. -/
theorem State.dbSettled.settleDb {code : BitVec 2} (h : rising 0 s.ports = true) (hs : s.dbSettled q k) :
    (s.settleDb p id code).dbSettled q k := by
  intro n hn
  by_cases hq : q = p
  · subst hq
    rw [State.unsettled_settleDb h] at hn
    exact hs n (List.mem_filter.mp hn).1
  · rw [State.port_settleDb_other hq] at hn
    exact hs n hn

theorem State.settleRec_rising (h : rising 0 s.ports = true) : rising 0 (s.settleRec r).ports = true := by
  unfold State.settleRec
  split
  · exact State.settleDb_rising h
  · exact h

theorem State.dbSettled.settleRec (h : rising 0 s.ports = true) (hs : s.dbSettled q k) : (s.settleRec r).dbSettled q k := by
  unfold State.settleRec
  split
  · exact hs.settleDb h
  · exact hs

theorem State.settleRec_settles (h : rising 0 s.ports = true) (hr : r.source = some (p, id)) : (s.settleRec r).dbSettled p id := by
  simp only [State.settleRec, hr]
  exact State.settleDb_settles h

/-- The records settle in their order. -/
def State.settleAll (s : State) (items : List Buffered) : State := items.foldl (fun s b => s.settleRec b.item) s

theorem State.settleAll_cons (s : State) (b : Buffered) (items : List Buffered) :
    s.settleAll (b :: items) = (s.settleRec b.item).settleAll items := rfl

/-- Settling writes the ports and nothing else. -/
theorem State.settleAll_ports (s : State) (items : List Buffered) : ∃ x, s.settleAll items = { s with ports := x } := by
  refine List.foldlRecOn (motive := fun t => ∃ x : Tbl Port, t = { s with ports := x }) items _ ⟨s.ports, rfl⟩ ?_
  rintro _ ⟨x, rfl⟩ b _
  unfold State.settleRec
  split
  · exact State.settleDb_ports ..
  · exact ⟨x, rfl⟩

theorem State.dbSettled.settleAll (h : rising 0 s.ports = true) (hs : s.dbSettled q k) : (s.settleAll items).dbSettled q k := by
  induction items generalizing s with
  | nil => exact hs
  | cons b rest ih =>
    rw [State.settleAll_cons]
    exact ih (State.settleRec_rising h) (hs.settleRec h)

/-- Every doorbell among the records has settled. -/
theorem State.settleAll_settles (h : rising 0 s.ports = true) {b : Buffered} (hb : b ∈ items)
    (hr : b.item.source = some (p, id)) : (s.settleAll items).dbSettled p id := by
  induction items generalizing s with
  | nil => cases hb
  | cons b' rest ih =>
    rw [State.settleAll_cons]
    rcases List.mem_cons.mp hb with rfl | hb
    · exact State.dbSettled.settleAll (State.settleRec_rising h) (State.settleRec_settles h hr)
    · exact ih (State.settleRec_rising h) hb

end Sys2Proof.Machine
end

section
/-! SUPPORT. The acknowledgement of a line or of a producer word (R248, R251, R256, R438). -/

namespace Sys2Proof.Machine
variable {s u v w : State} {n c : Nat} {a : OutAccess} {items : List Buffered} {x : Cached}

/-- A line of the pump is written, and is none of a re-pair's. -/
theorem OutKind.isRead_isStaging_of_isLine {k : OutKind} (h : k.isLine = true) : k.isRead = false ∧ k.isStaging = false := by
  cases k <;> simp_all [OutKind.isLine, OutKind.isRead, OutKind.isStaging]

section
variable (h : u.awaits n a)
include h

/-- A written line of the pump settles by its kind and is kept for a failover's rewrite. -/
theorem State.lineAnswer_ok {k : OutKind} (hk : a.req.kind = k) (hline : k.isLine = true) :
    u.lineAnswer n true = ((u.freeTag n).lineDone a.req.kind).keepLine a := by
  obtain ⟨hread, hstaging⟩ := OutKind.isRead_isStaging_of_isLine hline
  have answer : u.answered n false true OutKind.isLine (fun k s => s.lineDone k) = _ := State.answered_ok h hk hread hline
  obtain ⟨_, _, haccess, htaken, htime⟩ := h
  simpa [State.lineAnswer, State.lineResponse, haccess, hk, hstaging, hline, htaken, htime] using congrArg (·.keepLine a) answer

theorem State.producerResponse_ok {word : DWord} (hk : a.req.kind = .producer c word) :
    u.producerResponse n true = (u.freeTag n).keepLine a := by
  have answer : u.answered n false true OutKind.isProducer (fun _ s => s) = _ := State.answered_ok h hk rfl rfl
  obtain ⟨_, _, haccess, htaken, htime⟩ := h
  simpa [State.producerResponse, haccess, hk, OutKind.isProducer, htaken, htime] using congrArg (·.keepLine a) answer

end

/-! ### What a written line of a cistern leaves -/

/-- The line counted and its records settled. -/
def State.lineSettled (w : State) (items : List Buffered) : State := (w.count fPump 14).settleAll items

/-- The entry without the line's records among those unacknowledged. -/
def Cached.acknowledged (x : Cached) (items : List Buffered) : Cached :=
  { x with unacked := x.unacked.filter fun u => !(items.any fun b => decide ((b.index, b.appended) = u)) }

theorem State.lineDone_line : w.lineDone (.line c items) =
    ((w.lineSettled items).modCached c fun x => x.acknowledged items).fireDue c := rfl

theorem State.lineSettled_pump : (w.lineSettled items).pump = w.pump := by
  obtain ⟨_, h⟩ := State.settleAll_ports (w.count fPump 14) items
  rw [State.lineSettled, h]
  exact State.count_pump ..

theorem State.lineSettled_clock : (w.lineSettled items).clock = w.clock := by
  obtain ⟨_, h⟩ := State.settleAll_ports (w.count fPump 14) items
  rw [State.lineSettled, h]
  exact State.count_clock ..

theorem State.lineSettled_settles (h : rising 0 w.ports = true) {b : Buffered} {p id : Nat} (hb : b ∈ items)
    (hs : b.item.source = some (p, id)) : (w.lineSettled items).dbSettled p id :=
  State.settleAll_settles (by rwa [State.count_ports]) hb hs

/-- Making the notifies that are due is a set, of an entry's removed ones or of none. -/
theorem State.fireDue_writes (v : State) (c : Nat) : ∃ e, State.setOnly { v with pump.cache := e } (v.fireDue c) := by
  rcases hx : v.cached c with _ | x
  · exact ⟨v.pump.cache, by simpa [State.fireDue, hx] using State.setOnly.refl v⟩
  · exact ⟨_, State.fireDue_setOnly hx⟩

theorem State.fireDue_clock (v : State) (c : Nat) : (v.fireDue c).clock = v.clock := by
  obtain ⟨_, _, _, _, _, _, _, _, _, _, h⟩ := State.fireDue_writes v c
  rw [h]

theorem State.fireDue_ports (v : State) (c : Nat) : (v.fireDue c).ports = v.ports := by
  obtain ⟨_, _, _, _, _, _, _, _, _, _, h⟩ := State.fireDue_writes v c
  rw [h]

theorem State.fireDue_issued (v : State) (c : Nat) : (v.fireDue c).pump.issued = v.pump.issued := by
  obtain ⟨_, _, _, _, _, _, _, _, _, _, h⟩ := State.fireDue_writes v c
  rw [h]

/-- An entry keeps all but the notifies that it has made. -/
theorem State.fireDue_cached (hr : rising 0 v.pump.cache = true) (hx : v.cached c = some x) :
    (v.fireDue c).cached c = some { x with due := x.due.filter x.waitsFor } := by
  obtain ⟨_, _, _, _, _, _, _, _, _, h⟩ := State.fireDue_setOnly hx
  rw [h]
  exact look_ins_same none hr c _

theorem State.lineDone_clock : (w.lineDone (.line c items)).clock = w.clock :=
  (State.fireDue_clock ..).trans State.lineSettled_clock

theorem State.lineDone_issued : (w.lineDone (.line c items)).pump.issued = w.pump.issued := by
  have hissued : (w.lineSettled items).pump.issued = w.pump.issued := congrArg Pump.issued State.lineSettled_pump
  exact (State.fireDue_issued ..).trans hissued

theorem State.lineDone_settles (h : rising 0 w.ports = true) {b : Buffered} {p id : Nat} (hb : b ∈ items)
    (hs : b.item.source = some (p, id)) : (w.lineDone (.line c items)).dbSettled p id := by
  rw [State.lineDone_line, State.dbSettled, State.port, State.fireDue_ports]
  exact State.lineSettled_settles h hb hs

theorem State.lineDone_unacked (hr : rising 0 w.pump.cache = true) (hx : w.cached c = some x) :
    ∃ y, (w.lineDone (.line c items)).cached c = some y ∧ y.unacked = (x.acknowledged items).unacked := by
  have hcache : rising 0 (w.lineSettled items).pump.cache = true := by rwa [State.lineSettled_pump]
  have hentry : (w.lineSettled items).cached c = some x := by rwa [State.cached, State.lineSettled_pump]
  have hack : ((w.lineSettled items).modCached c fun x => x.acknowledged items).cached c = some (x.acknowledged items) := by
    rw [State.modCached, hentry]
    exact look_ins_same none hcache c _
  exact ⟨_, State.fireDue_cached (rising_ins none hcache (Nat.zero_le c) _) hack, rfl⟩

end Sys2Proof.Machine
end

section
/-! SUPPORT. The answer to an image's access, as the command under way takes it (R417 to R419, R430). -/

namespace Sys2Proof.Machine
variable {u w : State} {n offset : Nat} {a : OutAccess} {write ok : Bool} {data : List Byte} {r : Run} {i : Image}

/-- An image's awaited answer frees its tag, a failed one counted, and goes to the command with the bytes of one line. -/
theorem State.slotAnswer_image (h : u.awaits n a) (hk : a.req.kind = .image write offset) :
    u.slotAnswer n ok data =
      (if ok then u.freeTag n else (u.freeTag n).count fOut 5).imageAnswer ok ((data ++ zeros 64).take 64) := by
  obtain ⟨hreset, hfrozen, haccess, htaken⟩ := h
  simp only [State.slotAnswer, State.imageResponse, haccess, hk, OutKind.isStaging, Bool.false_and, Bool.false_eq_true, if_false]
  cases ok with
  | true => exact State.answered_ok ⟨hreset, hfrozen, haccess, htaken⟩ hk rfl rfl
  | false => exact State.answered_failed ⟨hreset, hfrozen, haccess, htaken⟩ hk rfl rfl

/-- With no image command the answer has nothing to go on with. -/
theorem State.imageAnswer_none (h : w.startup.image = none) : w.imageAnswer ok data = w := by
  have hrun : w.imageRun = none := by rw [State.imageRun, h]
  simp only [State.imageAnswer, hrun, h, Option.map_none]
  rw [← h]

theorem State.count_imageRun (w : State) (f k : Nat) : (w.count f k).imageRun = w.imageRun := by
  obtain ⟨_, _, _, h⟩ := State.arbOnly.count w f k
  rw [h]
  rfl

/-- The line that ends the tag ends the save, whatever has changed since its grant. -/
theorem State.saveLine_last (h : hdLen i.header ≤ i.offset + (w.sealPiece i).length) :
    w.saveLine r i = w.imageOk false i.slot (hdGen i.header) (hdLen i.header) := by
  simp only [State.saveLine, if_pos h]

section
variable (hrun : w.imageRun = some (r, i)) (hasked : i.asked = true)
include hrun hasked

/-- A failed access ends the command. -/
theorem State.imageAnswer_failed : w.imageAnswer false data = w.imageFail i.restore stAborted := by
  simp [State.imageAnswer, hrun, hasked]

/-- The first header is kept, and the second slot's is asked for. -/
theorem State.imageAnswer_firstHeader (hstep : i.step = .headers) (hheads : i.heads = []) (hout : w.imageOut = false)
    (hlen : data.length = 64) :
    w.imageAnswer true data = State.request { w with startup.image := some { i with heads := [data], asked := true } }
      { kind := .image false 0, addr := r.cmd.slotAddr 1, host := 0, line := true, bytes := [] } := by
  have hline : data.take 64 = data := List.take_of_length_le hlen.le
  simp [State.imageAnswer, hrun, hasked, hstep, State.imageHeader, hheads, State.imageAsk, hout, State.imageReq,
    State.setImage, hline]

theorem State.imageAnswer_tagWritten (hstep : i.step = .seal)
    (hend : hdLen i.header ≤ i.offset + (w.sealPiece i).length) :
    w.imageAnswer true data = w.imageOk false i.slot (hdGen i.header) (hdLen i.header) := by
  simp only [State.imageAnswer, hrun, hasked, hstep, Bool.not_true, Bool.false_eq_true, if_false]
  exact State.saveLine_last hend

end

end Sys2Proof.Machine
end

section
open Sys2Proof Sys2Proof.Machine

/-- Settles O37: the acknowledged writes, what a cistern's line leaves field by field, then an image's answer by the command's
step. -/
theorem acknowledgedAccessesEnd : Obligations.AcknowledgedAccessesEnd := by
  refine ⟨?_, ?_, ?_⟩
  · intro s u w dt tag a hu h hw
    subst hw
    refine ⟨fun hk => ?_, fun c word hk => exec_awaited _ hu h (State.producerResponse_ok h hk)⟩
    rcases hk with ⟨c, items, hk⟩ | ⟨items, hk⟩
    · exact exec_awaited _ hu h (State.lineAnswer_ok h hk rfl)
    · exact exec_awaited _ hu h (State.lineAnswer_ok h hk rfl)
  · intro s u dt tag a c left hu h hleft
    subst hleft
    refine ⟨fun items hk hports hcache => ⟨_, exec_awaited _ hu h (State.lineAnswer_ok h hk rfl), ?_⟩,
      fun word hk => exec_awaited _ hu h (State.producerResponse_ok h hk)⟩
    rw [hk]
    refine ⟨State.lineDone_issued, ?_, fun x hx => State.lineDone_unacked hcache hx,
      fun b hb p id hs => State.lineDone_settles (w := u.freeTag tag.toNat) (c := c) hports hb hs⟩
    refine List.mem_append_right _ (List.mem_singleton.mpr ?_)
    rw [State.lineDone_clock]
    rfl
  · intro s u w dt tag a write offset data hu h hk hw
    subst hw
    refine ⟨fun hnone ok => ?_, fun r i hrun hasked => ⟨fun hstep hheads hout hlen => ?_, fun hstep hend => ?_, ?_⟩⟩
    · have hidle : (if ok then u.freeTag tag.toNat else (u.freeTag tag.toNat).count fOut 5).startup.image = none := by
        cases ok with
        | true => exact hnone
        | false => exact (congrArg Startup.image (State.count_startup ..)).trans hnone
      exact exec_awaited _ hu h ((State.slotAnswer_image h hk).trans (State.imageAnswer_none hidle))
    · have hdata : (data ++ zeros 64).take 64 = data := by rw [← hlen, List.take_left]
      have got := State.slotAnswer_image (ok := true) (data := data) h hk
      rw [hdata] at got
      exact exec_awaited _ hu h (got.trans (State.imageAnswer_firstHeader hrun hasked hstep hheads hout hlen))
    · exact exec_awaited _ hu h ((State.slotAnswer_image (ok := true) h hk).trans
        (State.imageAnswer_tagWritten hrun hasked hstep hend))
    · exact exec_awaited _ hu h ((State.slotAnswer_image (ok := false) h hk).trans
        (State.imageAnswer_failed ((State.count_imageRun ..).trans hrun) hasked))
end

section
/-! SUPPORT. The synchroniser and the filter of a wire: a change noted on a line, and what a capture and a filter edge leave
(R265, R266). -/

namespace Sys2Proof.Machine
variable {s u t : State} {dt i k f e keep : Nat} {high v : Bool} {w : Wire} {l : Line}

/-! ### A change noted on a line -/

/-- Where every entry that ends the kept run is one that is looked for, no entry behind it can be found first. -/
theorem find?_takeWhile_append_take_one {α : Type} {p q : α → Bool} (h : ∀ a, q a = false → p a = true) (l : List α) :
    (l.takeWhile q ++ (l.dropWhile q).take 1).find? p = l.find? p := by
  induction l with
  | nil => rfl
  | cons a l ih =>
    by_cases hq : q a = true
    · rw [List.takeWhile_cons_of_pos hq, List.dropWhile_cons_of_pos hq, List.cons_append, List.find?_cons, List.find?_cons, ih]
    · have hp : p a = true := h a (Bool.eq_false_of_not_eq_true hq)
      simp [hq, hp]

/-- A noted change shows from its edge on. -/
theorem lineLevel_noteChange_from (h : k ≤ e) : lineLevel (noteChange l keep k v) e = v := by
  simp [lineLevel, noteChange, h]

/-- Up to `keep` edges before its own, a noted change leaves what the line shows. -/
theorem lineLevel_noteChange_before (h : e < k) (hk : k ≤ e + keep) :
    lineLevel (noteChange l keep k v) e = lineLevel l e := by
  have hold (c : Nat × Bool) (hc : (!decide (c.1 + keep ≤ k)) = false) : decide (c.1 ≤ e) = true := by
    simp only [Bool.not_eq_false', decide_eq_true_eq] at hc ⊢
    omega
  have hearlier : (l.filter fun c => decide (c.1 < k)).find? (fun c => decide (c.1 ≤ e)) =
      l.find? fun c => decide (c.1 ≤ e) := by
    rw [List.find?_filter]
    congr 1
    funext c
    simpa using fun hc : c.1 ≤ e => Nat.lt_of_le_of_lt hc h
  have hfind : (noteChange l keep k v).find? (fun c => decide (c.1 ≤ e)) = l.find? fun c => decide (c.1 ≤ e) := by
    rw [noteChange, List.cons_append, List.find?_cons_of_neg (by simpa using h), find?_takeWhile_append_take_one hold,
      hearlier]
  rw [lineLevel, lineLevel, hfind]

/-! ### The capture of a wire's level -/

theorem exec_levelInputChange {wire : BitVec 7} (hu : s.elapse dt = u) (hi : wire.toNat = i) (hlt : i < 72) :
    exec (.levelInputChange dt wire high) s =
      .next (s.left (if u.startup.ready then u.capture i high else u.pinLevel i high)) := by
  have change : exec (.levelInputChange dt wire high) s = .next (s.left (u.wireChange i high)) := by
    subst hu hi; rfl
  rw [change, State.wireChange, if_neg (Nat.not_le.mpr hlt)]

theorem State.capture_repeats (h : u.assertedAt i high = lineNewest (u.wire i).syn) : u.capture i high = u := if_pos h

section
variable (hw : u.wire i = w) (hv : u.assertedAt i high = v) (hk : u.clock.edge + u.depth - 1 = k) (hf : u.filterOf i = f)
  (hne : v ≠ lineNewest w.syn)
include hw hv hk hf hne

/-- A change that comes after no run, one that the filter had settled at or one of the filter's length is only noted. -/
theorem State.capture_noted (hrun : ∀ c, w.syn.head? = some c → c.2 = w.settled f ∨ c.1 + f ≤ k) :
    u.capture i high = u.setWire i { w with syn := Machine.noteChange w.syn (f + 8) k v } := by
  subst hw hv hk hf
  rw [State.capture, if_neg hne]
  refine if_neg fun hshort => ?_
  split at hshort
  · next c _ hsyn =>
    simp only [Bool.and_eq_true, bne_iff_ne, decide_eq_true_eq] at hshort
    rcases hrun c (by rw [hsyn]; rfl) with hc | hc
    · exact hshort.1 hc
    · exact absurd hshort.2 (Nat.not_lt.mpr hc)
  · cases hshort

/-- A change that cuts a run short of the filter counts as a glitch besides. -/
theorem State.capture_glitch {c : Nat × Bool} (hsyn : w.syn.head? = some c) (hc : c.2 ≠ w.settled f) (hshort : k < c.1 + f) :
    u.capture i high = (u.setWire i { w with syn := Machine.noteChange w.syn (f + 8) k v }).event fLevel 3 142 := by
  subst hw hv hk hf
  obtain ⟨rest, hsyn⟩ := List.head?_eq_some_iff.mp hsyn
  rw [State.capture, if_neg hne]
  refine if_pos ?_
  rw [hsyn]
  simpa using ⟨hc, hshort⟩

end

/-! ### The filter's edge -/

theorem exec_levelFilterEdge {wire : BitVec 7} (hu : s.elapse dt = u) (hr : u.startup.ready = true) (hi : wire.toNat = i) :
    exec (.levelFilterEdge dt wire) s = .next (s.left (u.wireFilter i)) := by
  subst hu hi
  exact State.readyBy_on (f := fun s => s.wireFilter wire.toNat) hr

section
variable (hw : u.wire i = w) (he : u.clock.edge = e) (hv : w.shown e = v)
include hw he hv

/-- A sample that shows what the filter holds, or has not shown its level for the filter's length, changes nothing. -/
theorem State.wireFilter_stays (h : v = lineNewest w.fil ∨ e + 1 < lineStart w.syn e + u.filterOf i) : u.wireFilter i = u := by
  have hnone : u.filterEdge i = none := by
    subst hw he hv
    refine if_neg fun hdue => ?_
    rcases h with h | h
    · exact hdue.1 h
    · exact absurd hdue.2 (Nat.not_le.mpr h)
  rw [State.wireFilter, hnone]
  exact ite_self u

/-- After the filter's length the filter takes the level: a line's rise counts, a vault wire's pair is due. -/
theorem State.wireFilter_takes (hi : i < 72) (hne : v ≠ lineNewest w.fil) (hlong : lineStart w.syn e + u.filterOf i ≤ e + 1)
    (ht : u.setWire i { w with fil := Machine.noteChange w.fil 8 e v } = t) :
    u.wireFilter i =
      if i < 56 then if t.lineUp i e then t.count fLevel 4 else t else t.pairDue ((i - 56) / 2) e false := by
  have hclock : t.clock.edge = e := by rw [← ht, State.setWire_clock, he]
  have hsome : u.filterEdge i = some t := by
    subst hw he hv ht
    exact if_pos ⟨hne, hlong⟩
  rw [State.wireFilter, if_neg (Nat.not_le.mpr hi), hsome]
  simp only [hclock]

end

end Sys2Proof.Machine
end

section
open Sys2Proof Sys2Proof.Machine

/-- Settles O30: the capture of a level with what its noted change shows, then the filter's edge. -/
theorem levelWiresAreCapturedAndFiltered : Obligations.LevelWiresAreCapturedAndFiltered := by
  refine ⟨?_, ?_⟩
  · intro s u dt wire high v i k f w w' hu hi hlt hw hv hk hf hw'
    rw [exec_levelInputChange hu hi hlt]
    subst hw'
    refine ⟨fun hr => ?_, fun hr => ⟨fun hsame => ?_, fun hne hrun => ?_, fun c hne hsyn hc hshort => ?_⟩,
      fun e he => lineLevel_noteChange_from he, fun e he hkeep => lineLevel_noteChange_before he hkeep⟩
    · rw [hr, State.pinLevel, hw, hv]
      rfl
    · rw [if_pos hr, State.capture_repeats (by rw [hv, hw, hsame])]
    · rw [if_pos hr, State.capture_noted hw hv hk hf hne hrun]
    · rw [if_pos hr, State.capture_glitch hw hv hk hf hne hsyn hc hshort]
  · intro s u t dt wire i e w v hu hr hi hlt hw he hv
    rw [exec_levelFilterEdge hu hr hi]
    refine ⟨fun h => ?_, fun hne hlong ht => ⟨fun hline => ?_, fun hvault => ?_⟩⟩
    · rw [State.wireFilter_stays hw he hv h]
    · rw [State.wireFilter_takes hw he hv hlt hne hlong ht, if_pos hline]
    · rw [State.wireFilter_takes hw he hv hlt hne hlong ht, if_neg (Nat.not_lt.mpr hvault)]
end

section
/-! SUPPORT. VAULT_REARM: the pairs that it names, and what their latches' clearing leaves (R272). -/

namespace Sys2Proof.Machine
variable {s u : State} {n named : Nat} {ns : List Nat} {pins : BitVec 8} {r : Run}

/-- The pairs whose bits are set, in rising order. -/
def namedPairs (named : Nat) : List Nat := (List.range 8).filter fun n => named.testBit n

theorem mem_namedPairs : n ∈ namedPairs named ↔ n < 8 ∧ named.testBit n = true := by
  rw [namedPairs, List.mem_filter, List.mem_range]

theorem namedPairs_two_pow (h : n < 8) : namedPairs (2 ^ n) = [n] :=
  (by decide : ∀ n < 8, namedPairs (2 ^ n) = [n]) n h

/-- The named latches of both islands cleared. -/
def State.unlatchZ (s : State) (named : Nat) : State := s.modIslands fun i => { i with z := i.z &&& ~~~(BitVec.ofNat 8 named) }

/-- The latches of these pairs are to be seen anew. -/
def State.unsee (s : State) (ns : List Nat) : State :=
  ns.foldl (fun (s : State) n => s.setPair n { s.pair n with seen := false }) s

theorem State.unsee_cons (s : State) (n : Nat) (ns : List Nat) :
    s.unsee (n :: ns) = (s.setPair n { s.pair n with seen := false }).unsee ns := rfl

/-- Only the pairs are written. -/
theorem State.unsee_pairs (s : State) (ns : List Nat) : ∃ x, s.unsee ns = { s with levels.pairs := x } := by
  refine List.foldlRecOn (motive := fun t => ∃ x : Tbl Pair, t = { s with levels.pairs := x }) ns _ ⟨s.levels.pairs, rfl⟩ ?_
  rintro _ ⟨x, rfl⟩ n _
  exact ⟨_, rfl⟩

theorem State.unsee_pair (h : rising 0 s.levels.pairs = true) :
    (s.unsee ns).pair n = if n ∈ ns then { s.pair n with seen := false } else s.pair n := by
  induction ns generalizing s with
  | nil => rfl
  | cons m ns ih =>
    rw [State.unsee_cons, ih (rising_ins Pair.reset h (Nat.zero_le m) _)]
    by_cases hm : n = m
    · subst hm
      have hsame : (s.setPair n { s.pair n with seen := false }).pair n = { s.pair n with seen := false } :=
        look_ins_same Pair.reset h n _
      simp [hsame]
    · have hother : (s.setPair m { s.pair m with seen := false }).pair n = s.pair n := look_ins_other Pair.reset _ hm
      simp [hother, hm]

/-- A count leaves the front registers as the write of its counter alone does. -/
theorem State.count_front (s : State) (f i : Nat) :
    (s.count f i).front = (s.setCounter (ckey f i) ((s.counter (ckey f i)).add 1).1).front := by
  unfold State.count State.countBy
  dsimp only
  split <;> rfl

/-- What VAULT_REARM leaves of the pairs that it names, before its result. -/
def State.rearmed (u : State) (named : Nat) : State := ((u.unlatchZ named).unsee (namedPairs named)).count fStandby 5

theorem State.rearmed_pair (h : rising 0 u.levels.pairs = true) (hn : n < 8) :
    (u.rearmed named).pair n = if named.testBit n then { u.pair n with seen := false } else u.pair n := by
  have hcount : (u.rearmed named).pair n = ((u.unlatchZ named).unsee (namedPairs named)).pair n := by
    rw [State.pair, State.rearmed, State.count_levels, State.pair]
  rw [hcount, State.unsee_pair (s := u.unlatchZ named) h]
  simp only [mem_namedPairs, hn, true_and]
  rfl

/-- The islands lose the named latches; but for them, the pairs and the count nothing changes. -/
theorem State.rearmed_frame (u : State) (named : Nat) :
    (u.rearmed named).levels.islandA = { u.levels.islandA with z := u.levels.islandA.z &&& ~~~(BitVec.ofNat 8 named) } ∧
      (u.rearmed named).levels.islandB = { u.levels.islandB with z := u.levels.islandB.z &&& ~~~(BitVec.ofNat 8 named) } ∧
      (u.rearmed named).front = (u.count fStandby 5).front ∧ (u.rearmed named).keeper = u.keeper ∧
      (u.rearmed named).cores = u.cores ∧ (u.rearmed named).ports = u.ports := by
  obtain ⟨x, hx⟩ := State.unsee_pairs (u.unlatchZ named) (namedPairs named)
  rw [State.rearmed, hx, State.count_levels, State.count_keeper, State.count_cores, State.count_ports]
  exact ⟨rfl, rfl, by rw [State.count_front, State.count_front]; rfl, rfl, rfl, rfl⟩

/-! ### The command -/

section
variable (h : u.runOf 0x04 .fresh = some r)
include h

theorem State.cmdRearm_fresh :
    u.cmdRearm pins =
      if (namedPairs (r.cmd.field 0 1)).any fun n => u.pairBusy n pins then u.endRun stBusy []
      else
        (if (namedPairs (r.cmd.field 0 1)).isEmpty then (u.unlatchZ (r.cmd.field 0 1)).unsee (namedPairs (r.cmd.field 0 1))
        else u.rearmed (r.cmd.field 0 1)).endRun stOk [] := by
  simp only [State.cmdRearm, h]
  rfl

theorem State.cmdRearm_busy (hbusy : ∃ n ∈ namedPairs (r.cmd.field 0 1), u.pairBusy n pins = true) :
    u.cmdRearm pins = u.endRun stBusy [] := by
  rw [State.cmdRearm_fresh h, if_pos (List.any_eq_true.mpr hbusy)]

theorem State.cmdRearm_clears (hnamed : r.cmd.field 0 1 = named) (hsome : namedPairs named ≠ [])
    (hfree : ∀ n ∈ namedPairs named, u.pairBusy n pins = false) :
    u.cmdRearm pins = (u.rearmed named).endRun stOk [] := by
  rw [State.cmdRearm_fresh h, hnamed, if_neg (by simpa using hfree), if_neg (by simpa using hsome)]

end

end Sys2Proof.Machine
end

section
/-! SUPPORT. STANDBY_ENTER, the end of its drain and the drain's timeout (R276). -/

namespace Sys2Proof.Machine
variable {u : State} {r : Run}

section
variable (h : u.runOf 0x03 .fresh = some r)
include h

theorem State.cmdStandby_busy (hbusy : u.levels.stbyOk = true ∨ u.twin.repair.isSome = true ∨ u.keeper.tokens ≠ []) :
    u.cmdStandby = u.endRun stBusy [] := by
  simp only [State.cmdStandby, h]
  refine if_pos ?_
  simpa [or_assoc] using hbusy

theorem State.cmdStandby_waits (hs : u.levels.stbyOk = false) (hrep : u.twin.repair = none) (ht : u.keeper.tokens = []) :
    u.cmdStandby = (u.maskPorts true).setRun { r with phase := .waiting, acc := [u.clock.dp] } := by
  simp only [State.cmdStandby, h]
  exact if_neg (by simp [hs, hrep, ht])

end

section
variable (h : u.runOf 0x03 .waiting = some r)
include h

theorem State.drainDone_waiting :
    u.drainDone = if u.drained then (u.voidStaged.standbyNow).endRun stOk [] else u := by
  simp only [State.drainDone, h]

variable {t : Nat} (hacc : r.acc = [t])
include hacc

/-- The drain has taken 65,536 edges of the data plane. -/
theorem State.drainTimeout_due (hlate : t + 65536 ≤ u.clock.dp) (hd : u.drained = false) :
    u.drainTimeout = (u.maskPorts false).endRun stAborted [] := by
  simp only [State.drainTimeout, h, hacc]
  exact if_pos ⟨hlate, by rw [hd]; rfl⟩

theorem State.drainTimeout_early (hearly : u.clock.dp < t + 65536) : u.drainTimeout = u := by
  simp only [State.drainTimeout, h, hacc]
  exact if_neg fun hdue => absurd hdue.1 (Nat.not_le.mpr hearly)

end

end Sys2Proof.Machine
end

section
open Sys2Proof Sys2Proof.Machine

/-- Settles O51: the rearm by the pairs that it names, then the entry into standby, the drain's end and its timeout. -/
theorem rearmAndStandbyFollowThePairsAndTheDrain : Obligations.RearmAndStandbyFollowThePairsAndTheDrain := by
  intro s u dt r hu hr
  refine ⟨fun pins h => ?_, fun h => ⟨fun hbusy => State.keeperBy_eq hu hr (State.cmdStandby_busy h hbusy),
    fun hs hrep ht => State.keeperBy_eq hu hr (State.cmdStandby_waits h hs hrep ht)⟩, fun h => ?_⟩
  · have rearm {t : State} (ht : u.cmdRearm pins = t) : exec (.vaultRearm dt pins) s = .next (s.left t) :=
      State.keeperBy_eq (f := fun s => s.cmdRearm pins) hu hr ht
    refine ⟨fun ⟨n, hn, hbit, hbusy⟩ => rearm (State.cmdRearm_busy h ⟨n, mem_namedPairs.mpr ⟨hn, hbit⟩, hbusy⟩),
      fun n hn hfield hfree v hv => ?_, fun named hfield ⟨n, hn, hbit⟩ hfree hrise => ?_⟩
    · have hone : namedPairs (2 ^ n) = [n] := namedPairs_two_pow hn
      subst hv
      rw [rearm (State.cmdRearm_clears h hfield (by simp [hone]) (by simpa [hone] using hfree)), State.rearmed, hone]
      rfl
    · obtain ⟨hA, hB, hfront, hkeeper, hcores, hports⟩ := State.rearmed_frame u named
      have hsome : namedPairs named ≠ [] := List.ne_nil_of_mem (mem_namedPairs.mpr ⟨hn, hbit⟩)
      have hclears := State.cmdRearm_clears h hfield hsome fun m hm => hfree m (mem_namedPairs.mp hm).1 (mem_namedPairs.mp hm).2
      exact ⟨u.rearmed named, rearm hclears, hA, hB, fun m hm => State.rearmed_pair hrise hm,
        congrArg (·.counters) hfront, hkeeper, hcores, hports⟩
  · have drain : exec (.standbyDrainDone dt) s = .next (s.left u.drainDone) := by
      subst hu; exact State.plane_on hr
    have timeout : exec (.standbyDrainTimeout dt) s = .next (s.left u.drainTimeout) := by
      subst hu; exact State.plane_on hr
    rw [drain, timeout, State.drainDone_waiting h]
    refine ⟨fun hd => by rw [if_pos hd], fun hd => by rw [hd]; rfl, fun t hacc => ⟨fun hlate hd => ?_, fun hearly => ?_⟩⟩
    · rw [State.drainTimeout_due h hacc hlate hd]
    · rw [State.drainTimeout_early h hacc hearly]
end

section
/-! SUPPORT. The commands that name a resume token, and the end of a token's life (R302 to R304). -/

namespace Sys2Proof.Machine
variable {s u : State} {dt host : Nat} {r : Run} {t : Token}

/-- A command of the data plane leaves what its function makes of the state at its edge. -/
theorem State.plane_eq {f : State → State} {v : State} (hu : s.elapse dt = u) (hr : u.running = true) (hf : f u = v) :
    s.plane dt f = .next (s.left v) := by
  subst hu hf
  exact State.plane_on hr

theorem State.readyBy_eq {f : State → State} {v : State} (hu : s.elapse dt = u) (hr : u.startup.ready = true)
    (hf : f u = v) : s.readyBy dt f = .next (s.left v) := by
  subst hu hf
  exact State.readyBy_on hr

/-- A payload names the live token by its bytes after STEP. -/
theorem State.tokenNamed_live (h : u.token host = some t) (l : List Byte) :
    u.tokenNamed host l =
      if (l.take 8).drop 4 = [BitVec.ofNat 8 host, t.opcode] ++ leBytes 2 t.tokenId.toNat then some t else none := by
  have hbytes : (tokenBytes t host).drop 4 = [BitVec.ofNat 8 host, t.opcode] ++ leBytes 2 t.tokenId.toNat := rfl
  simp only [State.tokenNamed, h, Option.filter_some, hbytes, decide_eq_true_eq]

/-! ### COMMAND_RESUME (R303) -/

section
variable (hg : u.keeperGoes = true) (hk : u.clock.edge % 2 = 0) (hrun : u.keeper.run = some r) (hph : r.phase = .fresh)
  (hres : r.cmd.resumes = true)
include hg hk hrun hph hres

theorem State.commandResume_goes (ht : u.tokenNamed r.cmd.host (r.cmd.slice 0 8) = some t) (hop : t.opcode = r.cmd.opcode) :
    u.commandResume =
      (u.setToken r.cmd.host none).setRun { t.run with cmd := { t.run.cmd with seq := r.cmd.seq } } := by
  simp [State.commandResume, hg, State.atKclk_even hk, hrun, hph, hres, ht, hop, Option.filter_some]

theorem State.commandResume_stale (h : ∀ t, u.tokenNamed r.cmd.host (r.cmd.slice 0 8) = some t → t.opcode ≠ r.cmd.opcode) :
    u.commandResume = u.endZero stStale := by
  have hnone : (u.tokenNamed r.cmd.host (r.cmd.slice 0 8)).filter (fun t => decide (t.opcode = r.cmd.opcode)) = none :=
    Option.filter_eq_none_iff.mpr fun t ht => by simpa using h t ht
  simp [State.commandResume, hg, State.atKclk_even hk, hrun, hph, hres, hnone]

end

/-! ### TOKEN_DROP and a token's life (R304) -/

theorem State.cmdTokenDrop_named (h : u.runOf 0x02 .fresh = some r)
    (hn : (u.tokenNamed r.cmd.host (r.cmd.slice 0 8)).isSome = true) :
    u.cmdTokenDrop = (u.voidToken r.cmd.host).endRun stOk [] := by
  obtain ⟨t, ht⟩ := Option.isSome_iff_exists.mp hn
  simp only [State.cmdTokenDrop, h, ht]

theorem State.cmdTokenDrop_stale (h : u.runOf 0x02 .fresh = some r)
    (hn : u.tokenNamed r.cmd.host (r.cmd.slice 0 8) = none) : u.cmdTokenDrop = u.endRun stStale [] := by
  simp only [State.cmdTokenDrop, h, hn]

/-- A token lives 1,250 SCLK periods. -/
theorem State.expireToken_live (h : u.token host = some t) :
    u.expireToken host = if u.slowRan t.issued 1250 then u.voidToken host else u := by
  simp only [State.expireToken, h]
  rfl

end Sys2Proof.Machine
end

section
open Sys2Proof Sys2Proof.Machine

/-- Settles O40: a resume and a drop by what their payload names, then the bytes that name a token, then its life. -/
theorem tokensResumeDropAndExpire : Obligations.TokensResumeDropAndExpire := by
  intro s u dt r host hu hr hk hhost
  subst hhost
  refine ⟨fun hg hrun hph hres => ⟨fun t ht hop => State.plane_eq hu hr ?_, fun hn => State.plane_eq hu hr ?_⟩,
    fun h => ⟨fun hn => State.keeperBy_eq hu hr ?_, fun hn => State.keeperBy_eq hu hr ?_⟩,
    fun t ht => State.tokenNamed_live ht _, fun mb t ht => ?_⟩
  · exact State.commandResume_goes hg hk hrun hph hres ht hop
  · exact State.commandResume_stale hg hk hrun hph hres hn
  · exact State.cmdTokenDrop_named h hn
  · exact State.cmdTokenDrop_stale h hn
  · have expire {v : State} (hv : u.expireToken mb.toNat = v) : exec (.tokenExpire dt mb) s = .next (s.left v) :=
      State.readyBy_eq (f := fun s => s.expireToken mb.toNat) hu (State.ready_of_running hr) hv
    exact ⟨fun hover => expire (by rw [State.expireToken_live ht, if_pos hover]),
      fun hlives => expire (by rw [State.expireToken_live ht, hlives]; rfl)⟩
end

section
/-! SUPPORT. What the end of a command writes: its mailbox, and what the set of its completion INTID writes (R292, R294, R323). -/

namespace Sys2Proof.Machine
variable {s u v : State} {c : Cmd} {st : Nat} {l : List Byte}

theorem State.setOnly.unpoison (s : State) (m p : Nat) : s.setOnly (s.unpoison m p) := by
  unfold State.unpoison
  exact ((State.setOnly.modWell ..).trans (.modWell ..)).trans (.wroteWhole ..)

theorem State.setOnly.readInt (s : State) (key req : Nat) : s.setOnly (s.readInt key req).2 := by
  unfold State.readInt
  split
  · exact .readPage ..
  · exact .refl s

theorem State.setOnly.pendOrPoison (s : State) (key : Nat) (o : Origin) (rid : Nat) : s.setOnly (s.pendOrPoison key o rid) :=
  .ite ((State.setOnly.readInt ..).trans (.pend ..)) ((State.setOnly.readInt ..).trans (.spillRec ..))

theorem State.setOnly.notifyBox (s : State) (n : Nat) : s.setOnly (s.notifyBox n) :=
  .ite (.refl s) (.ite (.pendOrPoison ..) (.count ..))

/-- A command's end writes its mailbox; for the rest it is the sets, counts and page writes of `setOnly`. -/
theorem State.finish_sets (s : State) (c : Cmd) (st : Nat) (l : List Byte) :
    ∃ b, State.setOnly { s with keeper.boxes := b } (s.finish c st l) := by
  have asked (t : State) (m k n : Nat) : t.setOnly (t.askUnit m k n) := ⟨_, _, _, _, _, _, _, _, _, rfl⟩
  unfold State.finish
  extract_lets _ _ _ box written askedFor cleaned
  have hcleaned : written.setOnly cleaned := (asked ..).trans (.foldl (fun _ _ => .unpoison ..) ..)
  exact ⟨_, hcleaned.trans (.notifyBox ..)⟩

theorem State.done_sets (s : State) (c : Cmd) (st : Nat) (l : List Byte) :
    ∃ b, State.setOnly { s with keeper.boxes := b } (s.done c st l) := by
  obtain ⟨b, hb⟩ := State.finish_sets (s.count fKeeper 3) c st l
  obtain ⟨_, _, _, _, _, _, _, _, _, hcount⟩ := State.setOnly.count s fKeeper 3
  have hcounted : State.setOnly { s with keeper.boxes := b } { s.count fKeeper 3 with keeper.boxes := b } := by
    rw [hcount]
    exact ⟨_, _, _, _, _, _, _, _, _, rfl⟩
  exact ⟨b, hcounted.trans hb⟩

theorem State.done_keeper (s : State) (c : Cmd) (st : Nat) (l : List Byte) :
    ∃ b, (s.done c st l).keeper = { s.keeper with boxes := b } := by
  obtain ⟨b, _, _, _, _, _, _, _, _, _, h⟩ := State.done_sets s c st l
  exact ⟨b, by rw [h]⟩

@[simp] theorem State.done_clock (s : State) (c : Cmd) (st : Nat) (l : List Byte) : (s.done c st l).clock = s.clock := by
  obtain ⟨_, _, _, _, _, _, _, _, _, _, h⟩ := State.done_sets s c st l
  rw [h]

end Sys2Proof.Machine
end

section
/-! SUPPORT. The keeper's service point and its watchdog (R300, R301, R318, R319). -/

namespace Sys2Proof.Machine
variable {u v : State} {r : Run}

/-! ### Service points (R300, R301) -/

/-- The watchdog restarted, and what is presented to T256 taken and completed. -/
def State.served (u : State) : State :=
  (((State.keeperTake { u with keeper.serviceAt := u.clock.dp } false).keeperTake true).keeperComplete true).keeperComplete false

/-- A resumable command that has begun stands between two of its steps; one that still checks its token has not begun. -/
def Run.yields (r : Run) : Bool :=
  !r.cmd.resumes && (opGroup r.cmd.opcode.toNat).isSome && decide (r.phase ≠ .fresh) && r.granted.isNone

section
variable (hr : u.running = true) (ha : u.keeperAlive = true) (hk : u.clock.edge % 2 = 0) (hp : u.ramPoisoned = false)
include hr ha hk hp

/-- A fast INTID preempts a command that yields. -/
theorem State.servicePoint_eq :
    u.servicePoint = if (u.seenF 256).isSome && u.served.keeper.run.any Run.yields then u.served.preempt else u.served := by
  have hclocked : (!u.startup.ready || !u.keeperAlive || u.frozen || !u.atKclk) = false := by
    simp [State.ready_of_running hr, ha, State.not_frozen_of_running hr, State.atKclk_even hk]
  unfold State.servicePoint
  rw [if_neg (by rw [hclocked]; decide), if_neg (by rw [hp]; decide)]
  extract_lets _ timed fast taken served
  have hserved : served = u.served := rfl
  have hfast : fast = (u.seenF 256).isSome := rfl
  rw [hserved, hfast]
  cases u.served.keeper.run with
  | none => simp
  | some r => simp [Run.yields, Bool.and_assoc]

theorem State.servicePoint_serves (hf : u.seenF 256 = none) : u.servicePoint = u.served := by
  rw [State.servicePoint_eq hr ha hk hp, hf]
  rfl

theorem State.servicePoint_preempts (hf : u.seenF 256 ≠ none) (hrun : u.served.keeper.run = some r) (hy : r.yields = true) :
    u.servicePoint = u.served.preempt := by
  rw [State.servicePoint_eq hr ha hk hp, Option.isSome_iff_ne_none.mpr hf, hrun, Option.any_some, hy]
  rfl

end

/-! ### The watchdog (R318) -/

theorem State.watchdogDue_eq (hr : u.running = true) (ha : u.keeperAlive = true) :
    u.watchdogDue = decide (u.keeper.serviceAt + 131072 ≤ u.clock.dp) := by
  simp [State.watchdogDue, State.ready_of_running hr, ha, State.not_frozen_of_running hr]

theorem State.imageCut_none (h : u.startup.image = none) : u.imageCut = u := by
  unfold State.imageCut
  split
  · simp [h]
  · rfl

theorem State.voidStaged_none (h : u.keeper.staged = none) : u.voidStaged = u := by
  simp only [State.voidStaged, h]

@[simp] theorem State.abandon_keeper (u : State) (op : Nat) : (u.abandon op).keeper = u.keeper := by
  unfold State.abandon
  repeat' split
  all_goals rfl

@[simp] theorem State.abandon_clock (u : State) (op : Nat) : (u.abandon op).clock = u.clock := by
  unfold State.abandon
  repeat' split
  all_goals rfl

/-- The keeper with no command under way and nothing on the engine. -/
def State.dropWork (v : State) : State :=
  { v with keeper.run := none, keeper.engine := [], keeper.fetch := none, keeper.words := [], keeper.wordsAt := none,
           keeper.digesting := false }

/-- The keeper restarts after an expiry; the third of the remembered ones holds it. -/
def State.expired (w : State) (recent : List Nat) : State :=
  { w with keeper.expiries := recent, keeper.restarting := true, keeper.restartAt := w.clock.dp,
           keeper.held := w.keeper.held || decide (3 ≤ recent.length) }

theorem State.expired_eq (w : State) (recent : List Nat) :
    (let t : State := { w with keeper.expiries := recent, keeper.restarting := true, keeper.restartAt := w.clock.dp }
     if 3 ≤ recent.length then { t with keeper.held := true } else t) = w.expired recent := by
  unfold State.expired
  dsimp only
  split
  · next h => rw [decide_eq_true h, Bool.or_true]
  · next h => rw [decide_eq_false h, Bool.or_false]

/-- The expiries that the watchdog remembers, with the one of this edge. -/
def State.recentExpiries (u : State) : List Nat := (u.keeper.expiries.filter fun t => !u.slowRan t 1250) ++ [u.slowMark]

theorem State.recentExpiries_congr (hc : v.clock = u.clock) (he : v.keeper.expiries = u.keeper.expiries) :
    v.recentExpiries = u.recentExpiries := by
  simp only [State.recentExpiries, State.slowRan, State.slowMark, hc, he]

/-- With one command under way, nothing on the engine, no token and nothing staged, the watchdog ends that command. -/
theorem State.watchdog_cuts (hd : u.watchdogDue = true) (hrun : u.keeper.run = some r) (he : u.keeper.engine = [])
    (ht : u.keeper.tokens = []) (hs : u.keeper.staged = none) :
    u.watchdog =
      ((((u.event fKeeper 6 144).abandon r.cmd.opcode.toNat).dropWork).done r.cmd stAborted []).expired u.recentExpiries := by
  generalize hw : (((u.event fKeeper 6 144).abandon r.cmd.opcode.toNat).dropWork).done r.cmd stAborted [] = w
  obtain ⟨b, hb⟩ := State.done_keeper ((u.event fKeeper 6 144).abandon r.cmd.opcode.toNat).dropWork r.cmd stAborted []
  rw [hw] at hb
  unfold State.watchdog
  rw [if_neg (by rw [hd]; decide)]
  extract_lets counted left cmds _ cleared ended voided unstaged recent _ restarted
  have hleft : left = (u.event fKeeper 6 144).abandon r.cmd.opcode.toNat := by
    simp only [left, counted, State.event_keeper, hrun]
  have hcmds : cmds = [r.cmd] := by
    simp only [cmds, hleft, State.abandon_keeper, State.event_keeper, hrun, he, List.map_nil, List.append_nil]
  have hended : ended = w := by
    have hcleared : cleared = left.dropWork := rfl
    simp only [ended, hcmds, List.foldl_cons, List.foldl_nil]
    rw [hcleared, hleft, hw]
  have hvoided : voided = w := by
    have htokens : w.keeper.tokens = [] := by rw [hb]; simp [State.dropWork, ht]
    simp only [voided, hended, htokens, keys, List.map_nil, List.foldl_nil]
  have hunstaged : unstaged = w := by
    have hstaged : w.keeper.staged = none := by rw [hb]; simp [State.dropWork, hs]
    simp only [unstaged, hvoided, State.voidStaged_none hstaged]
  have hrecent : recent = u.recentExpiries := by
    have hclock : w.clock = u.clock := by rw [← hw]; simp [State.dropWork]
    have hexp : w.keeper.expiries = u.keeper.expiries := by rw [hb]; simp [State.dropWork]
    rw [← State.recentExpiries_congr hclock hexp, ← hunstaged]
    rfl
  calc _ = unstaged.expired recent := State.expired_eq unstaged recent
    _ = w.expired u.recentExpiries := by rw [hunstaged, hrecent]

end Sys2Proof.Machine
end

section
/-! SUPPORT. With no re-pair attempt under way, none begins by the end of a command (R294, R373). -/

namespace Sys2Proof.Machine
variable {s t : State}

/-- No re-pair attempt is under way. -/
def State.noAttempt (s : State) : Prop := s.twin.repair = none

theorem State.noAttempt.of_twin (h : s.noAttempt) (ht : t.twin = s.twin) : t.noAttempt := (congrArg Twin.repair ht).trans h

theorem State.noAttempt.ite {c : Prop} [Decidable c] (hs : s.noAttempt) (ht : t.noAttempt) : (if c then s else t).noAttempt := by
  split
  · exact hs
  · exact ht

section
variable (h : s.noAttempt)
include h

theorem State.noAttempt.count (f i : Nat) : (s.count f i).noAttempt := h.of_twin (State.count_twin s f i)

theorem State.noAttempt.event (f i fev : Nat) : (s.event f i fev).noAttempt := h.of_twin (State.event_twin s f i fev)

theorem State.noAttempt.modWell (b : Bool) (f : Well → Well) : (s.modWell b f).noAttempt := by
  cases b <;> exact h

/-- A page write is noted in an attempt that is under way, and begins none. -/
theorem State.noAttempt.wroteWhole (m p : Nat) : (s.wroteWhole m p).noAttempt := by
  rw [State.wroteWhole_eq]
  exact congrArg (Option.map _) h

theorem State.noAttempt.unpoison (m p : Nat) : (s.unpoison m p).noAttempt := ((h.modWell ..).modWell ..).wroteWhole ..

/-! ### Page reads (R386 to R391) -/

theorem State.noAttempt.keepErrs (b : Bool) (m p : Nat) (v : Verdict) : (s.keepErrs b m p v).noAttempt := by
  unfold State.keepErrs
  split
  · exact h.modWell ..
  · exact h

theorem State.noAttempt.countErr (m p : Nat) (b heavy lost : Bool) : (s.countErr m p b heavy lost).noAttempt := by
  have counted : (if heavy then (s.count fIntegrity 3).event fIntegrity 4 152 else s.count fIntegrity 3).noAttempt :=
    .ite ((h.count ..).event ..) (h.count ..)
  exact .ite counted counted

theorem State.noAttempt.tallyErr (m p : Nat) (b : Bool) (v : Verdict × Verdict) : (s.tallyErr m p b v).noAttempt :=
  ((State.noAttempt.ite (h.countErr ..) h).keepErrs ..).keepErrs ..

theorem State.noAttempt.trigger (c : Nat) : (s.trigger c).noAttempt := by
  unfold State.trigger
  repeat' split
  all_goals exact h

theorem State.noAttempt.uncorrTrigger (v : Verdict × Verdict) : (s.uncorrTrigger v).noAttempt :=
  .ite (h.trigger 4) (.ite (h.trigger 6) h)

theorem State.noAttempt.poisonWells (m p q : Nat) (v : Verdict × Verdict) : (s.poisonWells m p q v).noAttempt := by
  have lead : (if isUncorr v.1 then s.poisonIn s.twin.leadB m p q else s).noAttempt := .ite (h.modWell ..) h
  exact .ite (lead.modWell ..) lead

theorem State.noAttempt.askRebuild (m p : Nat) (lost : Bool) : (s.askRebuild m p lost).noAttempt := .ite h h

theorem State.noAttempt.takeUncorr (m p q : Nat) (b : Bool) (v : Verdict × Verdict) : (s.takeUncorr m p q b v).noAttempt := by
  have poisoned := h.poisonWells m p q v
  exact ((State.noAttempt.ite ((poisoned.event ..).count ..) poisoned).uncorrTrigger v).askRebuild ..

theorem State.noAttempt.readPage (m p q : Nat) (b : Bool) (v : PageRead) : (s.readPage m p q b v).2.noAttempt := by
  unfold State.readPage
  split
  · exact h.count ..
  · dsimp only
    split
    · exact h.tallyErr ..
    · exact (h.tallyErr ..).takeUncorr ..

theorem State.noAttempt.readInt (key q : Nat) : (s.readInt key q).2.noAttempt := by
  unfold State.readInt
  split
  · exact h.readPage ..
  · exact h

theorem State.noAttempt.updateInt (key unit : Nat) : (s.updateInt key unit).noAttempt := by
  have asked {t : State} (ht : t.noAttempt) (m n c p : Nat) : ((t.askUnit m n c).wroteWhole m p).noAttempt :=
    State.noAttempt.wroteWhole (s := t.askUnit m n c) ht ..
  exact .ite (.ite h (asked h ..)) (.ite h (asked (h.readPage ..) ..))

/-! ### Sets (R79, R216) and the end of a command (R292, R294) -/

theorem State.noAttempt.ftRead (key : Nat) : (s.ftRead key).noAttempt := by
  unfold State.ftRead State.ftFix
  repeat' split
  · exact h
  · exact h
  · next copy _ =>
    have hvote : (s.voteFixed false copy 0 0 key).twin.repair = s.twin.repair := by simp [State.voteFixed]
    exact hvote.trans h
  · exact h

theorem State.noAttempt.pend (key : Nat) (o : Origin) : (s.pend key o).noAttempt := by
  have stands := (h.ftRead key)
  have counted : (if (s.ftRead key).isFast key then (s.ftRead key).count fFast 3 else s.ftRead key).noAttempt :=
    .ite (stands.count ..) stands
  have written (x : IntState) := counted.of_twin (State.setInt_twin _ key x)
  exact .ite ((written _).count ..) ((written _).updateInt ..)

theorem State.noAttempt.notifyBox (n : Nat) : (s.notifyBox n).noAttempt := by
  have set (x : Nat) (o : Origin) : (s.pendOrPoison x o 0).noAttempt := .ite ((h.readInt ..).pend ..) (h.readInt ..)
  exact .ite h (.ite (set ..) (h.count ..))

theorem State.noAttempt.finish (c : Cmd) (st : Nat) (l : List Byte) : (s.finish c st l).noAttempt := by
  unfold State.finish
  extract_lets _ box _ written asked cleaned
  have hcleaned : cleaned.noAttempt :=
    List.foldlRecOn (motive := State.noAttempt) _ _ (show asked.noAttempt from h) fun _ ht _ _ => ht.unpoison ..
  exact hcleaned.notifyBox ..

theorem State.noAttempt.done (c : Cmd) (st : Nat) (l : List Byte) : (s.done c st l).noAttempt := (h.count ..).finish ..

theorem State.noAttempt.endRun (st : Nat) (l : List Byte) : (s.endRun st l).noAttempt := by
  have used : s.usedBox.noAttempt := by
    unfold State.usedBox
    split
    · exact h
    · exact h
  unfold State.endRun
  split
  · exact h
  · exact used.done ..

theorem State.noAttempt.endZero (st : Nat) : (s.endZero st).noAttempt := by
  unfold State.endZero
  split
  · exact h.endRun ..
  · exact h

theorem State.noAttempt.repairStarved : s.repairStarved = s := by
  have hwants : s.repairWants = none := by simp only [State.repairWants, show s.twin.repair = none from h]
  simp only [State.repairStarved, hwants]

end

end Sys2Proof.Machine
end

section
/-! SUPPORT. The limit on random words, and the restarted keeper (R306, R319). -/

namespace Sys2Proof.Machine
variable {u : State} {r : Run}

section
variable (hrun : u.keeper.run = some r) (hop : r.cmd.opcode ≠ 0x50#8)
include hrun hop

/-- No save waits for random words: the record of the last image stays as it is. -/
theorem State.randomTimeout_wordsTimeout : u.randomTimeout = u.wordsTimeout := by
  have hmine : u.phaseOf 0x50 .random = none := by
    unfold State.phaseOf
    split
    · rfl
    · simp [hrun, hop]
  simp [State.randomTimeout, hmine]

variable (hrep : u.twin.repair = none)
include hrep

/-- Words first asked for 625,000 KCLK ago: the command that waits for them ends. -/
theorem State.randomExpires_over {t : Nat} (hrekey : r.cmd.opcode ≠ 0x13#8) (hph : r.phase = .random)
    (hask : r.askedAt = some t) (hlate : t + 1250000 ≤ u.clock.dp) : u.randomExpires = u.endZero stAborted := by
  have hwords : u.wordsTimeout = u.endZero stAborted := by
    have hwaited : u.waitedOut t = true := decide_eq_true hlate
    simp [State.wordsTimeout, hrun, hph, hask, hwaited, hrekey]
  rw [State.randomExpires, State.randomTimeout_wordsTimeout hrun hop, hwords]
  exact (State.noAttempt.endZero hrep _).repairStarved

theorem State.randomExpires_early (he : u.keeper.engine = [])
    (h : r.phase ≠ .random ∨ ∃ t, r.askedAt = some t ∧ u.clock.dp < t + 1250000) : u.randomExpires = u := by
  have hwords : u.wordsTimeout = u := by
    have hhead : u.retryHead = none := by simp only [State.retryHead, he]
    have hwaits : (decide (r.phase = .random) && (r.askedAt.map u.waitedOut).getD false) = false := by
      rcases h with hph | ⟨t, hask, hearly⟩
      · rw [decide_eq_false hph, Bool.false_and]
      · have hwaited : u.waitedOut t = false := decide_eq_false (Nat.not_le.mpr hearly)
        rw [hask, Option.map_some, Option.getD_some, hwaited, Bool.and_false]
    simp only [State.wordsTimeout, hrun, hwaits, hhead, Bool.false_eq_true, if_false]
  rw [State.randomExpires, State.randomTimeout_wordsTimeout hrun hop, hwords]
  exact State.noAttempt.repairStarved hrep

end

theorem State.restartDone_eq (u : State) (ok : Bool) :
    u.restartDone ok =
      if u.keeper.restarting && ok then
        State.startHead { u with keeper.restarting := false, keeper.serviceAt := u.clock.dp }
      else u := rfl

end Sys2Proof.Machine
end

section
open Sys2Proof Sys2Proof.Machine

/-- Settles O41: the service point, then the watchdog, the limit on random words and the restart, each by what has passed. -/
theorem servicePointsAndKeeperTimers : Obligations.ServicePointsAndKeeperTimers := by
  refine ⟨?_, ?_⟩
  · intro s u dt hu hr ha
    refine ⟨fun w hk hp hw => ⟨fun hf => State.plane_eq hu hr ?_,
        fun r hf hrun hgroup hres hph hgrant => State.plane_eq hu hr ?_⟩,
      fun hearly => State.plane_eq hu hr ?_,
      fun r v w recent hlate himg hrun he ht hstaged hv hw hrecent => State.plane_eq hu hr ?_,
      fun r hrun h13 h50 he hrep => ⟨fun t hph hask hlate => State.plane_eq hu hr ?_, fun h => State.plane_eq hu hr ?_⟩⟩
    · subst hw
      exact State.servicePoint_serves hr ha hk hp hf
    · subst hw
      exact State.servicePoint_preempts hr ha hk hp hf hrun (by simp [Run.yields, hgroup, hres, hph, hgrant])
    · rw [State.watchdogExpires, State.watchdogDue_eq hr ha, decide_eq_false (Nat.not_le.mpr hearly)]
      rfl
    · subst hv hw hrecent
      have hdue : u.watchdogDue = true := (State.watchdogDue_eq hr ha).trans (decide_eq_true hlate)
      rw [State.watchdogExpires, if_pos hdue, State.imageCut_none himg, State.watchdog_cuts hdue hrun he ht hstaged]
      rfl
    · exact State.randomExpires_over hrun h50 hrep h13 hph hask hlate
    · exact State.randomExpires_early hrun h50 hrep he h
  · intro s u dt hu hready
    have restart {ok : Bool} {v : State} (hv : u.restartDone ok = v) :
        exec (.keeperRestartDone dt ok) s = .next (s.left v) :=
      State.readyBy_eq (f := fun s => s.restartDone ok) hu hready hv
    refine ⟨fun h => restart ?_, restart ?_, fun h => restart ?_⟩
    · rw [State.restartDone_eq, h]
      rfl
    · rw [State.restartDone_eq, Bool.and_false]
      rfl
    · rw [State.restartDone_eq, h]
      rfl
end

section
/-! SUPPORT. COMMISSION, ATTEST and SELF_TEST up to the engine queue (R317, R328, R345, R346). -/

namespace Sys2Proof.Machine
variable {s u : State} {dt : Nat} {r : Run} {found : List SweptPage} {passed : BitVec 5}

theorem exec_attest {t : State} (hu : s.elapse dt = u) (hr : u.running = true) (hf : u.cmdAttest found = t) :
    exec (.attest dt found) s = .next (s.left t) :=
  State.keeperBy_eq (f := fun s => s.cmdAttest found) hu hr hf

theorem exec_selfTest {t : State} (hu : s.elapse dt = u) (hr : u.running = true) (hf : u.cmdSelfTest passed = t) :
    exec (.selfTest dt passed) s = .next (s.left t) :=
  State.keeperBy_eq (f := fun s => s.cmdSelfTest passed) hu hr hf

/-! ### COMMISSION (R328) -/

section
variable (h : u.runOf 0x70 .fresh = some r)
include h

theorem State.cmdCommission_range (hs : 7 < r.cmd.field 0 1 ∨ 7 < r.cmd.field 1 1 ∨ r.cmd.field 0 1 = r.cmd.field 1 1) :
    u.cmdCommission = u.endZero stRange := by
  have hbad : (decide (7 < r.cmd.field 0 1) || decide (7 < r.cmd.field 1 1) ||
      decide (r.cmd.field 0 1 = r.cmd.field 1 1)) = true := by simpa [or_assoc] using hs
  simp only [State.cmdCommission, h, firstFail, hbad, if_true]
  rfl

variable (ha : r.cmd.field 0 1 ≤ 7) (hb : r.cmd.field 1 1 ≤ 7) (hne : r.cmd.field 0 1 ≠ r.cmd.field 1 1)
include ha hb hne

theorem State.cmdCommission_denied (hkey : r.cmd.keyA = r.cmd.keyB) : u.cmdCommission = u.endZero stDenied := by
  simp only [State.cmdCommission, h, firstFail, Nat.not_lt.mpr ha, Nat.not_lt.mpr hb, hne, hkey, decide_true, decide_false,
    Bool.or_self, Bool.false_eq_true, if_true, if_false]
  rfl

theorem State.cmdCommission_queues (hkey : r.cmd.keyA ≠ r.cmd.keyB) :
    u.cmdCommission = u.toEngine { r with phase := .engine } (2 * Config.validateK) := by
  simp [State.cmdCommission, h, firstFail, Nat.not_lt.mpr ha, Nat.not_lt.mpr hb, hne, hkey]

end

/-! ### The reading of a digest's pages (R315, R390) -/

theorem State.digestEnd_reading (hn : u.digestNext.isSome = true) : u.digestEnd r found = none := if_pos hn

/-- Every page is read, and each was clean. -/
theorem State.digestEnd_read (ha : u.digestAt = none) : u.digestEnd r [] = some (true, u) := by
  have hn : u.digestNext = none := by rw [State.digestNext, ha, Option.filter_none]
  simp [State.digestEnd, State.digestPages, ha, hn]

theorem State.digestEnd_poisoned (ha : u.digestAt.isSome = true) (hn : u.digestNext = none) :
    u.digestEnd r found = some (false, u.count fIntegrity 8) := by
  simp [State.digestEnd, ha, hn]

/-! ### ATTEST (R345, R346) -/

theorem State.cmdAttest_fresh (h : u.runOf 0x80 .fresh = some r) :
    u.cmdAttest found = if u.anyMarg then u.endZero stMarginal else u.beginDigest r := by
  simp only [State.cmdAttest, h]

theorem State.cmdAttest_items (h : u.runOf 0x80 .items = some r) : u.cmdAttest found = u.attestRead r found := by
  have hfresh : u.runOf 0x80 .fresh = none := State.runOf_other h (by decide)
  simp only [State.cmdAttest, h, hfresh]

theorem State.cmdAttest_random (h : u.runOf 0x80 .random = some r) : u.cmdAttest found = u.attestNonce r := by
  have hfresh : u.runOf 0x80 .fresh = none := State.runOf_other h (by decide)
  have hitems : u.runOf 0x80 .items = none := State.runOf_other h (by decide)
  simp only [State.cmdAttest, h, hfresh, hitems]

theorem State.gotWords_enough {n : Nat} (h : (u.keeper.words.take n).length = n) :
    u.gotWords n = some (u.keeper.words.take n) :=
  if_pos (by rw [List.length_take] at h; omega)

section
variable (h : (u.keeper.words.take 4).length = 4)
include h

theorem State.attestNonce_scalar {k : Nat} (hk : nonceOf (u.keeper.words.take 4) = some k) :
    u.attestNonce r = u.toEngine { r with phase := .engine, acc := [k] } Config.signK := by
  simp only [State.attestNonce, State.gotWords_enough h, hk]

/-- Four words that spell no scalar are dropped, and the wait goes on. -/
theorem State.attestNonce_dropped (hk : nonceOf (u.keeper.words.take 4) = none) :
    u.attestNonce r = { u with keeper.words := u.keeper.words.drop 4 } := by
  simp only [State.attestNonce, State.gotWords_enough h, hk]

end

/-! ### SELF_TEST (R317) -/

/-- The random source is put to its known-answer test where that is named. -/
def State.katRaised (u : State) (tests : Nat) : State :=
  if tests.testBit 3 then { u with startup.rndTest := some u.clock.edge, startup.katWords := [] } else u

theorem State.cmdSelfTest_fresh (h : u.runOf 0xF0 .fresh = some r) :
    u.cmdSelfTest passed =
      if u.testBusy (r.cmd.field 0 1) then u.endZero stBusy
      else (u.katRaised (r.cmd.field 0 1)).toEngine { r with phase := .engine, acc := [passed.toNat] }
        (if (r.cmd.field 0 1).testBit 2 then Config.signK + Config.verifyK else 0) := by
  simp only [State.cmdSelfTest, h]
  rfl

end Sys2Proof.Machine
end

section
/-! SUPPORT. The end of an engine operation: the rest of its command (R297, R317, R328, R346). -/

namespace Sys2Proof.Machine
variable {u v : State} {e : EngineEntry} {rest : List EngineEntry} {pin : Presence} {t : Nat}

/-- PRESENCE as a command that ends at this edge samples it. -/
def State.presenceNow (u : State) (pin : Presence) : Bool := u.presenceSeen pin.level (u.clock.edge - pin.ago)

section
variable (he : u.keeper.engine = e :: rest) (ht : e.started = some t) (hend : e.ended = false)
include he ht hend

theorem State.engineReady_eq : u.engineReady = if t + 2 * e.lasts ≤ u.clock.dp then some e else none := by
  simp [State.engineReady, he, ht, hend]

end

section
variable (hg : u.keeperGoes = true) (hk : u.clock.edge % 2 = 0) (hb : u.atBoundary = true)
include hg hk hb

theorem State.engineDone_none (h : u.engineReady = none) : u.engineDone pin = u := by
  simp [State.engineDone, hg, State.atKclk_even hk, hb, h]

variable (h : u.engineReady = some e)
include h

theorem State.engineDone_commission (hop : e.run.cmd.opcode = 0x70#8) :
    u.engineDone pin = State.commissionDone { u with levels.presence := u.presenceNow pin } e (u.presenceNow pin) := by
  simp [State.engineDone, hg, State.atKclk_even hk, hb, h, hop, State.presenceNow]

theorem State.engineDone_attest (hop : e.run.cmd.opcode = 0x80#8) : u.engineDone pin = u.attestSigned e := by
  simp [State.engineDone, hg, State.atKclk_even hk, hb, h, hop]

theorem State.engineDone_selfTest (hop : e.run.cmd.opcode = 0xF0#8) : u.engineDone pin = u.selfTestDone e := by
  simp [State.engineDone, hg, State.atKclk_even hk, hb, h, hop]

end

/-- Both keys lie on the curve, and the part is factory-clean with PRESENCE: the two officers are enrolled. -/
theorem State.commissionDone_enrols {c : Cmd} (hc : e.run.cmd = c) (ha : validKey c.keyA.x c.keyA.y = true)
    (hb : validKey c.keyB.x c.keyB.y = true) (hf : v.factoryClean = true) :
    v.commissionDone e true =
      (State.count { v with
        keeper.officers := ins none (ins none v.keeper.officers (c.field 0 1) (some c.keyA)) (c.field 1 1) (some c.keyB) }
        fLife 7).endEngine e stOk [] := by
  subst hc
  simp [State.commissionDone, firstFail, ha, hb, hf]

theorem State.attestSigned_signs {q w : Nat}
    (h : signWith ((u.fuse fwScalar).getD 0) (e.run.acc.headD 0) (sha256 (e.run.todo.headD [])) = some (q, w)) :
    u.attestSigned e = u.endEngine e stOk
      (leBytes 2 (e.run.todo.headD []).length ++ zeros 2 ++ e.run.todo.headD [] ++ beBytes 32 q ++ beBytes 32 w) := by
  simp only [State.attestSigned, h]

/-- The named tests that passed, as a mask; the random source's is judged by its words. -/
def State.passedTests (u : State) (tests results : Nat) : Nat :=
  (List.range 5).foldl
    (fun m i => if tests.testBit i && (if i = 3 then u.katOk else results.testBit i) then m + 2 ^ i else m) 0

theorem State.selfTestDone_ends {tests results : Nat} (htests : e.run.cmd.field 0 1 = tests) (hacc : e.run.acc = [results])
    (hkat : tests.testBit 3 = true → u.startup.rndTest = none) :
    u.selfTestDone e =
      let ended := u.endEngine e stOk (leBytes 1 (u.passedTests tests results) ++ zeros 3)
      if u.passedTests tests results = tests then ended else ended.testFailed := by
  subst htests
  have hruns : ((e.run.cmd.field 0 1).testBit 3 && u.startup.rndTest.isSome) = false := by
    cases hbit : (e.run.cmd.field 0 1).testBit 3
    · rfl
    · rw [hkat hbit]
      rfl
  simp only [State.selfTestDone, hruns, Bool.false_eq_true, if_false, hacc, List.headD_cons]
  rfl

end Sys2Proof.Machine
end

section
open Sys2Proof Sys2Proof.Machine

/-- Settles O50: each command up to the engine queue, phase by phase, then the end of an engine operation by its command. -/
theorem engineCommandsQueueAndReturn : Obligations.EngineCommandsQueueAndReturn := by
  intro s u dt hu hr
  refine ⟨fun r h => ⟨fun hs => State.keeperBy_eq hu hr (State.cmdCommission_range h hs),
      fun ha hb hne => ⟨fun hkey => State.keeperBy_eq hu hr (State.cmdCommission_denied h ha hb hne hkey),
        fun hkey => State.keeperBy_eq hu hr (State.cmdCommission_queues h ha hb hne hkey)⟩⟩,
    fun r h found => ⟨fun hm => exec_attest hu hr ?_, fun hm => exec_attest hu hr ?_⟩,
    fun r h => ⟨fun hn found => exec_attest hu hr ?_, fun ha hn found => exec_attest hu hr ?_,
      fun ha => exec_attest hu hr ?_⟩,
    fun r ws found h hws hlen => ⟨fun k hnonce => exec_attest hu hr ?_, fun hnonce => exec_attest hu hr ?_⟩,
    fun r passed v h hkat hplain => ?_, fun e rest t c pin hg hk hb he ht hend hc => ?_⟩
  · rw [State.cmdAttest_fresh h, if_pos hm]
  · rw [State.cmdAttest_fresh h, hm]
    rfl
  · rw [State.cmdAttest_items h, State.attestRead, State.digestEnd_reading hn]
  · rw [State.cmdAttest_items h, State.attestRead, State.digestEnd_poisoned ha hn]
  · rw [State.cmdAttest_items h, State.attestRead, State.digestEnd_read ha]
    rfl
  · subst hws
    rw [State.cmdAttest_random h, State.attestNonce_scalar hlen hnonce]
  · subst hws
    rw [State.cmdAttest_random h, State.attestNonce_dropped hlen hnonce]
  · have hv : u.katRaised (r.cmd.field 0 1) = v := by
      unfold State.katRaised
      split
      · next hbit => exact hkat hbit
      · next hbit => exact hplain (by simpa using hbit)
    refine ⟨fun hbusy => exec_selfTest hu hr ?_, fun hfree => exec_selfTest hu hr ?_⟩
    · rw [State.cmdSelfTest_fresh h, if_pos hbusy]
    · rw [State.cmdSelfTest_fresh h, hfree, hv]
      rfl
  · have ends {w : State} (hw : u.engineDone pin = w) : exec (.engineOpDone dt pin) s = .next (s.left w) :=
      State.plane_eq (f := fun s => s.engineDone pin) hu hr hw
    have hready := State.engineReady_eq he ht hend
    refine ⟨fun hearly => ends ?_, fun hdue => ?_⟩
    · exact State.engineDone_none hg hk hb (hready.trans (if_neg (Nat.not_le.mpr hearly)))
    · have hhead : u.engineReady = some e := hready.trans (if_pos hdue)
      refine ⟨fun v hop hpres hv hA hB hclean => ends ?_, fun hop q w hsign => ends ?_,
        fun hop results got hacc hkat hgot v hv => ?_⟩
      · have hnow : u.presenceNow pin = true := hpres
        rw [State.engineDone_commission hg hk hb hhead (hc ▸ hop), hnow, hv, State.commissionDone_enrols hc hA hB hclean]
      · rw [State.engineDone_attest hg hk hb hhead (hc ▸ hop), State.attestSigned_signs hsign]
      · have hpassed : u.passedTests (c.field 0 1) results = got := hgot
        have hdone := State.selfTestDone_ends (congrArg (fun c => Cmd.field c 0 1) hc) hacc hkat
        rw [hpassed, hv] at hdone
        refine ⟨fun hall => ends ?_, fun hsome => ends ?_⟩
        · rw [State.engineDone_selfTest hg hk hb hhead (hc ▸ hop), hdone, if_pos hall]
        · rw [State.engineDone_selfTest hg hk hb hhead (hc ▸ hop), hdone, if_neg hsome]
          rfl
end

section
/-! SUPPORT. STAGE up to the record of its change, STAGE_CANCEL and STAGE_EXPIRE (R330, R332, R338). -/

namespace Sys2Proof.Machine
variable {u : State} {r : Run} {g : Staged} {c : Cmd}

/-! ### The checks of a change (R330, R331) -/

theorem State.stageChecks_busy (h : u.keeper.staged = some g) : u.stageChecks c = stBusy := by
  simp [State.stageChecks, firstFail, h]

section
variable (hs : u.keeper.staged = none) (hm : u.anyMarg = false)
include hs hm

theorem State.stageChecks_fewOfficers (hk : (bodyLen (c.field 0 1)).isSome = true) (ho : u.officers < 2) :
    u.stageChecks c = stDenied := by
  simp [State.stageChecks, firstFail, hs, hm, Option.isSome_iff_ne_none.mp hk, ho]

/-- A restore-factory has no body to check: it needs user-epoch steps that are left. -/
theorem State.stageChecks_factory (hk : c.field 0 1 = 4) (ho : 2 ≤ u.officers) (he : u.userEpoch < 64) :
    u.stageChecks c = stOk := by
  simp [State.stageChecks, State.bodyChecks, bodyLen, firstFail, hs, hm, hk, Nat.not_lt.mpr ho, Nat.not_le.mpr he]

end

/-! ### STAGE (R330, R332) -/

theorem State.cmdStage_fresh (h : u.runOf 0x60 .fresh = some r) :
    u.cmdStage = if u.stageChecks r.cmd ≠ stOk then u.endZero (u.stageChecks r.cmd) else u.askWords r := by
  simp only [State.cmdStage, h]

theorem State.cmdStage_refused {st : Nat} (h : u.runOf 0x60 .fresh = some r) (hst : u.stageChecks r.cmd = st)
    (hbad : st ≠ stOk) : u.cmdStage = u.endZero st := by
  rw [State.cmdStage_fresh h, hst, if_pos hbad]

theorem State.cmdStage_asks (h : u.runOf 0x60 .fresh = some r) (hst : u.stageChecks r.cmd = stOk) :
    u.cmdStage = u.askWords r := by
  rw [State.cmdStage_fresh h, if_neg (not_not_intro hst)]

/-- With four words a change with no key to validate is recorded. -/
theorem State.cmdStage_records {ws : List DWord} (h : u.runOf 0x60 .random = some r) (hws : u.keeper.words.take 4 = ws)
    (hlen : ws.length = 4) (hk : r.cmd.field 0 1 ≠ 2) (hg : u.stageRecord r.cmd ws = g) :
    u.cmdStage = (u.stageNow g).endRun stOk g.result := by
  have hfresh : u.runOf 0x60 .fresh = none := State.runOf_other h (by decide)
  have hgot : u.gotWords 4 = some ws := hws ▸ State.gotWords_enough (hws ▸ hlen)
  simp only [State.cmdStage, hfresh, h, hgot, if_neg hk, hg]

/-! ### The end of a staged change (R338) -/

theorem State.endStaged_some (h : u.keeper.staged = some g) :
    u.endStaged = { u with keeper.staged := none, keeper.endedStages := g.stageId :: u.keeper.endedStages } := by
  simp only [State.endStaged, h]

theorem State.cmdStageCancel_staged (h : u.runOf 0x63 .fresh = some r) (hg : u.keeper.staged = some g) :
    u.cmdStageCancel = if r.cmd.field 0 4 = g.stageId.toNat then (u.endStaged.count fLife 6).endRun stOk []
      else u.endRun stStale [] := by
  simp only [State.cmdStageCancel, h, hg]

theorem State.cmdStageCancel_none (h : u.runOf 0x63 .fresh = some r) (hg : u.keeper.staged = none) :
    u.cmdStageCancel = u.endRun stStale [] := by
  simp only [State.cmdStageCancel, h, hg]

section
variable (h : u.keeper.staged = some g)
include h

/-- SCLK_COUNT stands at the window's end or past it. -/
theorem State.stageExpire_over (hover : (u.sclkNow - g.windowEnd).toNat < 2147483648) :
    u.stageExpire = u.endStaged.count fLife 5 := by
  simp only [State.stageExpire, h, reached]
  exact if_pos (decide_eq_true hover)

theorem State.stageExpire_open (hopen : 2147483648 ≤ (u.sclkNow - g.windowEnd).toNat) : u.stageExpire = u := by
  simp only [State.stageExpire, h, reached]
  exact if_neg (by simpa using hopen)

end

end Sys2Proof.Machine
end

section
open Sys2Proof Sys2Proof.Machine

/-- Settles O48: STAGE by the phase of its run and by its first failing check, then what ends a staged change. -/
theorem stagedChangesAreRecordedCancelledAndExpired : Obligations.StagedChangesAreRecordedCancelledAndExpired := by
  intro s u dt r g hu hr
  have stage {t : State} (ht : u.cmdStage = t) : exec (.stage dt) s = .next (s.left t) := State.keeperBy_eq hu hr ht
  have cancel {t : State} (ht : u.cmdStageCancel = t) : exec (.stageCancel dt) s = .next (s.left t) :=
    State.keeperBy_eq hu hr ht
  have expire {t : State} (ht : u.stageExpire = t) : exec (.stageExpire dt) s = .next (s.left t) :=
    State.readyBy_eq hu (State.ready_of_running hr) ht
  refine ⟨fun h => ⟨fun st hst hbad => stage (State.cmdStage_refused h hst hbad),
      fun hg => stage (State.cmdStage_refused h (State.stageChecks_busy hg) (by decide)),
      fun hs hk hm ho => stage (State.cmdStage_refused h (State.stageChecks_fewOfficers hs hm hk ho) (by decide)),
      fun hs hk hm ho he => stage (State.cmdStage_asks h (State.stageChecks_factory hs hm hk ho he))⟩,
    fun h w0 w1 w2 w3 hws hk hg => ?_,
    fun h hg => ⟨fun hid => cancel ?_, fun hid => cancel ?_⟩,
    fun h hs => cancel (State.cmdStageCancel_none h hs),
    fun hg => ⟨fun hover => expire ?_, fun hopen => expire (State.stageExpire_open hg hopen)⟩⟩
  · have hrec := State.cmdStage_records h hws rfl hk hg
    subst hg
    exact ⟨by simp [State.stageRecord, wordBytes], rfl, rfl, rfl, stage hrec⟩
  · rw [State.cmdStageCancel_staged h hg, if_pos hid, State.endStaged_some hg]
  · rw [State.cmdStageCancel_staged h hg, if_neg hid]
  · rw [State.stageExpire_over hg hover, State.endStaged_some hg]
end

section
/-! SUPPORT. APPROVE at the head of the engine queue, and the end of its verification (R336, R337, R339). -/

namespace Sys2Proof.Machine
variable {u v w : State} {e : EngineEntry} {rest : List EngineEntry} {c : Cmd} {g : Staged} {k : PubKey} {t : Nat}

/-! ### The checks of an approval (R336) -/

section
variable (hg : u.keeperGoes = true) (hk : u.clock.edge % 2 = 0) (he : u.keeper.engine = e :: rest) (hc : e.run.cmd = c)
  (hop : c.opcode = 0x61#8) (ht : e.started = none) (hread : c.unreadable = false)
  (hv : u.setBox c.host { u.box c.host with st := .running } = v) (hpass : v.check c = .proceed)
include hg hk he hc hop ht hread hv hpass

/-- An approval that passes the checks of its header is answered by the first of its own that fails, or its verification starts. -/
theorem State.approveHead_checked :
    u.approveHead = if v.approveChecks c ≠ stOk then v.answerHead e (v.approveChecks c)
      else { v with keeper.engine := { e with started := some v.clock.dp, lasts := Config.verifyK } :: rest } := by
  subst hc hv
  simp [State.approveHead, hg, State.atKclk_even hk, he, hop, ht, hread, hpass]

end

/-! ### The outcome of a verification (R337, R339) -/

/-- A ready approval of a change whose window is open goes on with the outcome of its verification. -/
theorem State.approvalVerified_open (hg : u.keeperGoes = true) (hk : u.clock.edge % 2 = 0) (hb : u.atBoundary = true)
    (hready : u.engineReady = some e) (hop : e.run.cmd.opcode = 0x61#8) (hs : u.keeper.staged = some g)
    (hopen : 2147483648 ≤ (u.sclkNow - g.windowEnd).toNat) : u.approvalVerified = u.approvalDone e := by
  simp [State.approvalVerified, hg, State.atKclk_even hk, hb, hready, hop, State.stageExpire_open hs hopen]

section
variable (hs : u.keeper.staged = some g) (hc : e.run.cmd = c) (hid : g.stageId.toNat = c.field 0 4)
  (hk : u.officer (c.field 4 1) = some k)
include hs hc hid hk

theorem State.approvalDone_staged :
    u.approvalDone e =
      if verifySig k g.digest (ofBe (c.slice 8 32)) (ofBe (c.slice 40 32)) = false then u.voidStaged.answerHead e stBadSig
      else if g.approvals = [] then
        State.endEngine { u with keeper.staged := some { g with approvals := [c.field 4 1] } } e stOk (approval 1 0)
      else u.commitStaged e g := by
  subst hc
  simp [State.approvalDone, hs, hid, hk]

end

/-- A commit of a vault route, an enrolment or a removal ends its approval at once. -/
theorem State.commitStaged_ends (hw : State.event { u with keeper.staged := none } fLife 3 146 = w) (hkind : g.kind.toNat < 4) :
    u.commitStaged e g = (w.commitEffect g).endEngine e stOk (approval 2 1) := by
  subst hw
  have h4 : g.kind.toNat ≠ 4 := by omega
  have h5 : g.kind.toNat ≠ 5 := by omega
  simp [State.commitStaged, h4, h5]

theorem State.commitEffect_vaultRoute (h : g.kind = 1#8) :
    w.commitEffect g = w.setVaultRoute (bodyField g.body 0 1) (vaultEntry g.body) := by
  simp [State.commitEffect, h]

theorem State.commitEffect_enrols (h : g.kind = 2#8) :
    w.commitEffect g =
      { w with keeper.officers := ins none w.keeper.officers (bodyField g.body 0 1) (some (keyOf (g.body.drop 4))) } := by
  simp [State.commitEffect, h]

theorem State.commitEffect_removes (h : g.kind = 3#8) :
    w.commitEffect g = { w with keeper.officers := ins none w.keeper.officers (bodyField g.body 0 1) none } := by
  simp [State.commitEffect, h]

end Sys2Proof.Machine
end

section
open Sys2Proof Sys2Proof.Machine

/-- Settles O49: the approval by its first failing check, then its verification by the signature, by the approvals that stand
and by the kind of the change. -/
theorem approvalsVerifyThenCommit : Obligations.ApprovalsVerifyThenCommit := by
  intro s u dt e rest c hu hr hg hedge he hc hop
  refine ⟨fun v ht hread hv hpass => ?_, fun t g k ht hend hb hdue hs hopen hid hk => ?_⟩
  · have hhead := State.approveHead_checked hg hedge he hc hop ht hread hv hpass
    refine ⟨fun st hst hbad => State.plane_eq hu hr ?_, fun hok => State.plane_eq hu hr ?_⟩
    · rw [hhead, hst, if_pos hbad]
      rfl
    · rw [hhead, if_neg (not_not_intro hok)]
  · have hready : u.engineReady = some e := (State.engineReady_eq he ht hend).trans (if_pos hdue)
    have outcome {t : State} (h : u.approvalDone e = t) : exec (.approvalVerified dt) s = .next (s.left t) :=
      State.plane_eq hu hr ((State.approvalVerified_open hg hedge hb hready (hc ▸ hop) hs hopen).trans h)
    have hdone := State.approvalDone_staged hs hc hid hk
    refine ⟨fun hbad => outcome ?_, fun hsig hfirst => outcome ?_, fun w hsig hsecond hw => ?_⟩
    · rw [hdone, if_pos hbad]
      rfl
    · rw [hdone, if_neg (by simp [hsig]), if_pos hfirst]
      rfl
    · rw [if_neg (by simp [hsig]), if_neg hsecond] at hdone
      have commits {t : State} (hkind : g.kind.toNat < 4) (ht : w.commitEffect g = t) :
          exec (.approvalVerified dt) s = .next (s.left (t.endEngine e stOk [2#8, 1#8, 0#8, 0#8])) :=
        outcome (hdone.trans ((State.commitStaged_ends hw hkind).trans (by rw [ht]; rfl)))
      exact ⟨fun hkind => commits (by simp [hkind]) (State.commitEffect_vaultRoute hkind),
        fun hkind => commits (by simp [hkind]) (State.commitEffect_enrols hkind),
        fun hkind => commits (by simp [hkind]) (State.commitEffect_removes hkind)⟩
end

section
/-! SUPPORT. FUSE_PROGRAM_DONE in reset, and a state at READY whose reset is asserted (R21, R423). -/

namespace Sys2Proof.Machine

theorem exec_fuseProgramDone_inReset {s : State} {dt : Nat} {clean : Bool} (h : (s.elapse dt).startup.inReset = true) :
    exec (.fuseProgramDone dt clean) s = .next (s.left (s.elapse dt)) :=
  State.clockedBy_off (f := fun s => s.programDone clean) h

theorem State.left_fuses_of_raised_nil (s : State) {t : State} (h : t.raised = []) : (s.left t).fuses = t.fuses := by
  rw [State.left_of_raised_nil s h]

/-- A LIFECYCLE_ADVANCE to FIELD that waits for the copies of its bit. -/
def advanceRun : Run :=
  { Run.start
      { host := 0, opcode := 0xF1#8, flags := 0#8, len := 4, seq := 0#16, top := 0#8, payload := leBytes 4 2,
        stagedAt := none, presence := true, factoryClean := false, unreadable := false } with
    phase := .waiting }

/-- A block at READY with reset asserted: two copies of the lifecycle bit are still to be programmed. -/
def advancingInReset : State :=
  { State.reset with
    startup := { Startup.reset with ready := true, inReset := true }
    keeper.run := some advanceRun
    fuses.programming := [(fwLife, 1), (fwLife, 2)]
    fuses.afterTarget := lifeTarget 2 }

end Sys2Proof.Machine
end

section
open Sys2Proof Sys2Proof.Machine

/-- Refutes O52: FUSE_PROGRAM_DONE has no effect while reset is asserted, since the model counts edges from its release (R21). The
statement asks that the block runs, which is READY and no freeze, but not that it is out of reset, a field of its own; a state with
both set keeps the copy in its plan. -/
theorem not_fuseCommandsProgramAndResense : ¬ Obligations.FuseCommandsProgramAndResense := by
  intro h
  have hreset : (advancingInReset.elapse 0).startup.inReset = true := by decide
  have hplan : (advancingInReset.elapse 0).fuses.programming = [(fwLife, 1), (fwLife, 2)] := by decide
  obtain ⟨_, hcopy, _⟩ := h advancingInReset _ 0 advanceRun rfl (by decide)
  have hburnt := hcopy true fwLife 1 (fwLife, 2) [] (by decide) hplan
  rw [exec_fuseProgramDone_inReset hreset] at hburnt
  have hfuses := congrArg State.fuses (Host.Outcome.next.inj hburnt)
  rw [State.left_fuses_of_raised_nil _ (State.elapse_raised ..), State.left_fuses_of_raised_nil] at hfuses
  · exact absurd (hplan.symm.trans (congrArg Fuses.programming hfuses)) (by decide)
  · exact State.elapse_raised advancingInReset 0
end

section
/-! SUPPORT. One step, by the queue, and the block as reset leaves it (R22, R403). -/

namespace Sys2Proof.Machine
variable {s : State}

theorem step_idle (h : s.pending = []) : step s = .next (s.left (s.elapse 1)) := by
  simp only [step, h]
  rfl

theorem step_front {c : Instr} {rest : List Instr} (h : s.pending = c :: rest) :
    step s = exec c { s with pending := rest } := by
  simp only [step, h]

/-- Every step answers a calm state. -/
theorem State.safe_of_step (s : State) : s.safe := by
  obtain ⟨t, hstep, hcalm, _⟩ := step_answers s
  exact ⟨t, hstep, hcalm⟩

end Sys2Proof.Machine
end

section
open Sys2Proof Sys2Proof.Machine

/-- Settles O1: a step by what its queue holds. -/
theorem stepRunsTheFrontCommand : Obligations.StepRunsTheFrontCommand :=
  fun _ _ _ => ⟨step_front, step_idle⟩

/-- Settles O2: the tables of reset list nothing, so each reads as an unlisted index does; every state is safe. -/
theorem resetIsACalmSafeState : Obligations.ResetIsACalmSafeState :=
  ⟨rfl, State.safe_of_step _, State.tablesRise.reset, rfl, rfl, rfl, fun _ => ⟨rfl, rfl⟩, fun _ => ⟨rfl, rfl⟩, fun _ => rfl,
    fun _ => rfl, rfl, fun _ => rfl, rfl, rfl⟩
end

section
/-! SUPPORT. What a write of one well, and a count, leave of the twin link; two writes of one well (R17, R352). -/

namespace Sys2Proof.Machine
variable {u : State}

@[simp] theorem State.modWell_leadB (u : State) (b : Bool) (f : Well → Well) : (u.modWell b f).twin.leadB = u.twin.leadB := by
  cases b <;> rfl

@[simp] theorem State.modWell_pair (u : State) (b : Bool) (f : Well → Well) : (u.modWell b f).twin.pair = u.twin.pair := by
  cases b <;> rfl

@[simp] theorem State.modWell_repair (u : State) (b : Bool) (f : Well → Well) : (u.modWell b f).twin.repair = u.twin.repair := by
  cases b <;> rfl

@[simp] theorem State.modWell_failover (u : State) (b : Bool) (f : Well → Well) :
    (u.modWell b f).twin.failover = u.twin.failover := by
  cases b <;> rfl

@[simp] theorem State.modWell_paired (u : State) (b : Bool) (f : Well → Well) : (u.modWell b f).paired = u.paired :=
  congrArg (fun p => decide (p = PairState.paired)) (u.modWell_pair b f)

@[simp] theorem State.count_paired (u : State) (f i : Nat) : (u.count f i).paired = u.paired := by
  simp [State.paired]

@[simp] theorem State.well_modWell_same (u : State) (b : Bool) (f : Well → Well) : (u.modWell b f).well b = f (u.well b) :=
  State.well_setWell_same _

@[simp] theorem State.well_modWell_other (u : State) (b : Bool) (f : Well → Well) : (u.modWell b f).well (!b) = u.well (!b) :=
  State.well_setWell_other _

/-- Two writes of one well are one. -/
theorem State.modWell_modWell (u : State) (b : Bool) (f g : Well → Well) :
    (u.modWell b f).modWell b g = u.modWell b fun w => g (f w) := by
  cases b <;> rfl

theorem State.mirrorRuns_of_paired (h : u.paired = true) : u.mirrorRuns = true := by
  simp [State.mirrorRuns, h]

theorem State.linkUsed_of_paired (h : u.paired = true) : u.linkUsed = true := by
  simp [State.linkUsed, h]

end Sys2Proof.Machine
end

section
/-! SUPPORT. Checkpoints, frames, comparisons and the heartbeat while paired (R355 to R357, R359). -/

namespace Sys2Proof.Machine
variable {u v : State} {b : Bool} {vecA vecB noise : List Byte}

theorem Well.close_sig {w : Well} (h : w.invertNext = false) (k : Nat) (vec : List Byte) :
    (w.close k vec).sig = crc64 w.sig vec := by
  simp [Well.close, h]

theorem crc32Byte_zero : crc32Byte 0#32 0#8 = 0#32 := by decide

/-- A silent link adds zeros, whose CRC is zero. -/
theorem frameValid_silent : frameValid [] = true := by
  have hcrc : (zeros 11).foldl crc32Byte 0#32 = 0#32 := by simp [zeros, List.replicate, crc32Byte_zero]
  have htake : ((([] : List Byte) ++ zeros 15).take 15).take 11 = zeros 11 := rfl
  simp only [frameValid, htake, hcrc]
  decide

/-- The noise of a silent link is zero, and leaves the signature as it was sent. -/
theorem frameSig_silent (sig : DWord) : frameSig sig [] = sig := by
  have hzero : ofLe ((((([] : List Byte) ++ zeros 15).take 15).drop 2).take 8) = 0 := by decide
  rw [frameSig, hzero]
  exact BitVec.xor_zero

/-! ### CHECKPOINT (R355) -/

theorem State.checkpoint_between (h : u.clock.edge % 256 ≠ 0) : u.checkpoint vecA vecB = u := by
  simp [State.checkpoint, h]

/-- Paired wells both close their signatures. -/
theorem State.checkpoint_closes {l : Bool} (hr : u.running = true) (he : u.clock.edge % 256 = 0)
    (hk : u.lead.sigK ≠ u.clock.edge / 256) (hl : u.twin.leadB = l)
    (hv : u.modWell l (fun w => w.close (u.clock.edge / 256) (if l then vecB else vecA)) = v) (hp : v.paired = true) :
    u.checkpoint vecA vecB = v.modWell (!l) fun w => w.close (u.clock.edge / 256) (if l then vecA else vecB) := by
  subst hl hv
  simp [State.checkpoint, hr, he, hk, State.mirrorRuns_of_paired hp]

/-! ### TWIN_FRAME_ARRIVE (R356) -/

theorem State.linkLost_paired (h : u.paired = true) : u.linkLost = u.trigger 2 := by
  simp [State.linkLost, h]

theorem State.frameArrive_none (h : u.frameDue (!b) = false) : u.frameArrive b noise = u := by
  simp [State.frameArrive, h]

section
variable (hp : u.paired = true) (hdue : u.frameDue (!b) = true)
include hdue

section
variable (hin : (u.well (!b)).resend = false ∨ u.clock.edge ≤ (u.well (!b)).resendAt + 16)
include hin

theorem State.frameArrive_inTime :
    u.frameArrive b noise =
      if frameValid noise then
        u.modWell (!b) fun w =>
          { w with frameIn := true, frameSig := frameSig w.sig noise, frameAt := u.clock.edge, validAt := some u.clock.edge,
                   hbLost := false }
      else if (u.well (!b)).resend then u.linkLost
      else (u.modWell (!b) fun w => { w with resend := true, resendAt := u.clock.edge }).count fTwin 7 := by
  have hlate : ((u.well (!b)).resend && decide ((u.well (!b)).resendAt + 16 < u.clock.edge)) = false := by
    rcases hin with h | h <;> simp [h]
  simp [State.frameArrive, hdue, hlate]

include hp in
theorem State.frameArrive_failedAgain (hn : frameValid noise = false) (hres : (u.well (!b)).resend = true) :
    u.frameArrive b noise = u.trigger 2 := by
  simp [State.frameArrive_inTime hdue hin, hn, hres, State.linkLost_paired hp]

end

include hp in
theorem State.frameArrive_late (hres : (u.well (!b)).resend = true) (hl : (u.well (!b)).resendAt + 16 < u.clock.edge) :
    u.frameArrive b noise = u.trigger 2 := by
  simp [State.frameArrive, hdue, hres, hl, State.linkLost_paired hp]

end

/-! ### SIG_COMPARE (R356, R359) -/

/-- An edge at which a checkpoint may be compared lies 16 to 48 edges after it. -/
theorem compareEdge_window {k e : Nat} {resent : Bool} (h : compareEdge k e resent = true) :
    256 * k + 16 ≤ e ∧ e ≤ 256 * k + 48 := by
  cases resent <;> simp [compareEdge] at h <;> omega

theorem compareEdge_of {k e : Nat} {resent : Bool}
    (h : e = 256 * k + 16 ∨ resent = true ∧ 256 * k + 16 ≤ e ∧ e ≤ 256 * k + 48) : compareEdge k e resent = true := by
  cases resent <;> simp [compareEdge] at h ⊢ <;> omega

theorem State.sigCompare_outside (h : u.clock.edge < 256 * u.lead.sigK + 16 ∨ 256 * u.lead.sigK + 48 < u.clock.edge) :
    u.sigCompare = u := by
  have hedge : compareEdge u.lead.sigK u.clock.edge (u.lead.resend || u.mirror.resend) = false := by
    by_contra hc
    have := compareEdge_window (by simpa using hc)
    omega
  simp [State.sigCompare, hedge]

section
variable (hr : u.running = true) (hp : u.paired = true) (hl : u.lead.frameIn = true) (hm : u.mirror.frameIn = true)
  (hk : u.lead.sigK = u.mirror.sigK) (hnew : u.twin.comparedK ≠ u.lead.sigK)
  (hedge : compareEdge u.lead.sigK u.clock.edge (u.lead.resend || u.mirror.resend) = true)
  (hv : State.count { u with twin.lastCompare := u.lead.frameSig, twin.comparedK := u.lead.sigK } fTwin 6 = v)
include hr hp hl hm hk hnew hedge hv

theorem State.sigCompare_paired :
    u.sigCompare = if u.lead.frameSig = u.mirror.frameSig then v.trusted.swapNow else (v.trigger 1).swapLost := by
  have hpaired : v.paired = true := by
    subst hv
    exact (State.count_paired ..).trans hp
  have hk' : u.twin.comparedK ≠ u.mirror.sigK := hk ▸ hnew
  rw [hk] at hedge
  rw [hk] at hv
  simp [State.sigCompare, hr, State.mirrorRuns_of_paired hp, hl, hm, hk, hk', hedge, hv, hpaired]

/-- With no attempt and no swap pending an equal comparison does no more. -/
theorem State.sigCompare_equal (heq : u.lead.frameSig = u.mirror.frameSig) (hrep : u.twin.repair = none)
    (hswap : u.twin.swapPend = none) : u.sigCompare = v := by
  have htwin : v.twin = { u.twin with lastCompare := u.lead.frameSig, comparedK := u.lead.sigK } := by
    subst hv
    exact State.count_twin ..
  have htrusted : v.trusted = v := by simp [State.trusted, htwin, hrep]
  have hnow : v.swapNow = v := by simp [State.swapNow, htwin, hswap]
  rw [State.sigCompare_paired hr hp hl hm hk hnew hedge hv, if_pos heq, htrusted, hnow]

end

/-! ### HB_LOSS (R357) -/

theorem State.heartbeatLoss_lost (hr : u.running = true) (hp : u.paired = true) (hlost : (u.well (!b)).hbLost = false)
    (hat : (u.well (!b)).frameAt + 1024 ≤ u.clock.edge) :
    u.heartbeatLoss b = ((u.modWell (!b) fun w => { w with hbLost := true }).count fTwin 8).trigger 2 := by
  simp [State.heartbeatLoss, hr, State.linkUsed_of_paired hp, hlost, hat, State.linkLost, hp]

theorem State.heartbeatLoss_none (h : (u.well (!b)).hbLost = true ∨ u.clock.edge < (u.well (!b)).frameAt + 1024) :
    u.heartbeatLoss b = u := by
  rcases h with h | h <;> simp [State.heartbeatLoss, h]

end Sys2Proof.Machine
end

section
open Sys2Proof Sys2Proof.Machine

/-- Settles O53: the checkpoint, then a frame by whether it is due, in time and valid, then the comparison by its edge and its
signatures, then the heartbeat. -/
theorem checkpointsAreClosedSentAndCompared : Obligations.CheckpointsAreClosedSentAndCompared := by
  intro s u dt vecA vecB b hu hr hp
  have checkpoint {t : State} (ht : u.checkpoint vecA vecB = t) : exec (.checkpoint dt vecA vecB) s = .next (s.left t) :=
    State.plane_eq (f := fun s => s.checkpoint vecA vecB) hu hr ht
  have arrives {noise : List Byte} {t : State} (ht : u.frameArrive b noise = t) :
      exec (.twinFrameArrive dt b noise) s = .next (s.left t) :=
    State.plane_eq (f := fun s => s.frameArrive b noise) hu hr ht
  have compared {t : State} (ht : u.sigCompare = t) : exec (.sigCompare dt) s = .next (s.left t) := State.plane_eq hu hr ht
  have beats {t : State} (ht : u.heartbeatLoss b = t) : exec (.hbLoss dt b) s = .next (s.left t) :=
    State.plane_eq (f := fun s => s.heartbeatLoss b) hu hr ht
  refine ⟨fun l v he hk hl hv hpv => checkpoint (State.checkpoint_closes hr he hk hl hv hpv),
    fun he => checkpoint (State.checkpoint_between he), fun w hw => Well.close_sig hw .., ⟨frameValid_silent, frameSig_silent⟩,
    fun noise w hdue hw => ?_, fun noise hdue => arrives (State.frameArrive_none hdue),
    fun v hl hm hk hnew hedge hv => ?_, fun h => compared (State.sigCompare_outside h),
    fun hlost hat => beats (State.heartbeatLoss_lost hr hp hlost hat), fun h => beats (State.heartbeatLoss_none h)⟩
  · subst hw
    refine ⟨fun hin => ?_, fun hres hl => arrives (State.frameArrive_late hp hdue hres hl)⟩
    have harrive (noise : List Byte) := State.frameArrive_inTime (noise := noise) hdue hin
    refine ⟨fun hok => arrives ?_, fun hbad hres => arrives ?_,
      fun hbad hres => arrives (State.frameArrive_failedAgain hp hdue hin hbad hres)⟩
    · rw [harrive, if_pos hok]
    · rw [harrive, hbad, hres]
      rfl
  · have hedge' := compareEdge_of (resent := u.lead.resend || u.mirror.resend) (by simpa using hedge)
    refine ⟨fun heq hrep hswap => compared (State.sigCompare_equal hr hp hl hm hk hnew hedge' hv heq hrep hswap),
      fun hne => compared ?_⟩
    rw [State.sigCompare_paired hr hp hl hm hk hnew hedge' hv, if_neg hne]
end

section
/-! SUPPORT. What the freeze makes of the cores: every core-edge line is low, and no other state of a core changes (R360). -/

namespace Sys2Proof.Machine
variable {s : State} {n : Nat} {f : Core → Core} {l : List Nat}

theorem look_of_not_mem_keys {α : Type} (d : α) {t : Tbl α} {k : Nat} (h : k ∉ keys t) : look d t k = d := by
  induction t with
  | nil => rfl
  | cons e t ih =>
    obtain ⟨hne, ht⟩ := not_or.mp (mt List.mem_cons.mpr h)
    exact (if_neg hne).trans (ih ht)

/-- An idempotent change made of the cores of a list is made once of each of them. -/
theorem State.core_foldl_modCore (hf : ∀ c, f (f c) = f c) (h : rising 0 s.cores = true) :
    (l.foldl (fun (s : State) k => s.modCore k f) s).core n = if n ∈ l then f (s.core n) else s.core n := by
  induction l generalizing s with
  | nil => rfl
  | cons k l ih =>
    rw [List.foldl_cons, ih (s := s.modCore k f) (rising_ins _ h (Nat.zero_le _) _)]
    by_cases hk : n = k
    · subst hk
      have hsame : (s.modCore n f).core n = f (s.core n) := look_ins_same _ h _ _
      simp [hsame, hf]
    · have hother : (s.modCore k f).core n = s.core n := look_ins_other _ _ hk
      simp [hother, hk]

/-- Changes of cores change the cores alone. -/
theorem State.foldl_modCore_cores (s : State) (l : List Nat) (f : Core → Core) :
    ∃ c, l.foldl (fun (s : State) k => s.modCore k f) s = { s with cores := c } :=
  List.foldlRecOn (motive := fun t : State => ∃ c, t = { s with cores := c }) l _ ⟨_, rfl⟩ fun t ht k _ => by
    obtain ⟨_, rfl⟩ := ht
    exact ⟨_, rfl⟩

theorem State.linesLow_cores (h : rising 0 s.cores = true) :
    ∃ c, s.linesLow = { s with cores := c } ∧
      ∀ n, look Core.reset c n = { s.core n with lineN := [], lineF := [], lineW := [] } := by
  obtain ⟨c, hc⟩ := State.foldl_modCore_cores s (keys s.cores) fun c => { c with lineN := [], lineF := [], lineW := [] }
  refine ⟨c, hc, fun n => ?_⟩
  have hcore := State.core_foldl_modCore (n := n) (l := keys s.cores)
    (f := fun c => { c with lineN := [], lineF := [], lineW := [] }) (fun _ => rfl) h
  rw [hc] at hcore
  refine Eq.trans hcore ?_
  split
  · rfl
  · next hn =>
    have hreset : s.core n = Core.reset := look_of_not_mem_keys _ hn
    rw [hreset]
    rfl

end Sys2Proof.Machine
end

section
/-! SUPPORT. Silence, the freeze, the self-checks and the resume edge (R358, R360 to R364). -/

namespace Sys2Proof.Machine
variable {u v : State} {quiet : Nat} {t : Trigger} {f : Failover} {b : Bool}

/-! ### LEAD_SILENT and MIRROR_SILENT (R358, R364) -/

theorem State.silentNow_none (h : u.twin.failover = none) : u.silentNow b = u := by
  simp only [State.silentNow, h]

theorem State.leadSilent_brief (h : quiet < 8) : u.leadSilent quiet = u := by
  simp [State.leadSilent, Nat.not_le.mpr h]

theorem State.mirrorSilent_brief (h : quiet < 8) : u.mirrorSilent quiet = u := by
  simp [State.mirrorSilent, Nat.not_le.mpr h]

theorem State.mirrorSilent_unpaired (hp : u.paired = false) (hrep : u.twin.repair = none) : u.mirrorSilent quiet = u := by
  simp [State.mirrorSilent, hp, hrep]

section
variable (hf : u.twin.failover = none) (hfault : u.twin.fabricFault = false)
include hf hfault

theorem State.trigger_first (h : u.twin.trigger = none) (cause : Nat) :
    u.trigger cause =
      { u with twin.trigger := some { cause := cause, edge := u.clock.edge, leadBad := decide (cause = 3) || decide (cause = 4),
                                      mirrorBad := decide (cause = 5) } } := by
  simp [State.trigger, hf, hfault, h]

/-- Of two triggers of one edge the lower cause is kept, and each well found bad by either is bad. -/
theorem State.trigger_sameEdge (h : u.twin.trigger = some t) (he : t.edge = u.clock.edge) (cause : Nat) :
    u.trigger cause =
      { u with twin.trigger := some { cause := min cause t.cause, edge := t.edge,
                                      leadBad := t.leadBad || (decide (cause = 3) || decide (cause = 4)),
                                      mirrorBad := t.mirrorBad || decide (cause = 5) } } := by
  simp [State.trigger, hf, hfault, h, he]

theorem State.trigger_later (h : u.twin.trigger = some t) (he : t.edge ≠ u.clock.edge) (cause : Nat) : u.trigger cause = u := by
  simp [State.trigger, hf, hfault, h, he]

end

section
variable (hr : u.startup.ready = true) (hf : u.twin.failover = none) (hq : 8 ≤ quiet)
include hr hf hq

theorem State.leadSilent_triggers : u.leadSilent quiet = u.trigger 3 := by
  simp [State.leadSilent, hr, hq, State.silentNow_none hf]

theorem State.mirrorSilent_triggers (hp : u.paired = true) : u.mirrorSilent quiet = u.trigger 5 := by
  simp [State.mirrorSilent, hr, hq, hp, State.silentNow_none hf]

end

/-! ### FAILOVER_FREEZE (R360) -/

theorem State.freeze_none (ht : u.twin.trigger = some t) (h : u.paired = false ∨ 4 < t.cause ∨ u.clock.edge ≤ t.edge) :
    u.freeze = u := by
  rcases h with h | h | h <;> simp [State.freeze, ht, h]

/-- The report that a well has without a self-check: unhealthy, where the trigger found it bad. -/
def Trigger.verdict (bad : Bool) (w : Well) : Well := { w with report := if bad then some false else none }

/-- The wells asked for their self-checks. -/
def State.asked (u : State) (t : Trigger) : State :=
  (u.modWell u.twin.leadB (Trigger.verdict t.leadBad)).modWell (!u.twin.leadB) (Trigger.verdict t.mirrorBad)

theorem State.freeze_freezes (hr : u.running = true) (ht : u.twin.trigger = some t) (hp : u.paired = true) (hc : t.cause ≤ 4)
    (he : t.edge < u.clock.edge) :
    u.freeze = { (u.asked t).linesLow with
                 twin.failover := some { trigger := t, freeze := u.clock.edge,
                                         decided := if t.leadBad ∧ t.mirrorBad then some (u.clock.edge + 2) else none,
                                         promoted := false, stage := 0, replays := [], replayed := 0, keeperOn := u.midStep }
                 twin.trigger := none } := by
  have hguard : (!u.running || !u.paired || decide (4 < t.cause) || decide (u.clock.edge ≤ t.edge)) = false := by
    simp [hr, hp, hc, he]
  simp only [State.freeze, ht, hguard, Bool.and_eq_true]
  rfl

theorem State.asked_report (u : State) (t : Trigger) (b : Bool) :
    ((u.asked t).well b).report = if (if b = u.twin.leadB then t.leadBad else t.mirrorBad) then some false else none := by
  unfold State.asked
  cases b <;> cases u.twin.leadB <;> rfl

theorem State.asked_well (u : State) (t : Trigger) (b : Bool) :
    { (u.asked t).well b with report := (u.well b).report } = u.well b := by
  unfold State.asked
  cases b <;> cases u.twin.leadB <;> rfl

/-- The wells' reports are all that asking for them changes. -/
theorem State.asked_twin (u : State) (t : Trigger) : ∃ a b, u.asked t = { u with twin.wellA := a, twin.wellB := b } := by
  unfold State.asked
  cases u.twin.leadB
  · exact ⟨_, _, rfl⟩
  · exact ⟨_, _, rfl⟩

/-! ### SELF_CHECK_REPORT and SELF_CHECK_DEADLINE (R361) -/

theorem State.selfReport_none {c : SelfCheck} (hf : u.twin.failover = some f)
    (h : (u.well b).report ≠ none ∨ f.freeze + 15000 < u.clock.edge) : u.selfReport b c = u := by
  have hsome : (u.well b).report ≠ none → (u.well b).report.isSome = true := Option.isSome_iff_ne_none.mpr
  rcases h with h | h
  · simp [State.selfReport, hf, hsome h]
  · simp [State.selfReport, hf, h]

section
variable (hf : u.twin.failover = some f) (hd : f.decided = none)
include hf hd

theorem State.selfReport_reports {c : SelfCheck} (hrep : (u.well b).report = none) (hlo : f.freeze < u.clock.edge)
    (hhi : u.clock.edge ≤ f.freeze + 15000) : u.selfReport b c = u.reports b (u.healthy f b c) := by
  simp [State.selfReport, hf, hd, hrep, Nat.not_le.mpr hlo, Nat.not_lt.mpr hhi]

theorem State.selfDeadline_late (h : f.freeze + 15000 ≤ u.clock.edge) :
    u.selfDeadline = { u with twin.failover := some { f with decided := some (f.freeze + 15001) } } := by
  simp [State.selfDeadline, hf, hd, Nat.not_lt.mpr h, State.decideAt]

omit hd in
theorem State.selfDeadline_early (h : u.clock.edge < f.freeze + 15000) : u.selfDeadline = u := by
  simp [State.selfDeadline, hf, h]

end

/-- The first report waits for the other well's, and the second fixes the decision. -/
theorem State.reports_first {healthy : Bool} (h : (u.well (!b)).report = none) :
    u.reports b healthy = u.modWell b fun w => { w with report := some healthy } := by
  simp [State.reports, h]

theorem State.reports_second {healthy : Bool} (hv : u.modWell b (fun w => { w with report := some healthy }) = v)
    (hf : u.twin.failover = some f) (h : (u.well (!b)).report ≠ none) :
    u.reports b healthy = { v with twin.failover := some { f with decided := some (u.clock.edge + 1) } } := by
  subst hv
  simp [State.reports, Option.isSome_iff_ne_none.mpr h, State.decideAt, hf]

/-! ### FAILOVER_RESUME (R363) -/

section
variable {d : Nat} (hf : u.twin.failover = some f) (hd : f.decided = some d)
include hf hd

/-- Before its edge the freeze stands. -/
theorem State.resume_early (h : f.stage < 2 ∨ u.clock.edge < d + if f.promoted then 258 else 2) : u.resume = u := by
  have hunfreeze : u.unfreeze = u := by
    simp only [State.unfreeze, hf, Failover.resumeAt, hd, Option.map_some, if_pos h]
  have hfrozen : u.frozen = true := by simp [State.frozen, hf]
  simp [State.resume, hunfreeze, hfrozen]

theorem State.unfreeze_ends (hs : f.stage = 2) (he : (d + if f.promoted then 258 else 2) ≤ u.clock.edge) :
    u.unfreeze =
      ((if f.promoted then
          State.prepareRewrites (State.replay { u with twin.failover := none, twin.trigger := none }) f.freeze
        else { u with twin.failover := none, twin.trigger := none }).redrive).swapLost := by
  have h : ¬ (f.stage < 2 ∨ u.clock.edge < d + if f.promoted then 258 else 2) := by omega
  simp only [State.unfreeze, hf, Failover.resumeAt, hd, Option.map_some, if_neg h]

end

/-- The answers held during the freeze take effect in their order. -/
theorem State.resume_answers (h : u.unfreeze = v) (hv : v.frozen = false) :
    u.resume = v.twin.answers.foldl (fun (w : State) i => w.applyAnswer i) { v with twin.answers := [] } := by
  simp [State.resume, h, hv]

end Sys2Proof.Machine
end

section
open Sys2Proof Sys2Proof.Machine

/-- Settles O54: silence, then the freeze, the self-checks and their deadline, then the resume edge. -/
theorem triggersFreezeDecideAndResume : Obligations.TriggersFreezeDecideAndResume := by
  refine ⟨fun s u dt hu => ⟨fun quiet hr hf hfault => ?_, fun t hr ht => ⟨fun hp hc he hcores => ?_, fun h => ?_⟩,
      fun f b found healthy v hr hf hd hh => ?_⟩, fun s u dt f d hu hr hf hd => ?_⟩
  · have lead {t : State} (ht : u.leadSilent quiet = t) : exec (.leadSilent ⟨dt, quiet⟩) s = .next (s.left t) :=
      State.readyBy_eq (f := fun s => s.leadSilent quiet) hu hr ht
    have mirror {t : State} (ht : u.mirrorSilent quiet = t) : exec (.mirrorSilent ⟨dt, quiet⟩) s = .next (s.left t) :=
      State.readyBy_eq (f := fun s => s.mirrorSilent quiet) hu hr ht
    refine ⟨fun hq => ?_, fun hq => ⟨lead (State.leadSilent_brief hq), mirror (State.mirrorSilent_brief hq)⟩⟩
    have hlead := State.leadSilent_triggers hr hf hq
    refine ⟨fun ht => lead ?_, fun t ht he => lead ?_, fun t ht he => lead ?_, fun hp ht => mirror ?_,
      fun hp hrep => mirror (State.mirrorSilent_unpaired hp hrep)⟩
    · rw [hlead, State.trigger_first hf hfault ht]
      rfl
    · rw [hlead, State.trigger_sameEdge hf hfault ht he]
      simp
    · rw [hlead, State.trigger_later hf hfault ht he]
    · rw [State.mirrorSilent_triggers hr hf hq hp, State.trigger_first hf hfault ht]
      rfl
  · have hfreeze : exec (.failoverFreeze dt) s = .next (s.left u.freeze) := State.plane_eq hu hr rfl
    rw [State.freeze_freezes hr ht hp hc he] at hfreeze
    refine ⟨_, hfreeze, rfl, rfl, ?_⟩
    have hreport := State.asked_report u t
    have hwell := State.asked_well u t
    obtain ⟨a, b, hasked⟩ := State.asked_twin u t
    rw [hasked] at hreport hwell ⊢
    obtain ⟨c, hlow, hc⟩ := State.linesLow_cores (s := { u with twin.wellA := a, twin.wellB := b }) hcores
    rw [hlow]
    exact ⟨hreport, hwell, hc, rfl, rfl⟩
  · exact State.plane_eq hu hr (State.freeze_none ht h)
  · have report {t : State} (ht : u.selfReport b found = t) : exec (.selfCheckReport dt b found) s = .next (s.left t) :=
      State.readyBy_eq (f := fun s => s.selfReport b found) hu hr ht
    refine ⟨fun hrep hlo hhi hv => ?_, fun h => report (State.selfReport_none hf h),
      fun h => State.readyBy_eq hu hr (State.selfDeadline_late hf hd h),
      fun h => State.readyBy_eq hu hr (State.selfDeadline_early hf h)⟩
    have hreports : u.selfReport b found = u.reports b healthy :=
      (State.selfReport_reports hf hd hrep hlo hhi).trans (congrArg (u.reports b) hh)
    exact ⟨fun h => report ((hreports.trans (State.reports_first h)).trans hv),
      fun h => report (hreports.trans (State.reports_second hv hf h))⟩
  · refine ⟨fun h => State.readyBy_eq hu hr (State.resume_early hf hd h), fun hs he p v hkept hpromoted hv hrun => ?_⟩
    refine State.readyBy_eq hu hr (State.resume_answers (v := v) ?_ hrun)
    rw [State.unfreeze_ends hf hd hs he, ← hv]
    cases hprom : f.promoted with
    | false => rw [← hkept hprom]; rfl
    | true => rw [← hpromoted hprom]; rfl
end

section
/-! SUPPORT. REPAIR and TWIN_SWAP as they are taken (R304, R370, R378). -/

namespace Sys2Proof.Machine
variable {u v : State} {r : Run} {good : Bool}

theorem State.cmdRepair_fresh (h : u.runOf 0xA1 .fresh = some r) : u.cmdRepair good = u.repairStart r good := by
  simp only [State.cmdRepair, h]

/-! ### The checks of REPAIR -/

theorem State.repairStart_range
    (h : 2 ^ 48 ≤ r.cmd.field 0 8 ∨ r.cmd.field 0 8 % 64 ≠ 0 ∨ r.cmd.field 8 4 < 16640) :
    u.repairStart r good = u.endZero stRange := by
  unfold State.repairStart
  refine if_pos ?_
  rcases h with h | h | h
  · simp only [decide_eq_true h, Bool.true_or]
  · simp only [decide_eq_true h, Bool.true_or, Bool.or_true]
  · simp only [decide_eq_true h, Bool.true_or, Bool.or_true]

section
variable (hlo : r.cmd.field 0 8 < 2 ^ 48) (hal : r.cmd.field 0 8 % 64 = 0) (hsz : 16640 ≤ r.cmd.field 8 4)
  (hperm : u.permitted 0 (r.cmd.field 0 8) (r.cmd.field 8 4) false = true)
include hlo hal hsz hperm

/-- A staging range that is aligned, long enough and in permitted memory passes the first check. -/
theorem State.repairRange_passes :
    (decide (2 ^ 48 ≤ r.cmd.field 0 8) || decide (r.cmd.field 0 8 % 64 ≠ 0) || decide (r.cmd.field 8 4 < 16640) ||
      !u.permitted 0 (r.cmd.field 0 8) (r.cmd.field 8 4) false) = false := by
  simp only [decide_eq_false (Nat.not_le.mpr hlo), hal, decide_eq_false (Nat.not_lt.mpr hsz), hperm]
  rfl

theorem State.repairStart_paired (hp : u.paired = true) : u.repairStart r good = u.endZero stOk := by
  simp only [State.repairStart, State.repairRange_passes hlo hal hsz hperm, hp]
  rfl

theorem State.repairStart_busy (hp : u.paired = false) (h : u.twin.failover.isSome = true ∨ u.twin.swapPend.isSome = true) :
    u.repairStart r good = u.endZero stBusy := by
  have hbusy : (u.twin.failover.isSome || u.twin.swapPend.isSome || u.scrubGroupTaken) = true := by
    rcases h with h | h <;> simp [h]
  simp only [State.repairStart, State.repairRange_passes hlo hal hsz hperm, hp, hbusy]
  rfl

section
variable (hp : u.paired = false) (hf : u.twin.failover = none) (hswap : u.twin.swapPend = none)
  (hscrub : u.scrubGroupTaken = false) (hrep : u.twin.repair = none) (he : u.enterGroup r.cmd = some u)
include hp hf hswap hscrub hrep he

/-- Without power good the joining well cannot start. -/
theorem State.repairStart_unpowered :
    u.repairStart r false = (u.modWell (!u.twin.leadB) fun w => { w with power := false }).endZero stAborted := by
  simp only [State.repairStart, State.repairRange_passes hlo hal hsz hperm]
  simp [hp, hf, hswap, hscrub, he, hrep]

theorem State.repairStart_starts
    (hv : u.modWell (!u.twin.leadB)
      (fun w => { w with power := true, held := false, step := 1, stepAt := u.clock.edge, failed := 0 }) = v) :
    u.repairStart r true =
      State.setRun (State.startAttempt { v with twin.pair := .repairing, twin.retries := 0 } 1 (r.cmd.field 8 4 / 4160)
        (r.cmd.field 0 8)) { r with phase := .waiting } := by
  subst hv
  simp only [State.repairStart, State.repairRange_passes hlo hal hsz hperm]
  simp [hp, hf, hswap, hscrub, he, hrep, State.modWell_modWell]

end

end

/-! ### TWIN_SWAP (R378) -/

section
variable (h : u.runOf 0xA2 .fresh = some r)
include h

theorem State.cmdSwap_unpaired (hp : u.paired = false) : u.cmdSwap = u.endZero stNotLead := by
  simp [State.cmdSwap, h, State.mirrorOk, hp]

variable (hr : u.running = true) (hp : u.paired = true)
include hr hp

theorem State.cmdSwap_paired :
    u.cmdSwap =
      if u.twin.failover.isSome || u.twin.trigger.isSome || u.twin.repair.isSome || u.twin.swapPend.isSome then u.endZero stBusy
      else { u with twin.swapPend := some r.cmd.host, keeper.run := some { r with phase := .waiting } } := by
  simp only [State.cmdSwap, h, State.mirrorOk, State.ready_of_running hr, hp]
  rfl

end

end Sys2Proof.Machine
end

section
open Sys2Proof Sys2Proof.Machine

/-- Settles O55: REPAIR by its first failing check and by the power of the joining well, then TWIN_SWAP by the pairing. -/
theorem repairAndSwapStart : Obligations.RepairAndSwapStart := by
  intro s u dt r hu hr
  refine ⟨fun h base size hbase hsize good => ?_, fun h => ?_⟩
  · subst hbase hsize
    have repair {g : Bool} {t : State} (ht : u.repairStart r g = t) : exec (.repair ⟨dt, g⟩) s = .next (s.left t) :=
      State.keeperBy_eq (f := fun s => s.cmdRepair g) hu hr ((State.cmdRepair_fresh h).trans ht)
    refine ⟨fun hbad => repair (State.repairStart_range hbad), fun hlo hal hsz hperm =>
      ⟨fun hp => repair (State.repairStart_paired hlo hal hsz hperm hp),
        fun hp hb => repair (State.repairStart_busy hlo hal hsz hperm hp hb), fun v hp hf hswap hscrub hrep hfree => ?_⟩⟩
    have he := State.enterGroup_free (State.runOf_group h) hfree nofun
    refine ⟨fun hgood hv => ?_, fun hgood hv => ?_⟩
    · subst hgood hv
      exact repair (State.repairStart_unpowered hlo hal hsz hperm hp hf hswap hscrub hrep he)
    · subst hgood
      exact repair (State.repairStart_starts hlo hal hsz hperm hp hf hswap hscrub hrep he hv)
  · have swap {t : State} (ht : u.cmdSwap = t) : exec (.twinSwap dt) s = .next (s.left t) := State.keeperBy_eq hu hr ht
    refine ⟨fun hp => swap (State.cmdSwap_unpaired h hp), fun hp => ⟨fun hb => swap ?_, fun hf ht hrep hswap => swap ?_⟩⟩
    · rw [State.cmdSwap_paired h hr hp, if_pos (by simpa [or_assoc] using hb)]
    · rw [State.cmdSwap_paired h hr hp, if_neg (by simp [hf, ht, hrep, hswap])]
end

section
/-! SUPPORT. The image commands as they are taken, and the length of an image (R312, R416 to R418). -/

namespace Sys2Proof.Machine
variable {u : State} {r : Run} {restore : Bool}

theorem length_flatten_map_le {α : Type} (f : Nat → List α) (l : List Nat) {k : Nat} (h : ∀ i, (f i).length ≤ k) :
    (l.map f).flatten.length ≤ l.length * k := by
  induction l with
  | nil => simp
  | cons i l ih =>
    simp only [List.map_cons, List.flatten_cons, List.length_append, List.length_cons, Nat.succ_mul]
    have := h i
    omega

theorem regOffsets_length : regOffsets.length = 760 := by simp [regOffsets]

/-- The carried registers lie in 38 frames, some of the offsets of each. -/
theorem imageRegs_length : imageRegs.length ≤ 38 * 760 := by
  rw [imageRegs, ← regOffsets_length]
  refine (length_flatten_map_le _ _ fun i => ?_).trans (by rw [List.length_range])
  rw [List.length_map]
  exact List.length_filter_le ..

/-- An image of every section is shorter than the longest image. -/
theorem saveLen_fits : saveLen ≤ imageMost := by
  have hpairs : registerPairs ≤ 38 * 760 + 64 + 38 := Nat.add_le_add_right (Nat.add_le_add_right imageRegs_length 64) 38
  have hmost : imageMost = 4194304 := rfl
  unfold saveLen sectionLen
  generalize registerPairs = n at hpairs ⊢
  simp [List.range_succ]
  omega

/-- An image command by its rows. -/
theorem exec_image (restore : Bool) (dt : Nat) (s : State) :
    exec (if restore then .imageRestore dt else .imageSave dt) s =
      s.keeperBy dt fun s => if restore then s.cmdImageRestore else s.cmdImageSave := by
  cases restore <;> rfl

theorem State.cmdImage_fresh (h : u.runOf (if restore then 0x51 else 0x50) .fresh = some r) :
    (if restore then u.cmdImageRestore else u.cmdImageSave) = u.imageStart restore r := by
  cases restore with
  | false =>
    have hsave : u.runOf 0x50 .fresh = some r := h
    simp [State.cmdImageSave, hsave]
  | true =>
    have hrestore : u.runOf 0x51 .fresh = some r := h
    simp [State.cmdImageRestore, hrestore]

theorem State.imageStart_range (h : r.cmd.badSlots = true ∨ u.slotsOutside r.cmd = true) :
    u.imageStart restore r = u.imageRefuse restore stRange := by
  unfold State.imageStart
  exact if_pos (by simpa using h)

/-- The first access of an image command is the header of its first slot. -/
theorem State.imageAsk_first (c : Cmd) (h : u.imageOut = false) :
    u.imageAsk c (Image.start restore) =
      State.request { u with startup.image := some { Image.start restore with asked := true } }
        { kind := .image false 0, addr := c.slotAddr 0, host := 0, line := true, bytes := [] } := by
  simp [State.imageAsk, h, State.setImage, State.imageReq, Image.start]

section
variable (hs : r.cmd.badSlots = false) (ho : u.slotsOutside r.cmd = false)
include hs ho

theorem State.imageStart_repair (h : u.twin.repair.isSome = true) :
    u.imageStart restore r = u.imageRefuse restore stBusy := by
  simp [State.imageStart, hs, ho, h]

variable (hrep : u.twin.repair = none) (he : u.enterGroup r.cmd = some u) (hi : u.startup.image = none)
include hrep he hi

/-- With no image under way the length of a save is the last check. -/
theorem State.imageStart_enters :
    u.imageStart restore r =
      if restore = false ∧ r.cmd.slotSize < saveLen then u.imageRefuse restore stLength
      else (u.setRun { r with phase := .waiting }).imageAsk r.cmd (Image.start restore) := by
  have hmost : (r.cmd.slotSize < saveLen ∨ imageMost < saveLen) ↔ r.cmd.slotSize < saveLen :=
    or_iff_left (Nat.not_lt.mpr saveLen_fits)
  simp [State.imageStart, hs, ho, hrep, he, hi, hmost]

end

end Sys2Proof.Machine
end

section
open Sys2Proof Sys2Proof.Machine

/-- Settles O47: an image command by its first failing check, then its first access. -/
theorem imageCommandsCheckTheirSlots : Obligations.ImageCommandsCheckTheirSlots := by
  intro s u dt r restore x hu hr hx h
  have image {t : State} (ht : u.imageStart restore r = t) : exec x s = .next (s.left t) := by
    rw [hx, exec_image]
    exact State.keeperBy_eq hu hr ((State.cmdImage_fresh h).trans ht)
  refine ⟨fun hbad => image (State.imageStart_range hbad), fun hs ho =>
    ⟨fun hrep => image (State.imageStart_repair hs ho hrep), fun hrep hfree hi hout => ?_⟩⟩
  have hgroup : opGroup r.cmd.opcode.toNat = some 2 := (State.runOf_group h).trans (by cases restore <;> rfl)
  have henters := State.imageStart_enters (restore := restore) hs ho hrep (State.enterGroup_free hgroup hfree nofun) hi
  refine ⟨fun hsave hsmall => image ?_, fun hfits => image ?_⟩
  · rw [henters, if_pos ⟨hsave, hsmall⟩]
    rfl
  · have hlong : ¬ (restore = false ∧ r.cmd.slotSize < saveLen) := by
      rintro ⟨rfl, hsmall⟩
      exact (hfits.resolve_left nofun).not_gt hsmall
    rw [henters, if_neg hlong]
    exact State.imageAsk_first r.cmd hout
end

section
/-! SUPPORT. The phases of a re-pair attempt (R371 to R377). -/

namespace Sys2Proof.Machine
variable {u v w : State} {r : Repair}

/-! ### The digest, the refill and the loss of power (R371, R375, R377) -/

section
variable (hr : u.running = true) (h : u.twin.repair = some r)
include h

section
variable (hph : r.phase = 1) (hstep : 10 ≤ u.mirror.step)
include hr hph hstep

theorem State.digestMatch_differs : u.digestMatch false = u.failRepair 3 stAborted := by
  simp [State.digestMatch, h, hr, hph, Nat.not_lt.mpr hstep]

/-- A well that has been heard: its record is as that of a frame just taken. -/
def State.heardWell (u : State) (w : Well) : Well :=
  { w with frameAt := u.clock.edge, hbLost := false, sigK := u.lead.sigK, frameIn := true }

theorem State.digestMatch_agrees (hv : (u.modWell false u.heardWell).modWell true u.heardWell = v) :
    u.digestMatch true =
      { v with twin.pair := .untrusted, twin.untrusted := true, twin.repair := some { r with phase := 2, started := u.clock.edge } } := by
  subst hv
  have hguard : (!u.running || decide (r.phase ≠ 1) || decide (u.mirror.step < 10)) = false := by simp [hr, hph, hstep]
  simp only [State.digestMatch, h, hguard]
  rfl

end

variable {t : Nat} (ht : r.refillAt = some t)
include ht

include hr in
theorem State.refillDone_due (hd : t ≤ u.clock.edge) : u.refillDone = u.startAttempt 2 r.slots r.base := by
  simp [State.refillDone, h, ht, hr, hd]

theorem State.refillDone_early (hd : u.clock.edge < t) : u.refillDone = u := by
  simp [State.refillDone, h, ht, Nat.not_le.mpr hd]

end

/-- The loss of the joining well's power ends its attempt, that of the lead's does not. -/
theorem State.powerFall_other {b : Bool} (hc : u.startup.inReset = false) (hp : (u.well (!b)).power = true)
    (h : u.twin.repair = some r) :
    u.powerFall b =
      if b = u.twin.leadB then u.modWell b fun w => { w with power := false }
      else (u.modWell b fun w => { w with power := false }).failRepair 9 stAborted := by
  by_cases hb : b = u.twin.leadB
  · subst hb
    simp [State.powerFall, State.powerGone, hc, hp]
  · simp [State.powerFall, State.powerGone, hc, hp, h, hb]

/-! ### Chunks (R372, R373, R375) -/

section
variable (h : u.twin.repair = some r)
include h

section
variable {l : Lock} (hl : u.markedLock = some l) (hb : u.stageBank = some (l.memory, l.bank))
include hl hb

theorem State.chunkStage_stages (hr : u.running = true) (hv : u.unlock l.memory l.bank = v) (hlo : l.grant < u.clock.dp)
    (hhi : u.clock.dp < l.grant + 64) :
    u.chunkStage =
      { v with
        pump.staging := v.pump.staging ++
          (List.range 65).map fun i => stagingReq r r.staged i true (v.chunkSlot r.key r.repairId.toNat r.staged)
        twin.repair := some { r with staged := r.staged + 1 } } := by
  subst hv
  simp [State.chunkStage, h, hr, hl, hb, hlo, hhi, State.setRepair, Option.filter_some]

theorem State.chunkStage_outside (ho : u.clock.dp ≤ l.grant ∨ l.grant + 64 ≤ u.clock.dp) : u.chunkStage = u := by
  rcases ho with ho | ho <;> simp [State.chunkStage, h, hl, hb, Option.filter_some, Nat.not_lt.mpr ho]

end

theorem State.chunkStage_unbanked (hb : u.markedLock = none ∨ u.stageBank = none) : u.chunkStage = u := by
  rcases hb with hb | hb <;> simp [State.chunkStage, h, hb]

theorem State.chunkOpen_none (hn : r.slot r.opened = none ∨ r.phase ≠ 3) : u.chunkOpen = u := by
  simp only [State.chunkOpen, h]
  split
  · rfl
  · next hslot =>
    have hph : r.phase ≠ 3 := hn.resolve_left (by simp [hslot])
    simp [hph]

end

/-- Writing a chunk's pages changes the joining well alone. -/
theorem State.chunkPoison_frame (u : State) (r : Repair) (slot : List Byte) :
    ∃ a b, u.chunkPoison r slot = { u with twin.wellA := a, twin.wellB := b } := by
  unfold State.chunkPoison
  refine List.foldlRecOn (motive := fun t : State => ∃ a b, t = { u with twin.wellA := a, twin.wellB := b }) _ _ ⟨_, _, rfl⟩
    fun t ht e _ => ?_
  obtain ⟨a, b, rfl⟩ := ht
  dsimp only
  split
  · exact ⟨_, _, rfl⟩
  · cases u.twin.leadB
    · exact ⟨_, _, rfl⟩
    · exact ⟨_, _, rfl⟩

section
variable {slot : List Byte} (hr : u.running = true) (h : u.twin.repair = some r) (hph : r.phase = 3)
  (ho : r.opened < r.staged) (hbusy : u.stagingBusy r.opened = false) (hslot : r.slot r.opened = some slot)
  (hw : u.chunkPoison r slot = w)
include hr h hph ho hbusy hslot hw

theorem State.chunkOpen_tried :
    u.chunkOpen =
      if u.slotOpens r r.opened slot then
        w.setRepair ({ r with opened := r.opened + 1, back := r.back.filter fun e => decide (e.1 ≠ r.opened) } : Repair).streamed
      else w.tagFailed r := by
  subst hw
  cases hopens : u.slotOpens r r.opened slot <;>
    simp [State.chunkOpen, h, hr, hph, hslot, hbusy, hopens, Nat.not_le.mpr ho]

theorem State.chunkOpen_opens (hopens : u.slotOpens r r.opened slot = true) :
    u.chunkOpen =
      { w with twin.repair := some { r with opened := r.opened + 1, back := r.back.filter fun e => decide (e.1 ≠ r.opened),
                                            phase := if r.opened + 1 = 670 ∧ r.flying = [] then 4 else 3 } } := by
  rw [State.chunkOpen_tried hr h hph ho hbusy hslot hw, if_pos hopens]
  have hlast : (r.phase = 3 ∧ r.opened + 1 = chunkCount ∧ r.flying.isEmpty = true) ↔ r.opened + 1 = 670 ∧ r.flying = [] := by
    simp [hph, chunkCount]
  simp only [State.setRepair, Repair.streamed, hlast]
  split
  · rfl
  · simp only [hph]

end

/-- A chunk that does not open ends the attempt, or after a refill starts it again, by the retries made. -/
theorem State.tagFailed_last (h : 3 ≤ u.twin.retries) (hv : { u.count fTwin 12 with twin.failCause := 1 } = v) :
    u.tagFailed r = v.failRepair 1 stAuthFail := by
  subst hv
  simp [State.tagFailed, h]

theorem State.tagFailed_retries (h : u.twin.retries < 3)
    (hv : State.dropStaging { u.count fTwin 12 with twin.failCause := 1 } = v) :
    u.tagFailed r =
      { v with twin.retries := v.twin.retries + 1,
               twin.repair := some { r with phase := 2, key := [], staged := 0, opened := 0, fwd := [], flying := [], back := [],
                                            refillAt := some (v.clock.edge + 12288) } } := by
  subst hv
  simp [State.tagFailed, Nat.not_le.mpr h, State.setRepair]

/-! ### FORWARDED_WRITE (R373) -/

section
variable {store page k : Nat} (h : u.twin.repair = some r) (hk : pageKey store page = k)
include h hk

theorem State.forwarded_none (hn : ∀ e ∈ r.flying, e.1 ≠ k ∨ u.clock.edge < e.2.1) : u.forwarded store page = u := by
  subst hk
  have hfind : (r.flying.find? fun e => decide (e.1 = pageKey store page) && decide (e.2.1 ≤ u.clock.edge)) = none := by
    refine List.find?_eq_none.mpr fun e he => ?_
    rcases hn e he with hne | hlate
    · simp [hne]
    · simp [hlate]
  simp only [State.forwarded, h, hfind]

theorem State.forwarded_lands {e : Nat × Nat × Bool} (hr : u.running = true) (hph : r.phase = 3 ∨ r.phase = 4)
    (he : (r.flying.find? fun e => decide (e.1 = k) && decide (e.2.1 ≤ u.clock.edge)) = some e)
    (hv : u.modWell (!u.twin.leadB) (fun w => { w with poison := ins false w.poison k e.2.2 }) = v) :
    u.forwarded store page =
      { v.count fTwin 15 with
        twin.repair := some ({ r with fwd := ins false r.fwd k true, flying := r.flying.erase e } : Repair).streamed } := by
  subst hk hv
  have hguard : (!u.running || decide (r.phase ≠ 3 ∧ r.phase ≠ 4)) = false := by
    rcases hph with hph | hph <;> simp [hr, hph]
  simp only [State.forwarded, h, he, hguard]
  rfl

end

/-! ### REPAIR_JOIN (R376) -/

theorem State.join_none (h : u.twin.repair = some r) (hn : r.phase ≠ 4 ∨ u.clock.edge % 256 ≠ 0) : u.join = u := by
  rcases hn with hn | hn <;> simp [State.join, h, hn]

/-- A well whose signature chain restarts at a checkpoint edge. -/
def State.restarted (u : State) (w : Well) : Well :=
  { w with sig := 0xFFFFFFFFFFFFFFFF#64, sigK := u.clock.edge / 256, frameAt := u.clock.edge, hbLost := false, frameIn := true,
           resend := false }

/-- The joining well with the poison of the lead. -/
def State.joined (u : State) (w : Well) : Well :=
  { w with poison := u.lead.poison, uncorrLast := u.lead.uncorrLast, invertNext := false, mutedUntil := 0 }

/-- The wells as a join leaves them. -/
def State.joinWells (u : State) : State :=
  ((u.modWell false u.restarted).modWell true u.restarted).modWell (!u.twin.leadB) u.joined

theorem State.joinWells_well (u : State) (b : Bool) :
    (u.joinWells.well b).sig = 0xFFFFFFFFFFFFFFFF#64 ∧ (u.joinWells.well b).sigK = u.clock.edge / 256 ∧
      (u.joinWells.well b).poison = u.lead.poison := by
  have hwells (c : Bool) : ((u.modWell false u.restarted).modWell true u.restarted).well c = u.restarted (u.well c) := by
    cases c <;> rfl
  unfold State.joinWells
  by_cases hb : b = u.twin.leadB
  · have hlead : b = !(!u.twin.leadB) := by simpa using hb
    rw [hlead, State.well_modWell_other, hwells, Bool.not_not]
    exact ⟨rfl, rfl, rfl⟩
  · rw [Bool.eq_not_of_ne hb, State.well_modWell_same, hwells]
    exact ⟨rfl, rfl, rfl⟩

theorem State.join_joins (hr : u.running = true) (h : u.twin.repair = some r) (hph : r.phase = 4) (he : u.clock.edge % 256 = 0) :
    u.join =
      { u.joinWells.modIslands fun i => { i with z := u.levels.islandA.z ||| u.levels.islandB.z } with
        twin.comparedK := u.clock.edge / 256
        twin.repair := some { r with phase := 5, fwd := [], flying := [], back := [] } } := by
  have hguard : (!u.running || decide (r.phase ≠ 4) || decide (u.clock.edge % 256 ≠ 0)) = false := by simp [hr, hph, he]
  have hlevels : u.joinWells.levels = u.levels := by simp [State.joinWells]
  rw [← hlevels]
  simp only [State.join, h, hguard, State.modWell_leadB]
  rfl

end Sys2Proof.Machine
end

section
open Sys2Proof Sys2Proof.Machine

/-- Settles O56: the attempt by its phases, each chunk by whether it opens and by the retries made. -/
theorem repairAttemptsFollowTheirPhases : Obligations.RepairAttemptsFollowTheirPhases := by
  intro s u dt r hu hr h
  have stage {t : State} (ht : u.chunkStage = t) : exec (.repairChunkStage dt) s = .next (s.left t) := State.plane_eq hu hr ht
  have opens {t : State} (ht : u.chunkOpen = t) : exec (.repairChunkOpen dt (!u.twin.leadB)) s = .next (s.left t) :=
    State.plane_eq (f := fun s => if (!u.twin.leadB) = s.twin.leadB then s else s.chunkOpen) hu hr
      ((if_neg (by simp)).trans ht)
  have lands {store : BitVec 3} {index : BitVec 16} {t : State} (ht : u.forwarded store.toNat index.toNat = t) :
      exec (.forwardedWrite dt store index) s = .next (s.left t) :=
    State.plane_eq (f := fun s => s.forwarded store.toNat index.toNat) hu hr ht
  have falls {b : Bool} {t : State} (hc : u.startup.inReset = false) (ht : u.powerFall b = t) :
      exec (.pwrGoodFall dt b) s = .next (s.left t) := by
    subst hu ht
    exact State.clockedBy_on (f := fun s => s.powerFall b) hc
  refine ⟨fun hph hstep v hv => ⟨?_, ?_⟩,
    fun l v hl hb hv => ⟨fun hlo hhi => stage (State.chunkStage_stages h hl hb hr hv hlo hhi),
      fun ho => stage (State.chunkStage_outside h hl hb ho)⟩,
    fun hb => stage (State.chunkStage_unbanked h hb), fun slot hph ho hbusy hslot w hw => ?_,
    fun hn => opens (State.chunkOpen_none h hn), ?_,
    fun t ht => ⟨fun hd => State.plane_eq hu hr (State.refillDone_due hr h ht hd),
      fun hd => State.plane_eq hu hr (State.refillDone_early h ht hd)⟩,
    fun store index k hk => ⟨fun e v hph he hv => lands (State.forwarded_lands h hk hr hph he hv),
      fun hn => lands (State.forwarded_none h hk hn)⟩,
    fun hph he => ⟨_, State.plane_eq hu hr (State.join_joins hr h hph he), rfl, State.joinWells_well u, rfl, rfl, rfl⟩,
    fun hn => State.plane_eq hu hr (State.join_none h hn), fun b hc hp => ⟨fun hb => falls hc ?_, fun hb => falls hc ?_⟩⟩
  · exact State.plane_eq (f := fun s => s.digestMatch true) hu hr (State.digestMatch_agrees hr h hph hstep hv)
  · exact State.plane_eq (f := fun s => s.digestMatch false) hu hr (State.digestMatch_differs hr h hph hstep)
  · refine ⟨fun hopens => opens (State.chunkOpen_opens hr h hph ho hbusy hslot hw hopens), ?_⟩
    have htried := State.chunkOpen_tried hr h hph ho hbusy hslot hw
    have hretries : w.twin.retries = u.twin.retries := by
      obtain ⟨a, b, hframe⟩ := State.chunkPoison_frame u r slot
      rw [← hw, hframe]
    refine ⟨fun hbad hlast v hv => opens ?_, fun hbad hagain v hv => opens ?_⟩
    · rw [htried, if_neg (by simp [hbad]), State.tagFailed_last (hretries ▸ hlast) hv]
    · rw [htried, if_neg (by simp [hbad]), State.tagFailed_retries (hretries ▸ hagain) hv]
  · exact State.plane_eq (f := fun s => if u.twin.leadB = s.twin.leadB then s else s.chunkOpen) hu hr (if_pos rfl)
  · rw [State.powerFall_other hc hp h, if_neg (by simp [hb])]
  · rw [State.powerFall_other hc hp h, if_pos hb]
end

section
/-! SUPPORT. Where the block stands: what the filling of the stores, the sets and the sweep leave of the edge, of READY and of the
wells' roles (R19, R21, R409). -/

namespace Sys2Proof.Machine

/-- The edge, the edge of READY, READY itself and the roles of the wells. -/
structure Standing where
  edge : Nat
  readyEdge : Nat
  ready : Bool
  leadB : Bool
  pair : PairState

def State.standing (s : State) : Standing :=
  { edge := s.clock.edge, readyEdge := s.clock.readyEdge, ready := s.startup.ready, leadB := s.twin.leadB, pair := s.twin.pair }

def State.standsAs (s : State) (x : Standing) : Prop := s.standing = x

variable {s t : State} {x : Standing}

/-- An update of other fields. -/
theorem State.standsAs.keep (h : s.standsAs x) (ht : t.standing = s.standing) : t.standsAs x := ht.trans h

theorem State.standsAs.ite {c : Prop} [Decidable c] (h : s.standsAs x) (h' : t.standsAs x) : (if c then s else t).standsAs x := by
  split
  · exact h
  · exact h'

theorem State.standsAs.foldl {α : Type} {f : State → α → State} (hf : ∀ s a, State.standsAs s x → (f s a).standsAs x)
    {l : List α} (h : s.standsAs x) : (l.foldl f s).standsAs x :=
  List.foldlRecOn (motive := fun s : State => s.standsAs x) l f h fun s hs a _ => hf s a hs

section
variable (h : s.standsAs x)
include h

theorem State.standsAs.countBy {f i k : Nat} : (s.countBy f i k).standsAs x :=
  h.keep (by simp [State.standing])

theorem State.standsAs.count {f i : Nat} : (s.count f i).standsAs x := h.countBy

theorem State.standsAs.event {f i fev : Nat} : (s.event f i fev).standsAs x := h.count.keep (by rfl)

theorem State.standsAs.modWell {b : Bool} {f : Well → Well} : (s.modWell b f).standsAs x :=
  h.keep (by simp [State.standing])

/-! ### Pages (R386 to R391) -/

theorem State.standsAs.trigger {c : Nat} : (s.trigger c).standsAs x := by
  unfold State.trigger
  repeat' split
  all_goals exact h.keep (by rfl)

theorem State.standsAs.wroteWhole {m p : Nat} : (s.wroteWhole m p).standsAs x := by
  rw [State.wroteWhole_eq]
  exact h.keep (by rfl)

theorem State.standsAs.unpoison {m p : Nat} : (s.unpoison m p).standsAs x := h.modWell.modWell.wroteWhole

theorem State.standsAs.keepErrs {b : Bool} {m p : Nat} {v : Verdict} : (s.keepErrs b m p v).standsAs x := by
  unfold State.keepErrs
  split
  · exact h.modWell
  · exact h

theorem State.standsAs.countErr {m p : Nat} {b heavy lost : Bool} : (s.countErr m p b heavy lost).standsAs x := by
  have counted : (if heavy then (s.count fIntegrity 3).event fIntegrity 4 152 else s.count fIntegrity 3).standsAs x :=
    .ite h.count.event h.count
  exact .ite counted (counted.keep (by rfl))

theorem State.standsAs.countPoison {b : Bool} : (s.countPoison b).standsAs x := h.event.count

theorem State.standsAs.tallyErr {m p : Nat} {b : Bool} {v : Verdict × Verdict} : (s.tallyErr m p b v).standsAs x :=
  .keepErrs (.keepErrs (.ite h.countErr h))

theorem State.standsAs.poisonWells {m p q : Nat} {v : Verdict × Verdict} : (s.poisonWells m p q v).standsAs x := by
  have lead : (if isUncorr v.1 then s.poisonIn s.twin.leadB m p q else s).standsAs x := .ite h.modWell h
  exact .ite lead.modWell lead

theorem State.standsAs.takeUncorr {m p q : Nat} {b : Bool} {v : Verdict × Verdict} : (s.takeUncorr m p q b v).standsAs x := by
  have triggered {t : State} (ht : t.standsAs x) : (t.uncorrTrigger v).standsAs x := .ite ht.trigger (.ite ht.trigger ht)
  have rebuilt {t : State} (ht : t.standsAs x) (lost : Bool) : (t.askRebuild m p lost).standsAs x := .ite (ht.keep (by rfl)) ht
  exact rebuilt (triggered (.ite h.poisonWells.countPoison h.poisonWells)) _

theorem State.standsAs.readPage {m p q : Nat} {b : Bool} {r : PageRead} : (s.readPage m p q b r).2.standsAs x := by
  unfold State.readPage
  split
  · exact h.count
  · dsimp only
    split
    · exact h.tallyErr
    · exact h.tallyErr.takeUncorr

/-! ### Sets (R79, R216) -/

theorem State.standsAs.updateInt {key unit : Nat} : (s.updateInt key unit).standsAs x := by
  have asked {t : State} (ht : t.standsAs x) (m n c p : Nat) : ((t.askUnit m n c).wroteWhole m p).standsAs x :=
    State.standsAs.wroteWhole (s := t.askUnit m n c) (ht.keep (by rfl))
  exact .ite (.ite (h.keep (by rfl)) (asked h ..)) (.ite (h.keep (by rfl)) (asked h.readPage ..))

theorem State.standsAs.ftRead {key : Nat} : (s.ftRead key).standsAs x := by
  have voted (copy : Nat) : (s.voteFixed false copy 0 0 key).standsAs x := (h.event (f := fFast) (i := 7) (fev := 139)).keep (by rfl)
  unfold State.ftRead State.ftFix
  repeat' split
  · exact h
  · exact h
  · next copy _ => exact (voted copy).keep (by rfl)
  · exact h

theorem State.standsAs.pend {key : Nat} {o : Origin} : (s.pend key o).standsAs x := by
  have counted : (if (s.ftRead key).isFast key then (s.ftRead key).count fFast 3 else s.ftRead key).standsAs x :=
    .ite h.ftRead.count h.ftRead
  have written (y : IntState) :
      ((if (s.ftRead key).isFast key then (s.ftRead key).count fFast 3 else s.ftRead key).setInt key y).standsAs x := counted.keep (by rfl)
  exact .ite (written _).count (written _).updateInt

theorem State.standsAs.localOrDrop {c : Nat} {r : Rec} : (s.localOrDrop c r).standsAs x := .ite (h.keep (by rfl)) h.event

/-! ### The reservoir's slots (R187) and the pump's entries (R242) -/

theorem State.standsAs.recheck : s.recheck.standsAs x := by
  have withdrawnN {t : State} (ht : t.standsAs x) (n : Nat) : (t.withdrawN n).standsAs x := by
    unfold State.withdrawN
    split
    · exact ht
    · exact .ite ht (State.standsAs.count (ht.keep (by rfl)))
  have withdrawnF {t : State} (ht : t.standsAs x) (n : Nat) : (t.withdrawF n).standsAs x := by
    unfold State.withdrawF
    split
    · exact ht
    · exact .ite ht (State.standsAs.count (ht.keep (by rfl)))
  unfold State.recheck
  refine .foldl (fun t n ht => ?_) h
  have hn : (if t.stillN n then t else t.withdrawN n).standsAs x := .ite ht (withdrawnN ht n)
  exact .ite hn (withdrawnF hn n)

theorem State.standsAs.breakPage {p : Nat} : (s.breakPage p).standsAs x := by
  have broken {t : State} (ht : t.standsAs x) (c : Nat) : (t.breakCistern c 6 7 0).standsAs x := by
    unfold State.breakCistern
    split
    · exact ht
    · split
      · exact ht
      · have entered (y : Option Cached) : (t.setCached c y).standsAs x := ht.keep (by rfl)
        exact ((entered _).event (fev := 140)).keep (by rfl)
  exact .unpoison (.foldl (fun _ c ht => broken ht c) h)

/-! ### Register writes with effects of their own (R34, R253, R266, R268) -/

theorem State.standsAs.refilter {l : List Nat} : (s.refilter l).standsAs x :=
  .foldl (fun _ _ ht => .ite ht (ht.keep (by rfl))) h

theorem State.standsAs.pairEdge {n : Nat} : (s.pairEdge n).standsAs x := by
  have set {t : State} (ht : t.standsAs x) (p : Pair) (v : Bool) : ((t.setPair n p).setP n v).standsAs x := by
    unfold State.setP
    dsimp only
    exact .ite (ht.keep (by rfl)) (.ite (State.standsAs.count (ht.keep (by rfl))) (ht.keep (by rfl)))
  have short (d : Nat) : (s.discShort n d).standsAs x := (h.event (fev := 143)).keep (by rfl)
  unfold State.pairEdge
  exact .ite (set h ..) (.ite (set (.ite (short _) h) ..) (set h ..))

theorem State.standsAs.linesChanged {on low : Nat → Bool} : (s.linesChanged on low).standsAs x := by
  refine .foldl (fun t i ht => ?_) h
  extract_lets w turned w' up held
  have hturned : turned.standsAs x := .ite (ht.keep (by rfl)) ht
  exact .ite (.ite (State.standsAs.count (hturned.keep (by rfl))) (hturned.keep (by rfl))) hturned

theorem State.standsAs.trimsChanged {d lf vf : Nat} : (s.trimsChanged d lf vf).standsAs x := by
  unfold State.trimsChanged
  exact .foldl (fun _ _ ht => .ite ht.pairEdge ht) (.ite (.refilter (.ite h.refilter h)) (.ite h.refilter h))

theorem State.standsAs.storeReg {f o : Nat} {v : Word} : (s.storeReg f o v).standsAs x := by
  have written {f o : Nat} {v : Word} : (s.setReg f o v).standsAs x := h.keep (by rfl)
  have cleared : (s.setReg f o v).clearHosts.standsAs x :=
    State.standsAs.recheck (s := ((s.setReg f o v).setReg fRoute 0x40 0#32).setReg fRoute 0x44 0#32) (h.keep (by rfl))
  have consumed : (s.spillConsumed v).standsAs x := .ite (State.standsAs.count (h.keep (by rfl))) (h.keep (by rfl))
  exact .ite (.ite cleared written.recheck) (.ite (h.keep (by rfl)) (.ite (h.keep (by rfl)) (.ite consumed
    (.ite written.linesChanged (.ite written.trimsChanged written)))))

/-! ### The refill of the configuration and the vault routes (R409, R419) -/

theorem State.standsAs.fillStores : s.fillStores.standsAs x := by
  unfold State.fillStores
  extract_lets others keep wells _ routes _ emptied clear fast _ cleared epochs
  have hemptied : emptied.standsAs x := State.standsAs.keep (s := wells) h.modWell.modWell (by rfl)
  have hepochs : epochs.standsAs x := .foldl (fun _ _ ht => ht.keep (by rfl)) (hemptied.keep (by rfl))
  exact .foldl (fun _ _ ht => ht.keep (by rfl)) hepochs

theorem State.standsAs.resetRegs : s.resetRegs.standsAs x := by
  unfold State.resetRegs
  refine .foldl (fun _ _ ht => ?_) h
  split
  · exact .ite ht ht.storeReg
  · exact ht

theorem State.standsAs.refillConfig : s.refillConfig.standsAs x := by
  have cleared {t : State} (ht : t.standsAs x) : t.clearFastEn.standsAs x := ht.keep (by rfl)
  have emptied {t : State} (ht : t.standsAs x) : t.emptyCaches.standsAs x := by
    unfold State.emptyCaches
    extract_lets ports
    have hports : ports.standsAs x := .foldl (fun _ _ hp => hp.keep (by rfl)) ht
    exact hports.keep (by rfl)
  have swapped {t : State} (ht : t.standsAs x) : t.resetRulesets.standsAs x := ht.keep (by rfl)
  exact (swapped (emptied (cleared h.fillStores)).resetRegs).recheck

theorem State.standsAs.undoApply {i : Image} : (s.undoApply i).standsAs x := by
  have ended {t : State} (ht : t.standsAs x) :
      (let u := if i.filledOfficers then { t with keeper.officers := [] } else t
      { u with startup.image := none, startup.restoreJournal := false }).standsAs x := by
    dsimp only
    split
    · exact ht.keep (by rfl)
    · exact ht.keep (by rfl)
  exact ended (.refillConfig (h.keep (by rfl)))

theorem State.standsAs.loadVaults : s.loadVaults.standsAs x := by
  refine .foldl (fun t n ht => ?_) h
  unfold State.setVaultRoute
  exact .recheck (.ite (ht.keep (by rfl)) (ht.keep (by rfl)))

/-! ### The windows and the wires at READY (R179, R266) -/

theorem State.standsAs.boundary {kind : WindowKind} {waits : Nat → List Nat} : (s.boundary kind waits).standsAs x := by
  have arbs {t u : State} (ht : t.standsAs x) (hu : t.arbOnly u) : u.standsAs x := by
    obtain ⟨_, _, _, rfl⟩ := hu
    exact ht.keep (by rfl)
  unfold State.boundary
  refine arbs ?_ (.setWindow ..)
  split
  · exact arbs h ((State.arbOnly.count ..).trans (.foldl (fun _ _ => .modGroup ..) ..))
  · exact arbs h ((State.arbOnly.foldl (fun _ _ => .refillArb ..) ..).trans (.snapRefill ..))

theorem State.standsAs.startSampling : s.startSampling.standsAs x := .foldl (fun _ _ ht => ht.keep (by rfl)) h

/-! ### The sweep of a warm start-up (R391, R397) -/

theorem State.standsAs.sweptPage {m p : Nat} {r : PageRead} : (s.sweptPage m p r).standsAs x := by
  unfold State.sweptPage
  extract_lets _ _ _ _ _ _ _ _ _ _ counted inA inB
  have hcounted : counted.standsAs x := .ite h.countErr h
  have hinA : inA.standsAs x := .ite hcounted.modWell hcounted
  have hinB : inB.standsAs x := .ite hinA.modWell hinA
  exact .ite hinB.countPoison hinB

theorem State.standsAs.sweptPoison {key : Nat} : (s.sweptPoison key).standsAs x := by
  have inactive (p : Nat) : (s.sweepInactive p).standsAs x := .count (.unpoison (h.keep (by rfl)))
  unfold State.sweptPoison
  exact .ite h (.ite (inactive _) (.ite h.breakPage (.ite (h.keep (by rfl)) h)))

theorem State.standsAs.warmReads {found : List SweptPage} : (s.warmReads found).standsAs x := by
  unfold State.warmReads
  extract_lets named stored listed swept
  have hlisted : listed.standsAs x := .foldl (fun _ _ ht => ht.sweptPage) h
  have hswept : swept.standsAs x := .foldl (fun _ _ ht => ht.sweptPage) hlisted
  exact .foldl (fun _ _ ht => .foldl (fun _ _ ht => ht.sweptPage) ht) hswept

theorem State.standsAs.warmSweep {found : List SweptPage} : (s.warmSweep found).standsAs x := by
  have whole {t : State} (ht : t.standsAs x) : t.sweptWhole.standsAs x := .modWell (.modWell (ht.keep (by rfl)))
  unfold State.warmSweep
  exact .foldl (fun _ _ ht => ht.sweptPoison) (whole h.countBy.warmReads)

end

end Sys2Proof.Machine
end

section
/-! SUPPORT. READY: the wells' roles at the handshake, and where the block stands after it (R279, R379, R409). -/

namespace Sys2Proof.Machine
variable {u : State} {x : Standing} {agree : Bool}

/-- The roles at the handshake: the lead as the start-up gives it, and the pair as two wells that passed agree. -/
theorem State.pairUp_standing (u : State) (agree : Bool) :
    ∃ p, (u.pairUp agree).standsAs { u.standing with leadB := u.leadAtReady, pair := p } ∧
      (u.twin.wellA.passed = true → u.twin.wellB.passed = true → p = if agree then .paired else .divergent) := by
  unfold State.pairUp
  extract_lets l promoted both kept _ led _ paired held fresh wells _ compared
  have hpaired : ∃ p, paired.standsAs { u.standing with leadB := u.leadAtReady, pair := p } ∧
      (u.twin.wellA.passed = true → u.twin.wellB.passed = true → p = if agree then .paired else .divergent) := by
    by_cases hboth : both = true
    · have hp : paired = { led with twin.pair := if agree then .paired else .divergent } := if_pos hboth
      exact ⟨_, by rw [hp]; rfl, fun _ _ => rfl⟩
    · have hp : paired = if kept then led else { led with twin.pair := .absent } := if_neg hboth
      have hnot : u.twin.wellA.passed = true → u.twin.wellB.passed = true → False := fun ha hb =>
        hboth (Bool.and_eq_true_iff.mpr ⟨ha, hb⟩)
      rw [hp]
      split
      · exact ⟨_, rfl, fun ha hb => (hnot ha hb).elim⟩
      · exact ⟨_, rfl, fun ha hb => (hnot ha hb).elim⟩
  obtain ⟨p, hpaired, hp⟩ := hpaired
  clear_value paired
  have hheld : held.standsAs { u.standing with leadB := u.leadAtReady, pair := p } := .ite hpaired.modWell hpaired
  have hcompared : compared.standsAs { u.standing with leadB := u.leadAtReady, pair := p } :=
    State.standsAs.keep (s := wells) hheld.modWell.modWell (by rfl)
  exact ⟨p, .ite hcompared.count.count hcompared, hp⟩

/-- READY's edge is the edge at which the timers start. -/
theorem State.standsAs.startTimers (h : u.standsAs x) : u.startTimers.standsAs { x with readyEdge := x.edge } := by
  unfold State.startTimers
  extract_lets e go rt rg _ walkers _ _ started windows bounded
  have hstarted : started.standsAs x := h.keep (by rfl)
  clear_value started
  have hbounded : bounded.standsAs x := .foldl (fun _ _ ht => ht.boundary) (hstarted.keep (by rfl))
  clear_value bounded
  subst hbounded
  rfl

/-- An update that brings READY. -/
theorem State.standsAs.setReady {t : State} (h : u.standsAs x) (ht : t.standing = { u.standing with ready := true }) :
    t.standsAs { x with ready := true } := by
  rw [State.standsAs, ht, h]

theorem State.standsAs.wakeActions (h : u.standsAs x) : u.wakeActions.standsAs x := by
  unfold State.wakeActions
  extract_lets i woken _ caused set paired
  have hcaused : caused.standsAs x := .ite (State.standsAs.count (h.keep (by rfl))) h
  have hset : set.standsAs x := .ite hcaused (.foldl (fun _ _ ht => .ite ht (by
    split
    · exact ht.localOrDrop
    · exact ht.pend)) hcaused)
  have hpaired : paired.standsAs x := .ite hset (.foldl (fun _ _ ht => .ite (ht.keep (by rfl)) ht) hset)
  exact hpaired.keep (by rfl)

/-- The wake actions end the standby state. -/
theorem State.wakeActions_standby (u : State) :
    u.wakeActions.levels.islandA.standby = false ∧ u.wakeActions.levels.islandB.standby = false := ⟨rfl, rfl⟩

theorem State.becomeReady_none (h : u.readyDue = false) : u.becomeReady agree = u := by
  simp [State.becomeReady, h]

section
variable (h : u.readyDue = true)
include h

/-- The wake actions come last of all. -/
theorem State.becomeReady_standby :
    (u.becomeReady agree).levels.islandA.standby = false ∧ (u.becomeReady agree).levels.islandB.standby = false := by
  unfold State.becomeReady
  extract_lets
  rw [if_neg (by simp [h])]
  exact State.wakeActions_standby _

theorem State.becomeReady_standing :
    ∃ p, (u.becomeReady agree).standsAs
        { edge := u.clock.edge, readyEdge := u.clock.edge, ready := true, leadB := u.leadAtReady, pair := p } ∧
      (u.twin.wellA.passed = true → u.twin.wellB.passed = true → p = if agree then .paired else .divergent) := by
  obtain ⟨p, hpaired, hp⟩ := State.pairUp_standing u agree
  refine ⟨p, ?_, hp⟩
  unfold State.becomeReady
  extract_lets warm word paired _ unapplied _ loaded timed _ ready _ done
  rw [if_neg (by simp [h])]
  have hpaired : paired.standsAs { u.standing with leadB := u.leadAtReady, pair := p } := hpaired
  clear_value paired
  have hunapplied : unapplied.standsAs { u.standing with leadB := u.leadAtReady, pair := p } := by
    dsimp only [unapplied]
    split
    · exact hpaired.undoApply
    · exact hpaired.keep (by rfl)
  clear_value unapplied
  have hloaded : loaded.standsAs { u.standing with leadB := u.leadAtReady, pair := p } := .ite (hunapplied.keep (by rfl)) hunapplied.loadVaults
  clear_value loaded
  have htimed : timed.standsAs
      { edge := u.clock.edge, readyEdge := u.clock.edge, ready := u.startup.ready, leadB := u.leadAtReady, pair := p } :=
    hloaded.startTimers.startSampling
  clear_value timed
  have hready : ready.standsAs
      { edge := u.clock.edge, readyEdge := u.clock.edge, ready := true, leadB := u.leadAtReady, pair := p } :=
    htimed.setReady (by rfl)
  clear_value ready
  have hdone : done.standsAs
      { edge := u.clock.edge, readyEdge := u.clock.edge, ready := true, leadB := u.leadAtReady, pair := p } :=
    .ite (hready.keep (by rfl)) (hready.keep (by rfl))
  exact hdone.wakeActions

end

end Sys2Proof.Machine
end

section
/-! SUPPORT. A start-up step's end: what it leaves to the next step, and which ends fail the well (R407, R408, R411). -/

namespace Sys2Proof.Machine
variable {u v : State} {b : Bool} {found : List SweptPage} {step last : Nat}

/-! ### When a step may end -/

/-- A well stands in the step, which lasts to this edge at the latest. -/
def State.stepUntil (u : State) (b : Bool) (step last : Nat) : Prop :=
  (u.well b).step = step ∧ (u.well b).stepAt + u.limitOf (u.well b) = last

theorem State.stepUntil_of_limit (hstep : (u.well b).step = step)
    (hlast : (u.well b).stepAt + stepLimit (decide (u.startup.kind = .warm) && !u.startup.ready) step = last) :
    u.stepUntil b step last :=
  ⟨hstep, by rw [State.limitOf, hstep, hlast]⟩

/-- The edge at which a step may end: steps 2 and 3 last to their limit. -/
def State.onTime (u : State) (step last : Nat) : Prop := u.clock.edge = last ∨ step ≠ 2 ∧ step ≠ 3 ∧ u.clock.edge ≤ last

/-- What a step of a start-up before READY waits for: its random words, or the exchange's end. -/
def State.stepHas (u : State) (step : Nat) : Prop :=
  (step = 4 → u.wordsNeeded ≤ u.startup.drawn.length) ∧
    (step = 9 → u.startup.katWords.length = 4 ∧ u.startup.rndTest = none)

section
variable (h : u.stepUntil b step last)
include h

theorem State.stepLate_iff : u.stepLate (u.well b) = true ↔ last < u.clock.edge := by
  rw [State.stepLate, h.2, decide_eq_true_iff]

theorem State.stepMayEnd_iff :
    u.stepMayEnd (u.well b) = true ↔ (step = 2 ∨ step = 3 → last ≤ u.clock.edge) ∧ (u.startup.ready = true ∨ u.stepHas step) := by
  obtain ⟨hstep, hlast⟩ := h
  simp only [State.stepMayEnd, State.stepHas, hstep, hlast, Bool.and_eq_true, Bool.or_eq_true, Bool.not_eq_true', Bool.or_eq_false_iff,
    decide_eq_true_iff, decide_eq_false_iff_not]
  refine and_congr (by grind) (or_congr_right ?_)
  split
  · next h4 => simp [h4]
  · next h4 =>
    split
    · next h9 => simp [h9]
    · next h9 => simp [h4, h9]

theorem State.onTime.not_late (ht : u.onTime step last) : u.stepLate (u.well b) = false := by
  rw [← Bool.not_eq_true, State.stepLate_iff h]
  obtain he | ⟨_, _, he⟩ := ht
  · omega
  · omega

theorem State.onTime.mayEnd (ht : u.onTime step last) (hhas : u.startup.ready = true ∨ u.stepHas step) :
    u.stepMayEnd (u.well b) = true := by
  refine (State.stepMayEnd_iff h).mpr ⟨fun hs => ?_, hhas⟩
  obtain he | ⟨h2, h3, _⟩ := ht
  · omega
  · omega

/-! ### Ends that leave the well where it is, and ends that fail it -/

theorem State.stepDone_waits (he : u.clock.edge ≤ last)
    (hmay : (step = 2 ∨ step = 3) ∧ u.clock.edge < last ∨ u.startup.ready = false ∧ ¬u.stepHas step) : u.stepDone b true found = u := by
  have hlate : u.stepLate (u.well b) = false := by
    rw [← Bool.not_eq_true, State.stepLate_iff h]
    omega
  have hends : u.stepMayEnd (u.well b) = false := by
    rw [← Bool.not_eq_true, State.stepMayEnd_iff h]
    rintro ⟨hlimit, hhas⟩
    obtain ⟨hs, hlt⟩ | ⟨hr, hnot⟩ := hmay
    · exact absurd (hlimit hs) (by omega)
    · exact hhas.elim (by simp [hr]) hnot
  simp [State.stepDone, hlate, hends]

theorem State.stepDone_late (hs : u.startsUp b = true) (he : last < u.clock.edge) : u.stepDone b true found = u.failStep b := by
  simp [State.stepDone, hs, (State.stepLate_iff h).mpr he]

/-- The exchange's words are wrong, or the sweeps differ at the handshake. -/
theorem State.stepDone_differs (hs : u.startsUp b = true) (hr : u.startup.ready = false) (hhas : u.stepHas step)
    (hbad : step = 9 ∧ u.katOk = false ∨ step = 10 ∧ u.sweepDiffers b = true) : u.stepDone b true found = u.failStep b := by
  have hmay : u.stepMayEnd (u.well b) = true := (State.stepMayEnd_iff h).mpr ⟨by omega, .inr hhas⟩
  obtain ⟨h9, hk⟩ | ⟨h10, hd⟩ := hbad
  · simp [State.stepDone, hs, hmay, hr, h.1, h9, hk]
  · simp [State.stepDone, hs, hmay, h.1, h10, hd]

theorem State.stepTimeout_fails (hs : u.startsUp b = true) (he : last ≤ u.clock.edge) : u.stepTimeout b = u.failStep b := by
  simp [State.stepTimeout, hs, h.2, he]

theorem State.stepTimeout_none (hno : u.startsUp b = false ∨ u.clock.edge < last) : u.stepTimeout b = u := by
  obtain hs | he := hno
  · simp [State.stepTimeout, hs]
  · simp [State.stepTimeout, h.2, he]

end

theorem State.stepDone_reported (hs : u.startsUp b = true) : u.stepDone b false found = u.failStep b := by
  simp [State.stepDone, hs]

theorem State.failStep_ready (hr : u.startup.ready = true) : u.failStep b = u.failRepair 3 stAborted := by
  simp [State.failStep, hr]

/-! ### Ends that bring the next step -/

/-- What a step that ends well does beside: the sense of the fuses, and the first sweep of a warm reset. -/
def State.stepWork (u : State) (b : Bool) (step : Nat) (found : List SweptPage) : State :=
  if step = 1 ∧ u.startup.ready = false then u.senseFuses
  else if step = 3 ∧ u.startup.ready = false ∧ u.startup.kind = .warm ∧ u.firstSwept b = true then u.warmSweep found
  else u

/-- The well goes on to its next step. -/
def State.stepOn (v : State) (b : Bool) (step next : Nat) : State :=
  v.modWell b fun x => { x with step := next, stepAt := if 6 ≤ step ∧ step < 9 then x.stepAt else v.clock.edge }

theorem State.standsAs.ready_eq {x : Standing} (h : u.standsAs x) : u.startup.ready = x.ready := congrArg Standing.ready h

theorem State.warmSweep_ready (u : State) : (u.warmSweep found).startup.ready = u.startup.ready := by
  have h : u.standsAs u.standing := rfl
  exact h.warmSweep.ready_eq

theorem State.stepWork_ready (u : State) : (u.stepWork b step found).startup.ready = u.startup.ready := by
  unfold State.stepWork
  split
  · rfl
  · split
    · exact State.warmSweep_ready u
    · rfl

theorem State.beginKat_ready (hr : u.startup.ready = true) : u.beginKat = u := by
  simp [State.beginKat, hr]

section
variable (h : u.stepUntil b step last) (hs : u.startsUp b = true) (ht : u.onTime step last)
include h hs ht

/-- A step that ends well and finds no fault goes on to the one after it. -/
theorem State.stepDone_passes (hhas : u.startup.ready = true ∨ u.stepHas step)
    (hkat : step = 9 → u.startup.ready = true ∨ u.katOk = true) (hsame : step = 10 → u.sweepDiffers b = false) (hv : u.stepWork b step found = v) :
    u.stepDone b true found =
      if u.stepAfter step = 9 then (v.stepOn b step (u.stepAfter step)).beginKat else v.stepOn b step (u.stepAfter step) := by
  have hlate := ht.not_late h
  have hmay := ht.mayEnd h hhas
  have hbad : ((decide (step = 9) && !u.startup.ready && !u.katOk) || (decide (step = 10) && u.sweepDiffers b)) = false := by
    grind
  have hafter : u.stepAfter step = v.stepAfter step := by
    rw [State.stepAfter, State.stepAfter, ← hv, State.stepWork_ready]
  have hwork : (let s := if step = 1 ∧ !u.startup.ready then u.senseFuses else u
      if step = 3 ∧ !s.startup.ready ∧ s.startup.kind = .warm ∧ s.firstSwept b then s.warmSweep found else s) = v := by
    rw [← hv, State.stepWork]
    by_cases h1 : step = 1
    · subst h1
      by_cases hr : u.startup.ready = false <;> simp [hr]
    · simp [h1]
  rw [hafter]
  subst hwork
  simp only [State.stepDone, h.1, hs, hlate, hmay]
  simp only [Bool.or_false, Bool.not_true, Bool.and_false, Bool.false_or, Bool.false_eq_true, if_false] at hbad ⊢
  rw [if_neg (by simpa using hbad)]
  rfl

theorem State.stepDone_before (hr : u.startup.ready = false) (hhas : u.stepHas step)
    (hkat : step = 9 → u.katOk = true) (hsame : step = 10 → u.sweepDiffers b = false) (hv : u.stepWork b step found = v) :
    u.stepDone b true found = if step = 8 then (v.stepOn b step (step + 1)).beginKat else v.stepOn b step (step + 1) := by
  have hafter : u.stepAfter step = step + 1 := by simp [State.stepAfter, hr]
  rw [State.stepDone_passes h hs ht (.inr hhas) (fun h9 => .inr (hkat h9)) hsame hv, hafter]
  exact if_congr (by omega) rfl rfl

theorem State.stepDone_joining (hr : u.startup.ready = true) :
    u.stepDone b true found = u.stepOn b step (if step = 3 then 5 else step + 1) := by
  have hafter : u.stepAfter step = if step = 3 then 5 else step + 1 := by simp [State.stepAfter, hr]
  have hwork : u.stepWork b step found = u := by simp [State.stepWork, hr]
  have hready : (u.stepOn b step (u.stepAfter step)).startup.ready = true := by simpa [State.stepOn] using hr
  rw [State.stepDone_passes h hs ht (.inl hr) (fun _ => .inl hr) (fun _ => by simp [State.sweepDiffers, hr]) hwork,
    State.beginKat_ready hready, ite_self, hafter]

end

end Sys2Proof.Machine
end

section
open Sys2Proof Sys2Proof.Machine

/-- Settles O59: a step's end by whether it is on time, has what it waits for and finds no fault; READY by where the block stands after it. -/
theorem startUpStepsLeadToReady : Obligations.StartUpStepsLeadToReady := by
  intro s u dt b step last hu hc hstep hlast
  have h : u.stepUntil b step last := State.stepUntil_of_limit hstep hlast
  have passes {found : List SweptPage} {t : State} (ht : u.stepDone b true found = t) :
      exec (.startupStepDone dt b (.passed found)) s = .next (s.left t) := by
    subst hu ht
    exact State.clockedBy_on (f := fun s => s.stepDone b true found) hc
  have fails {t : State} (ht : u.stepDone b false [] = t) : exec (.startupStepDone dt b .failed) s = .next (s.left t) := by
    subst hu ht
    exact State.clockedBy_on (f := fun s => s.stepDone b false []) hc
  have times {t : State} (ht : u.stepTimeout b = t) : exec (.startupStepTimeout dt b) s = .next (s.left t) := by
    subst hu ht
    exact State.clockedBy_on (f := fun s => s.stepTimeout b) hc
  have readies {agree : Bool} {t : State} (ht : u.becomeReady agree = t) : exec (.ready ⟨dt, agree⟩) s = .next (s.left t) := by
    subst hu ht
    exact State.clockedBy_on (f := fun s => s.becomeReady agree) hc
  refine ⟨?passed, ?waits, ?failed, ?joining, fun hno => times (State.stepTimeout_none h hno),
    fun agree hd => readies (State.becomeReady_none hd), ?ready⟩
  case passed =>
    intro found v w hs hr ht h4 h9 h10 h1 h3 hother hw
    have hhas : u.stepHas step := ⟨h4, fun h => ⟨by rw [(h9 h).1]; rfl, (h9 h).2⟩⟩
    have hkat : step = 9 → u.katOk = true := fun h => decide_eq_true (h9 h).1
    have hv : u.stepWork b step found = v := by
      unfold State.stepWork
      split
      · next hc => exact h1 hc.1
      · next hn1 =>
        split
        · next hc => exact h3 hc.1 hc.2.2.1 hc.2.2.2
        · next hn3 => exact hother (by grind) (by grind)
    have hdone := State.stepDone_before h hs ht hr hhas hkat h10 hv
    refine ⟨fun h8 => passes ?_, fun h8 => passes ?_⟩
    · rw [hdone, if_neg h8, ← hw, State.stepOn]
    · rw [hdone, if_pos h8, ← hw, State.stepOn]
  case waits =>
    rintro found hs hr (⟨h23, he⟩ | ⟨h4, hd, he⟩ | ⟨h9, he, hk⟩)
    · exact passes (State.stepDone_waits h he.le (.inl ⟨h23, he⟩))
    · exact passes (State.stepDone_waits h he (.inr ⟨hr, fun hhas => absurd (hhas.1 h4) (by omega)⟩))
    · refine passes (State.stepDone_waits h he (.inr ⟨hr, fun hhas => ?_⟩))
      obtain ⟨hwords, hover⟩ := hhas.2 h9
      simp [hwords, hover] at hk
  case failed =>
    intro v w found hs hr hv hboth hnot
    have hfail : u.failStep b = w := by
      rw [State.failStep_before hr, hv]
      split
      · next hf => exact hboth hf
      · next hf => exact hnot (by simpa using hf)
    refine ⟨fails ((State.stepDone_reported hs).trans hfail), fun h9 h10 h910 => passes ?_,
      fun he => passes ((State.stepDone_late h hs he).trans hfail), fun he => times ((State.stepTimeout_fails h hs he).trans hfail)⟩
    rw [← hfail]
    refine State.stepDone_differs h hs hr ⟨by omega, fun h => ⟨(h9 h).1, (h9 h).2.1⟩⟩ ?_
    exact h910.imp (fun h => ⟨h, decide_eq_false (h9 h).2.2⟩) fun h => ⟨h, h10 h⟩
  case joining =>
    intro found hs hr
    have hfail := State.failStep_ready (b := b) hr
    exact ⟨fun ht => passes (State.stepDone_joining h hs ht hr), fails ((State.stepDone_reported hs).trans hfail),
      fun he => passes ((State.stepDone_late h hs he).trans hfail), fun he => times ((State.stepTimeout_fails h hs he).trans hfail)⟩
  case ready =>
    intro agree hd
    obtain ⟨p, hstands, hp⟩ := State.becomeReady_standing (agree := agree) hd
    obtain ⟨hA, hB⟩ := State.becomeReady_standby (agree := agree) hd
    have hpair : (u.becomeReady agree).twin.pair = p := congrArg Standing.pair hstands
    exact ⟨u.becomeReady agree, readies rfl, congrArg Standing.ready hstands, congrArg Standing.readyEdge hstands,
      congrArg Standing.leadB hstands, fun ha hb => hpair.trans (hp ha hb), hA, hB⟩
end
